-- ==== Sys2Proof/Word.lean ====
section
/-! DEFINITION. The plain word types of the Q80 (R2, R4, R28, R82, R87). -/

namespace Sys2Proof

/-- A byte of memory. -/
abbrev Byte := BitVec 8
/-- A 64-bit scalar: a-registers, loop counters, counters (R87). -/
abbrev Word := BitVec 64
/-- An instruction word (R28). -/
abbrev IWord := BitVec 128
/-- A 52-bit virtual address, the width of a program counter (R28). -/
abbrev VAddr := BitVec 52
/-- A 2,048-bit vector or queue entry (R87, R90). -/
abbrev Vec := BitVec 2048
/-- A core of the package, by its COREID (R100): [3:0] core, [6:4] die. -/
abbrev CoreId := Fin 128
/-- A die, 0 to 7 compute and 8, 9 bridge (R2). -/
abbrev DieId := Fin 10
/-- A context number (R231). -/
abbrev CtxId := Fin 64

end Sys2Proof
end

