-- ==== Sys2Proof/Syntax.lean ====
section
/-! DEFINITION. The syntax of the Q80: operands, instruction words and matrix records as decoded (R30, R39, R43, R46),
the events of the part (spec/opcode_table.json) and the one inductive Instr. -/

namespace Sys2Proof

/-- The three streams of a bank (R82). -/
inductive Stream | l | x | s
  deriving DecidableEq, Repr, Inhabited

/-- The two banks of a core (R82). -/
inductive BankId | active | shadow
  deriving DecidableEq, Repr, Inhabited

/-- A stream of a bank of a core: what evaluates a word. -/
structure Agent where
  core : CoreId
  bank : BankId
  stream : Stream
  deriving DecidableEq, Repr, Inhabited

/-- The tags a word of R30 may carry (R31); M words are records. -/
inductive Tag | l | x | s | b
  deriving DecidableEq, Repr, Inhabited

/-- Element types (R8, R44), in the order of their codes. -/
inductive EType
  | s8 | s16 | s32 | s64 | n8 | n16 | n32 | n64 | f32 | bf16 | f16 | e4m3 | e5m2 | e3m2 | e2m1 | s4 | n4 | nq4 | b32
  deriving DecidableEq, Repr, Inhabited

/-- Format codes 0 to 11 (R47), in the order of their codes. -/
inductive Fmt
  | raw | f32 | bf16 | f16 | e4m3 | e5m2 | e3m2 | e2m1 | int8 | int4 | nq4 | e8m0
  deriving DecidableEq, Repr, Inhabited

/-- Scopes (R43, R186). -/
inductive Scope | core | die | mask | device | system
  deriving DecidableEq, Repr, Inhabited

/-- Orders (R43, R185). -/
inductive Order | rlx | acq | rel | acqrel | sc
  deriving DecidableEq, Repr, Inhabited

/-- Timeline counters (R45). -/
inductive Tl
  | m | l (k : Fin 4) | s (k : Fin 4) | cp (k : Fin 8) | mg | co
  deriving DecidableEq, Repr, Inhabited

/-- Operands (R39): a 10-bit specifier, or the 32-bit literal that litsel puts in srcA or srcB (R42).
`mlc` is the code 00_0011_0nnn: a mask register in X, a loop counter in L and S. -/
inductive Operand
  | reg (n : Fin 32)
  | age (n : Fin 16)
  | mlc (n : Fin 8)
  | queue (n : Fin 16) (peek : Bool)
  | short (v : BitVec 8)
  | ring (n : Fin 8)
  | nb (n : Fin 32)
  | tl (t : Tl)
  | lit (v : BitVec 32)
  deriving DecidableEq, Repr, Inhabited

/-- The fields of an L, X, S or B word other than its opcode (R30, R43). -/
structure WordF where
  tag : Tag := .l
  pbl : Bool := false
  pbr : Bool := false
  pal : Bool := false
  par : Bool := false
  wait : BitVec 6 := 0
  pneg : Bool := false
  pidx : Fin 8 := 0
  mod : BitVec 4 := 0
  dst : Operand := .reg 0
  etype : EType := .s8
  mfile : Bool := false
  scope : Scope := .core
  order : Order := .rlx
  srcC : Operand := .reg 0
  srcA : Operand := .reg 0
  srcB : Operand := .reg 0
  deriving DecidableEq, Repr, Inhabited

/-- The fields of a matrix record other than its opcode (R46). Trip counts are the field values, one less than the
count; strides are four 16-bit signed values, level 0 first; `srcTile` is MADDA's word 2 [5:0] (R177). -/
structure RecF where
  pbl : Bool := false
  pbr : Bool := false
  pal : Bool := false
  par : Bool := false
  wait : BitVec 6 := 0
  pneg : Bool := false
  pidx : Fin 8 := 0
  mod : BitVec 4 := 0
  fmtA : Fmt := .raw
  fmtB : Fmt := .raw
  sgnA : Bool := false
  sgnB : Bool := false
  had : BitVec 2 := 0
  hside : Bool := false
  sparse : BitVec 3 := 0
  fmtO : Fmt := .raw
  rnd : BitVec 2 := 0
  sat : Bool := false
  accum : Bool := false
  t3 : BitVec 16 := 0
  t2 : BitVec 16 := 0
  t1 : BitVec 16 := 0
  t0 : BitVec 16 := 0
  ringA : Fin 8 := 0
  ringB : Fin 8 := 0
  ringD : Fin 8 := 0
  tile : BitVec 6 := 0
  popA : Bool := false
  lvA : BitVec 2 := 0
  popB : Bool := false
  lvB : BitVec 2 := 0
  popD : Bool := false
  lvD : BitVec 2 := 0
  aStr : BitVec 64 := 0
  bStr : BitVec 64 := 0
  tStr : BitVec 64 := 0
  deriving DecidableEq, Repr, Inhabited

/-- Memory tiers of a page (R212). -/
inductive Tier | zero | wstack | hbm | lpddr | host
  deriving DecidableEq, Repr, Inhabited

/-- A link: a die-link module of a die in the direction out of it (R10, R344), or a fabric port 0 to 11 (R353). -/
inductive LinkId
  | dl (d : DieId) (m : Fin 8)
  | fab (p : Fin 12)
  deriving DecidableEq, Repr, Inhabited

/-- What a packet carries (R345, R349), by the number of what the model holds of it: the copy of a write on its way to a
die, a request on its way to its home or target, the answer on its way back, a rank's contribution to a step of a communicator
(R354), the abort of a step for a rank's communicator (R362), or a packet that the model gives no effect of its own. -/
inductive PacketKind
  | write (id : Nat) | request (id : Nat) | answer (id : Nat) | contribution (id : Nat)
  | abort (x : CtxId) (handle : BitVec 8) (step : Nat) | other
  deriving DecidableEq, Repr, Inhabited

/-- A packet (R11, R345): its source and target die, the source's incarnation (R24), its kind, the context that had it (R352),
whether it is a posted atomic, the number of its source agent, the stamp of a plain write (R191), and the node IDs of a fabric
packet's source and target (R354). -/
structure Payload where
  src : DieId
  dst : DieId
  incarnation : BitVec 8 := 0
  kind : PacketKind
  ctx : Option CtxId := none
  posted : Bool := false
  agent : Nat := 0
  stamp : Option (Vector Nat 16) := none
  node : Option (BitVec 16 × BitVec 16) := none
  deriving DecidableEq, Repr, Inhabited

/-- A flit (R344): its header's fields and the packets of its payload; an idle flit has none. -/
structure Flit where
  seq : BitVec 16
  ack : BitVec 16
  nak : Option (BitVec 16)
  pays : List Payload
  deriving DecidableEq, Repr, Inhabited

/-- Structures that record soft errors or run self-tests (R376, R377). -/
inductive Structure
  | icache (c : CoreId) | tlb (d : DieId) | coreTlb (c : CoreId) | cache (d : DieId) | dirty (x : CtxId) (va : VAddr)
  | reg (g : Agent) (n : Fin 32) | lc (g : Agent) (n : Fin 4) | vreg (c : CoreId) (b : BankId) (n : Fin 32)
  | mreg (c : CoreId) (b : BankId) (n : Fin 8)
  | age (c : CoreId) (b : BankId) (n : Fin 16) | queue (c : CoreId) (b : BankId) (q : Fin 16) (pos : Nat)
  | sreg (c : CoreId) (b : BankId) (n : Fin 64) | token (c : CoreId) (b : BankId) (f : Fin 6) (pos : Nat) | waitTable (g : Agent) (n : Fin 8)
  | spad (c : CoreId) (unit : Nat) | acc (c : CoreId) (unit : Nat) | datapath (c : CoreId) (b : BankId)
  | dram (x : CtxId) (va : VAddr) | frame (n : BitVec 28) | dramBus (d : DieId) | laneGroup (l : LinkId) (g : Bool) | island (d : DieId)
  deriving DecidableEq, Repr, Inhabited

/-- An ECC_ERROR event: where, and whether the code corrected it (R376). -/
structure EccEvent where
  at_ : Structure
  corrected : Bool
  deriving DecidableEq, Repr, Inhabited

/-- A write to a context's DBGHOLD entry that releases: the HOLD bit that it writes too (R390). -/
structure DbgWrite where
  ctx : CtxId
  hold : Bool
  deriving DecidableEq, Repr, Inhabited

/-- A communicator of a context, by its handle (R355). -/
structure CommKey where
  ctx : CtxId
  handle : BitVec 8
  deriving DecidableEq, Repr, Inhabited

/-- What the other ranks of a communicator give a collective step (R356 to R359), one entry for each rank, this rank's own
ignored: its operation, etype code, count and reduce operation, its contribution and its digest (under reduce-scatter,
the digest attached to this rank's block stands at its own place); the fabric ports that saw a switch fall back, and those
that saw a digest mismatch; or how a step ends without: an abort, or the loss of a rank with R372's detail. -/
inductive PeerData
  | data (ops : List (Nat × Nat × Nat × Nat)) (bytes : List (List Byte)) (digests : List Word)
      (fallbacks mismatches : List (Fin 12))
  | aborted
  | lost (detail : Word)
  deriving DecidableEq, Repr, Inhabited

/-- The share of a bank's task in the energy of its die's compute island, in nJ (R319). -/
structure BankShare where
  core : CoreId
  bank : BankId
  ctx : CtxId
  kinst : Word
  energy : Nat
  deriving DecidableEq, Repr, Inhabited

/-- The share of a context in the energy of a die's memory island, or of a bridge die's LPDDR6, in nJ, and the part of it
that engine operations of a kernel's tasks drew, by kernel (R319). -/
structure MemShare where
  die : DieId
  ctx : CtxId
  energy : Nat
  engines : List (Word × Nat)
  deriving DecidableEq, Repr, Inhabited

/-- A sensor sweep: the package energy of the period just closed in nJ, the shares of the banks and of the contexts, the
unattributed energy (R308, R319), and what E0 tasks and their traffic drew (R310). They are measurements: inputs of the
model. -/
structure Meter where
  total : Nat
  banks : List BankShare
  memory : List MemShare
  unattributed : Nat
  e0 : Nat
  deriving DecidableEq, Repr, Inhabited

/-- A die's boot self-test (R381, R385). `forward` says whether an excluded die can still forward packets (R26). -/
structure DieTest where
  result : BitVec 8
  forward : Bool
  deriving DecidableEq, Repr, Inhabited

/-- A host access through CXL.mem or the host link (R365, R379). -/
structure HostAccess where
  pa : BitVec 44
  write : Option (List Byte)
  len : Nat
  deriving DecidableEq, Repr, Inhabited

/-- The steps of the part: one constructor per row of spec/opcode_table.json. -/
inductive Instr
  /-- NOP (R103). -/
  | nop (w : WordF)
  /-- MOV (R103). -/
  | mov (w : WordF)
  /-- ADD (R103). -/
  | add (w : WordF)
  /-- SUB (R103). -/
  | sub (w : WordF)
  /-- MUL (R103). -/
  | mul (w : WordF)
  /-- MULH (R103). -/
  | mulh (w : WordF)
  /-- DIV (R103). -/
  | div (w : WordF)
  /-- REM (R103). -/
  | rem (w : WordF)
  /-- AND (R103). -/
  | and (w : WordF)
  /-- OR (R103). -/
  | or (w : WordF)
  /-- XOR (R103). -/
  | xor (w : WordF)
  /-- SHL (R103). -/
  | shl (w : WordF)
  /-- SHR (R103). -/
  | shr (w : WordF)
  /-- SRA (R103). -/
  | sra (w : WordF)
  /-- MIN (R103). -/
  | min (w : WordF)
  /-- MAX (R103). -/
  | max (w : WordF)
  /-- SET (R103). -/
  | set (w : WordF)
  /-- SEL (R103). -/
  | sel (w : WordF)
  /-- MADD (R103). -/
  | madd (w : WordF)
  /-- SCALE (R103). -/
  | scale (w : WordF)
  /-- CLZ (R103). -/
  | clz (w : WordF)
  /-- POPC (R103). -/
  | popc (w : WordF)
  /-- BFX (R103). -/
  | bfx (w : WordF)
  /-- BFI (R103). -/
  | bfi (w : WordF)
  /-- BR (R104). -/
  | br (w : WordF)
  /-- BC (R104). -/
  | bc (w : WordF)
  /-- CALL (R104). -/
  | call (w : WordF)
  /-- RET (R104). -/
  | ret (w : WordF)
  /-- BRI (R104). -/
  | bri (w : WordF)
  /-- LOOP_SET (R105). -/
  | loopSet (w : WordF)
  /-- LOOP (R105). -/
  | loop (w : WordF)
  /-- LBRK (R105). -/
  | lbrk (w : WordF)
  /-- QPUSH (R106). -/
  | qpush (w : WordF)
  /-- QPOP (R106). -/
  | qpop (w : WordF)
  /-- QPEEK (R106). -/
  | qpeek (w : WordF)
  /-- QLEN (R106). -/
  | qlen (w : WordF)
  /-- TKPUSH (R107). -/
  | tkpush (w : WordF)
  /-- TKPOP (R107). -/
  | tkpop (w : WordF)
  /-- GETS (R108). -/
  | gets (w : WordF)
  /-- SETS (R108). -/
  | sets (w : WordF)
  /-- TRAP (R374). -/
  | trap (w : WordF)
  /-- BRK (R375). -/
  | brk (w : WordF)
  /-- CYC (R109). -/
  | cyc (w : WordF)
  /-- PERF (R109). -/
  | perf (w : WordF)
  /-- BARINIT (R301). -/
  | barinit (w : WordF)
  /-- BARARR (R301). -/
  | bararr (w : WordF)
  /-- BARTRY (R301). -/
  | bartry (w : WordF)
  /-- GBARARR (R302). -/
  | gbararr (w : WordF)
  /-- GBARTRY (R302). -/
  | gbartry (w : WordF)
  /-- WAITTL (R303). -/
  | waittl (w : WordF)
  /-- TLGET (R303). -/
  | tlget (w : WordF)
  /-- SETWT (R303). -/
  | setwt (w : WordF)
  /-- TUNEQ (R330). -/
  | tuneq (w : WordF)
  /-- SPAWN (R249). -/
  | spawn (w : WordF)
  /-- RENQ (R250). -/
  | renq (w : WordF)
  /-- KLAUNCH (R280). -/
  | klaunch (w : WordF)
  /-- KWAIT (R281). -/
  | kwait (w : WordF)
  /-- KRETRY (R282). -/
  | kretry (w : WordF)
  /-- KCANCEL_TASK (R283). -/
  | kcancelTask (w : WordF)
  /-- KCANCEL_KERN (R283). -/
  | kcancelKern (w : WordF)
  /-- QTHAW (R251). -/
  | qthaw (w : WordF)
  /-- LD (R139). -/
  | ld (w : WordF)
  /-- LDQ (R140). -/
  | ldq (w : WordF)
  /-- LDQ_DEC (R141). -/
  | ldqDec (w : WordF)
  /-- LDQS (R143). -/
  | ldqs (w : WordF)
  /-- GATHQ (R144). -/
  | gathq (w : WordF)
  /-- STRM (R148). -/
  | strm (w : WordF)
  /-- STRMX (R148). -/
  | strmx (w : WordF)
  /-- RFILL (R150). -/
  | rfill (w : WordF)
  /-- RFILLG (R152). -/
  | rfillg (w : WordF)
  /-- PREF (R155). -/
  | pref (w : WordF)
  /-- LDACQ (R206). -/
  | ldacq (w : WordF)
  /-- WAITADDR (R208). -/
  | waitaddr (w : WordF)
  /-- RDROP (R153). -/
  | rdrop (w : WordF)
  /-- RINIT (R149). -/
  | rinit (w : WordF)
  /-- AADD (R205). -/
  | aadd (w : WordF)
  /-- AFADD (R205). -/
  | afadd (w : WordF)
  /-- AMIN (R205). -/
  | amin (w : WordF)
  /-- AMAX (R205). -/
  | amax (w : WordF)
  /-- AAND (R205). -/
  | aand (w : WordF)
  /-- AOR (R205). -/
  | aor (w : WordF)
  /-- AXOR (R205). -/
  | axor (w : WordF)
  /-- ASWP (R205). -/
  | aswp (w : WordF)
  /-- ACAS (R205). -/
  | acas (w : WordF)
  /-- AINCW (R205). -/
  | aincw (w : WordF)
  /-- CPY (R226). -/
  | cpy (w : WordF)
  /-- CPYH (R227). -/
  | cpyh (w : WordF)
  /-- MIGR (R228). -/
  | migr (w : WordF)
  /-- PIN (R229). -/
  | pin (w : WordF)
  /-- UNPIN (R229). -/
  | unpin (w : WordF)
  /-- COLL (R360). -/
  | coll (w : WordF)
  /-- DIGEST (R361). -/
  | digest (w : WordF)
  /-- TLBINV (R230). -/
  | tlbinv (w : WordF)
  /-- PGZERO (R228). -/
  | pgzero (w : WordF)
  /-- ST (R139). -/
  | st (w : WordF)
  /-- STQ (R140). -/
  | stq (w : WordF)
  /-- STQ_ENC (R142). -/
  | stqEnc (w : WordF)
  /-- STQS (R143). -/
  | stqs (w : WordF)
  /-- SCATQ (R144). -/
  | scatq (w : WordF)
  /-- DRN (R148). -/
  | drn (w : WordF)
  /-- DRNX (R148). -/
  | drnx (w : WordF)
  /-- RDRAIN (R154). -/
  | rdrain (w : WordF)
  /-- REDSP (R159). -/
  | redsp (w : WordF)
  /-- SENDH (R158). -/
  | sendh (w : WordF)
  /-- STREL (R207). -/
  | strel (w : WordF)
  /-- ZERO (R156). -/
  | zero (w : WordF)
  /-- CLEAN (R156). -/
  | clean (w : WordF)
  /-- INVAL (R156). -/
  | inval (w : WordF)
  /-- VADD (R117). -/
  | vadd (w : WordF)
  /-- VSUB (R117). -/
  | vsub (w : WordF)
  /-- VMUL (R117). -/
  | vmul (w : WordF)
  /-- VMULH (R117). -/
  | vmulh (w : WordF)
  /-- VMADD (R117). -/
  | vmadd (w : WordF)
  /-- VSADD (R117). -/
  | vsadd (w : WordF)
  /-- VSSUB (R117). -/
  | vssub (w : WordF)
  /-- VAND (R117). -/
  | vand (w : WordF)
  /-- VOR (R117). -/
  | vor (w : WordF)
  /-- VXOR (R117). -/
  | vxor (w : WordF)
  /-- VANDN (R117). -/
  | vandn (w : WordF)
  /-- VSHL (R117). -/
  | vshl (w : WordF)
  /-- VSHR (R117). -/
  | vshr (w : WordF)
  /-- VSRA (R117). -/
  | vsra (w : WordF)
  /-- VMIN (R117). -/
  | vmin (w : WordF)
  /-- VMAX (R117). -/
  | vmax (w : WordF)
  /-- VABS (R117). -/
  | vabs (w : WordF)
  /-- VNEG (R117). -/
  | vneg (w : WordF)
  /-- VCLZ (R117). -/
  | vclz (w : WordF)
  /-- VPOPC (R117). -/
  | vpopc (w : WordF)
  /-- VDOT4 (R118). -/
  | vdot4 (w : WordF)
  /-- FADD (R120). -/
  | fadd (w : WordF)
  /-- FSUB (R120). -/
  | fsub (w : WordF)
  /-- FMUL (R120). -/
  | fmul (w : WordF)
  /-- FFMA (R120). -/
  | ffma (w : WordF)
  /-- FFNMA (R120). -/
  | ffnma (w : WordF)
  /-- FMIN (R120). -/
  | fmin (w : WordF)
  /-- FMAX (R120). -/
  | fmax (w : WordF)
  /-- FABS (R120). -/
  | fabs (w : WordF)
  /-- FNEG (R120). -/
  | fneg (w : WordF)
  /-- FDIV (R121). -/
  | fdiv (w : WordF)
  /-- FSQRT (R121). -/
  | fsqrt (w : WordF)
  /-- FEXP (R121). -/
  | fexp (w : WordF)
  /-- FEXP2 (R121). -/
  | fexp2 (w : WordF)
  /-- FLOG2 (R121). -/
  | flog2 (w : WordF)
  /-- FTANH (R121). -/
  | ftanh (w : WordF)
  /-- FRND (R122). -/
  | frnd (w : WordF)
  /-- FCLASS (R122). -/
  | fclass (w : WordF)
  /-- VCMP (R123). -/
  | vcmp (w : WordF)
  /-- FCMP (R123). -/
  | fcmp (w : WordF)
  /-- MAND (R124). -/
  | mand (w : WordF)
  /-- MOR (R124). -/
  | mor (w : WordF)
  /-- MXOR (R124). -/
  | mxor (w : WordF)
  /-- MNOT (R124). -/
  | mnot (w : WordF)
  /-- MPOPC (R124). -/
  | mpopc (w : WordF)
  /-- MFIRST (R124). -/
  | mfirst (w : WordF)
  /-- VSEL (R124). -/
  | vsel (w : WordF)
  /-- MSET (R124). -/
  | mset (w : WordF)
  /-- CVT (R125). -/
  | cvt (w : WordF)
  /-- PACK (R126). -/
  | pack (w : WordF)
  /-- UNPACK (R126). -/
  | unpack (w : WordF)
  /-- QENC (R127). -/
  | qenc (w : WordF)
  /-- QDEC (R127). -/
  | qdec (w : WordF)
  /-- VBCAST (R129). -/
  | vbcast (w : WordF)
  /-- VSHUF (R129). -/
  | vshuf (w : WordF)
  /-- VROT (R129). -/
  | vrot (w : WordF)
  /-- VSLIDE (R129). -/
  | vslide (w : WordF)
  /-- VREDADD (R130). -/
  | vredadd (w : WordF)
  /-- VREDMAX (R130). -/
  | vredmax (w : WordF)
  /-- VREDMIN (R130). -/
  | vredmin (w : WordF)
  /-- VSCAN (R131). -/
  | vscan (w : WordF)
  /-- VIOTA (R132). -/
  | viota (w : WordF)
  /-- VCMPRS (R132). -/
  | vcmprs (w : WordF)
  /-- VEXPND (R132). -/
  | vexpnd (w : WordF)
  /-- VMOV (R133). -/
  | vmov (w : WordF)
  /-- VLIT (R133). -/
  | vlit (w : WordF)
  /-- VINS (R133). -/
  | vins (w : WordF)
  /-- VEXT (R133). -/
  | vext (w : WordF)
  /-- PKSET (R337). -/
  | pkset (w : WordF)
  /-- PKRAND (R338). -/
  | pkrand (w : WordF)
  /-- PKTOPK (R339). -/
  | pktopk (w : WordF)
  /-- PKMERGE (R340). -/
  | pkmerge (w : WordF)
  /-- PKDRAW (R341). -/
  | pkdraw (w : WordF)
  /-- MMA (R179). -/
  | mma (r : RecF)
  /-- MMAS (R179). -/
  | mmas (r : RecF)
  /-- MHAD (R180). -/
  | mhad (r : RecF)
  /-- MCLR (R181). -/
  | mclr (r : RecF)
  /-- MLDA (R181). -/
  | mlda (r : RecF)
  /-- MSTA (R182). -/
  | msta (r : RecF)
  /-- MSCL (R183). -/
  | mscl (r : RecF)
  /-- MADDA (R181). -/
  | madda (r : RecF)
  /-- MXP (R184). -/
  | mxp (r : RecF)
  /-- FENCE (R209). -/
  | fence (w : WordF)
  /-- YIELD_TL (R252). -/
  | yieldTl (w : WordF)
  /-- YIELD_NB (R252). -/
  | yieldNb (w : WordF)
  /-- YIELD_GB (R252). -/
  | yieldGb (w : WordF)
  /-- YIELD_ARR (R252). -/
  | yieldArr (w : WordF)
  /-- TEND (R285). -/
  | tend (w : WordF)
  /-- KTRIG (R284). -/
  | ktrig (w : WordF)
  /-- SYNC (R110). -/
  | sync (w : WordF)
  /-- WORD_RESUME (R33). -/
  | wordResume (g : Agent)
  /-- WAITADDR_WAKE (R208). -/
  | waitaddrWake (g : Agent)
  /-- TASK_DISPATCH (R246). -/
  | taskDispatch (c : CoreId)
  /-- SHADOW_SWAP (R96). -/
  | shadowSwap (c : CoreId)
  /-- SHADOW_BANK_START (R96). -/
  | shadowBankStart (c : CoreId)
  /-- ACTIVE_BANK_RESUME (R99). -/
  | activeBankResume (c : CoreId)
  /-- STREAM_STOP (R85). -/
  | streamStop (g : Agent)
  /-- DEFERRED_FAULT (R370). -/
  | deferredFault (g : Agent)
  /-- STREAM_ENGINE_STEP (R148). -/
  | streamEngineStep (c : CoreId) (b : BankId) (k : Fin 8)
  /-- QUEUE_ATOMIC_RESULT (R204). -/
  | queueAtomicResult (c : CoreId) (b : BankId) (k : Fin 4)
  /-- MATRIX_STEP (R170). -/
  | matrixStep (c : CoreId) (b : BankId)
  /-- MATRIX_POP (R170). -/
  | matrixPop (c : CoreId) (b : BankId)
  /-- COPY_PIECE (R226). -/
  | copyPiece (d : DieId) (k : Fin 8) (hpa : List (BitVec 44))
  /-- MIGRATOR_PAGE (R228). -/
  | migratorPage (d : DieId)
  /-- MOVE_COMMIT (R218). -/
  | moveCommit (n : Nat)
  /-- COLLECTIVE_STEP (R360). -/
  | collectiveStep (d : DieId) (k : CommKey) (peers : PeerData)
  /-- ATOMIC_AT_HOME (R193). -/
  | atomicAtHome (n : Nat)
  /-- STORE_BUFFER_DRAIN (R189). -/
  | storeBufferDrain (c : CoreId) (b : BankId)
  /-- WRITE_APPLY (R191). -/
  | writeApply (n : Nat) (at_ : Option DieId)
  /-- SENDH_ARRIVAL (R158). -/
  | sendhArrival (n : Nat)
  /-- REDSP_ARRIVAL (R159). -/
  | redspArrival (n : Nat)
  /-- GBAR_COUNT (R297). -/
  | gbarCount (n : Nat)
  /-- CONT_READY (R254). -/
  | contReady (x : CtxId) (slot : Nat)
  /-- PAGE_WALK (R222). -/
  | pageWalk (c : CoreId) (x : CtxId) (va : VAddr) (victim : Option Nat)
  /-- ECC_ERROR (R376). -/
  | eccError (e : EccEvent)
  /-- REFETCH_COMPLETE (R219). -/
  | refetchComplete (n : Nat) (pages : Option (List (BitVec 44)))
  /-- REPAIR_TIMEOUT (R217). -/
  | repairTimeout (n : Nat)
  /-- HOST_FLIP_ACCESS (R217). -/
  | hostFlipAccess (x : CtxId) (va : VAddr)
  /-- ATS_INVALIDATE (R221). -/
  | atsInvalidate (x : CtxId) (handle : BitVec 12)
  /-- CAPO_EVICT (R217). -/
  | capoEvict (x : CtxId) (va : VAddr) (tier : Tier) (home : DieId)
  /-- DIE_FAULT (R22). -/
  | dieFault (d : DieId)
  /-- DIE_RESET_DONE (R22). -/
  | dieResetDone (d : DieId) (pass : Bool)
  /-- ISLAND_GATE (R316). -/
  | islandGate (d : DieId)
  /-- ISLAND_UNGATE (R317). -/
  | islandUngate (d : DieId)
  /-- UNGATE_COMPLETE (R16). -/
  | ungateComplete (d : DieId)
  /-- FLIT_SEND (R346): an idle flit, or one with the next n packets. -/
  | flitSend (l : LinkId) (n : Nat)
  /-- FLIT_RECEIVE (R347): the flit that arrives at a port, and at which of its bytes the line has changed which bits. -/
  | flitReceive (l : LinkId) (f : Option Flit) (err : List (Nat × BitVec 8))
  /-- REPLAY_TIMEOUT (R348). -/
  | replayTimeout (l : LinkId)
  /-- LINK_TRAIN_DONE (R351). -/
  | linkTrainDone (l : LinkId) (g0 g1 : Bool)
  /-- LINK_ACK_TIMEOUT (R351). -/
  | linkAckTimeout (l : LinkId)
  /-- HOST_LINK_DOWN (R366). -/
  | hostLinkDown
  /-- RING_TAIL_READ (R258). -/
  | ringTailRead (r : Fin 16)
  /-- LAUNCH (R266). -/
  | launch (r : Fin 16)
  /-- CTXOPEN (R232). -/
  | ctxopen (r : Fin 16)
  /-- CTXREADY (R233). -/
  | ctxready (r : Fin 16)
  /-- WSLOAD (R235). -/
  | wsload (r : Fin 16)
  /-- CTXQUIESCE (R233). -/
  | ctxquiesce (r : Fin 16)
  /-- CTXRELEASE (R234). -/
  | ctxrelease (r : Fin 16)
  /-- QUIESCE_COMPLETE (R233). -/
  | quiesceComplete (x : CtxId)
  /-- WSLOAD_BEGIN (R235). -/
  | wsloadBegin (x : CtxId)
  /-- KERNEL_ADMIT (R267). -/
  | kernelAdmit (x : CtxId)
  /-- TILE_QUEUE_FILL (R248). -/
  | tileQueueFill (c : CoreId)
  /-- GANG_RESERVE (R289). -/
  | gangReserve
  /-- GANG_BANK_HOLD (R289). -/
  | gangBankHold (c : CoreId)
  /-- PERIOD_BOUNDARY (R311). -/
  | periodBoundary
  /-- DRAIN_WINDOW_START (R326). -/
  | drainWindowStart
  /-- LEVEL_CHANGE (R19). -/
  | levelChange
  /-- REFRESH (R323). -/
  | refresh
  /-- SENSOR_SWEEP (R308). -/
  | sensorSweep (m : Meter)
  /-- TARGETED_SELFTEST (R377). -/
  | targetedSelftest (e : Structure) (pass : Bool)
  /-- SLOT_END (R328). -/
  | slotEnd
  /-- OVERRUN_COMPLETE (R329). -/
  | overrunComplete (n : Nat)
  /-- CADENCE_CAP_APPLY (R314). -/
  | cadenceCapApply (c : CoreId)
  /-- PARK_IMAGE (R239). -/
  | parkImage (c : CoreId) (b : BankId)
  /-- IMAGE_RESUME (R242). -/
  | imageResume (x : CtxId) (slot : Nat) (readable : Bool)
  /-- SHED_END (R318). -/
  | shedEnd
  /-- CURVE_ACTIVATE (R307). -/
  | curveActivate
  /-- CURVE_EXPIRE (R307). -/
  | curveExpire
  /-- HEARTBEAT_TIMEOUT (R384). -/
  | heartbeatTimeout
  /-- POWER_ON_RESET (R381). -/
  | powerOnReset
  /-- BOOT_SELFTEST_DONE (R381). -/
  | bootSelftestDone (results : Vector DieTest 10)
  /-- MODRESET (R387). -/
  | modreset (value : Word)
  /-- RING_START (R388). -/
  | ringStart (r : Fin 16)
  /-- RING_DISABLE (R388). -/
  | ringDisable (r : Fin 16)
  /-- CURVE_SUBMIT (R306). -/
  | curveSubmit
  /-- ATTEST_REQUEST (R385). -/
  | attestRequest
  /-- COMM_REGISTER (R391). -/
  | commRegister
  /-- DBG_HOLD (R390). -/
  | dbgHold (x : CtxId) (value : Word)
  /-- DBG_RELEASE_THAW (R390). -/
  | dbgReleaseThaw (w : DbgWrite)
  /-- DBG_RELEASE_CANCEL (R390). -/
  | dbgReleaseCancel (w : DbgWrite)
  /-- REG_WRITE (R387). -/
  | regWrite (off : Nat) (value : Word)
  /-- EXTENDED_SLOT_RETRAIN (R324). -/
  | extendedSlotRetrain (results : List (LinkId × Bool × Bool))
  /-- IEEE1588_TIME_LOST (R307). -/
  | ieee1588TimeLost
  /-- IEEE1588_TIME_GAINED (R307). -/
  | ieee1588TimeGained (t : Nat)
  /-- CXL_MEM_ACCESS (R365). -/
  | cxlMemAccess (a : HostAccess)
  /-- RESPONSE_RETURN (R96). -/
  | responseReturn (g : Agent)
  deriving DecidableEq, Repr

end Sys2Proof
end

