-- ==== Sys2Proof/Machine/State.lean ====
section
/-! DEFINITION. The state of the Q80: everything the spec gives the machine, as plain data, each field at its reset
value (the structure's default), the machine right after reset, and the reasons a step stops. Fields the spec does not
name are marked MODEL and stand in the assumption log. -/

namespace Sys2Proof.Machine

/-- Why a step of the model stops without a next state. -/
inductive Fault
  /-- Raised by the meaning of an event whose condition the spec does not find met in this state, and by a word at a
  stream that is not RUNNING (R84): the spec has no such step here (DESIGN CHOICE, assumption 81). Safe: the machine takes no
  step. -/
  | notEnabled
  deriving DecidableEq, Repr

/-- Why the model gives an instruction no meaning. -/
inductive Refusal
  /-- Raised by an arm of exec whose instruction has no meaning yet. Safe. -/
  | notModelled (mnemonic : String)
  deriving DecidableEq, Repr

/-! ### Memory -/

/-- Bytes by address in one canonical form: addresses strictly rising and no zero byte listed. An unlisted address
reads as 0 (assumption 1). -/
abbrev Mem := List Host.Cell

/-! ### Faults (R368 to R373) -/

/-- The fault codes of R368. -/
inductive Code
  | ok | illop | priv | align | prot | notmapped | fmt | queue | ring | barrier | mask | yieldstate | eccu | poison
  | gated | resx | hostpage | dielost | linkdown | digest | shed | cancelled | slotovr | trapsw
  deriving DecidableEq, Repr

/-- A fault record before its layout as bytes (R371). -/
structure FaultInfo where
  code : Code := .ok
  unit : Nat := 0
  flags : BitVec 8 := 0
  index : Nat := 0
  coreid : BitVec 16 := 0
  pc : Word := 0
  addr : Word := 0
  opnum : Word := 0
  pos : Word := 0
  detail : Word := 0
  aux : Word := 0
  cycle : Word := 0
  deriving DecidableEq, Repr

/-- What a deferred fault came from (R370). -/
inductive FaultSrc
  | word | engine (k : Fin 8) | matrix | copy (id : Nat) | coll (id : Nat) | atomic (id : Nat) | image | held
  deriving DecidableEq, Repr

/-- A deferred fault that waits for its stream's next word (R370). -/
structure Deferred where
  info : FaultInfo
  src : FaultSrc
  deriving DecidableEq, Repr

/-! ### Streams and banks (R82 to R101) -/

/-- The step of R33 at which a word waits. -/
inductive StallStep | slip | wait | tokens | rendezvous | queues | op
  deriving DecidableEq, Repr

/-- The states of R84. A suspended stream keeps its state beside the flag `suspended`. -/
inductive RunState
  | free | running | stalled (why : StallStep) | halted | stopped
  deriving DecidableEq, Repr

/-- A wait-table entry (R299). -/
structure WtEntry where
  ctr : BitVec 5 := 0
  target : Word := 0
  deriving DecidableEq, Repr

/-- A wait in progress (R35): its value, its start cycle, and the wait-table entry as it stood then. -/
structure WaitSt where
  value : BitVec 6
  start : Nat
  entry : WtEntry
  deriving DecidableEq, Repr

/-- LAST and ARRIVED of one named barrier in one stream (R294). -/
structure NbView where
  last : BitVec 32 := 0
  arrived : Bool := false
  deriving DecidableEq, Repr

/-- A word past step 8 that waits for a result from outside its stream (R33, R96): what it waits for, and what it
commits then. `sent` is the number of the request in flight. -/
inductive PendKind
  | atomic | send | gbar | storeSc | release | fence
  deriving DecidableEq, Repr

/-- A pending word. -/
structure Pending where
  kind : PendKind
  sent : Nat
  word : WordF
  result : Option Word := none
  failed : Option FaultInfo := none
  /-- The number of a performed atomic's own write (R190, R197). -/
  wrote : Nat := 0
  deriving DecidableEq, Repr

/-- What a waiting WAITADDR watches (R208): its 128-byte line, the bytes it found there and the cycle it read on. -/
structure Watch where
  line : Nat
  bytes : List Byte
  since : Nat
  deriving DecidableEq, Repr

/-- A stream of a bank (R82). -/
structure StreamSt where
  run : RunState := .free
  suspended : Bool := false
  pc : VAddr := 0
  slip : Nat := 0
  /-- The slip count that a word which completed while the stream was SUSPENDED leaves, in force at the swap back: the
  count of a SUSPENDED stream does not change (R95). -/
  slipDue : Option Nat := none
  /-- The last step of R33 that the word at `pc` has passed, 2 when it has only been decoded (R84). -/
  passed : Nat := 2
  wait : Option WaitSt := none
  arrived : Bool := false
  /-- QTHAW: the word at `pc` is evaluated as one whose predicate is false (R251). -/
  thaw : Bool := false
  deferred : List Deferred := []
  pending : Option Pending := none
  stalledFor : Nat := 0
  /-- A WAITADDR at `pc` that has read and waits to be woken (R208). -/
  watching : Option Watch := none
  /-- The word at `pc` as decoded, once steps 1 and 2 of R33 have passed it: a word that stalls goes on from its step and
  is not fetched again (R84, R86). -/
  latch : Option Instr := none
  deriving DecidableEq, Repr

/-- The rest of a stream's registers (R82, R87, R109, R294, R299), their ECC marks (R376), and the number, in the
bank's view, of the last operation the stream issued on each counter of R45 (R35, wait idle). -/
structure StreamRegs where
  lc : Vector Word 4 := Vector.replicate 4 0
  wt : Vector WtEntry 8 := Vector.replicate 8 {}
  nb : Vector NbView 32 := Vector.replicate 32 {}
  perf : Vector Word 8 := Vector.replicate 8 0
  last : Vector Word 19 := Vector.replicate 19 0
  badLc : BitVec 4 := 0
  badWt : BitVec 8 := 0
  deriving DecidableEq, Repr

/-- A first-in first-out queue with the cycle stamps that R91 needs: what was pushed or popped on cycle `pushAt` or
`popAt` is not yet visible to the other side on that cycle. -/
structure Fifo (α : Type) where
  items : List α := []
  pushAt : Nat := 0
  pushN : Nat := 0
  popAt : Nat := 0
  popN : Nat := 0
  deriving DecidableEq, Repr

/-- A queue entry or an age entry with its ECC mark (R90, R376). -/
structure Entry where
  val : Vec := 0
  bad : Bool := false
  deriving DecidableEq, Repr

/-- The vector file of X (R87, R94). -/
structure VecRegs where
  v : Vector Vec 32 := Vector.replicate 32 0
  h : Vector Entry 16 := Vector.replicate 16 {}
  m : Vector Word 8 := (Vector.replicate 8 0).set 0 (BitVec.allOnes 64)
  badV : BitVec 32 := 0
  badM : BitVec 8 := 0
  deriving DecidableEq, Repr

/-- The scalar files of L and S (R87). -/
structure AFiles where
  l : Vector Word 32 := Vector.replicate 32 0
  s : Vector Word 32 := Vector.replicate 32 0
  badL : BitVec 32 := 0
  badS : BitVec 32 := 0
  deriving DecidableEq, Repr

/-- The special registers that a bank holds (R100). -/
structure BankSregs where
  slipw : Word := 4096
  /-- What SLIPW held before cycle `slipAt`, on which it was last written: a GETS on that cycle reads it (R101). -/
  slipOld : Word := 4096
  slipAt : Nat := 0
  fpstat : Word := 0
  mstat : Word := 0
  srseed : Word := 0
  xsrpos : Word := 0
  msrpos : Word := 0
  /-- The marks of R376, by the register's number. -/
  bad : BitVec 64 := 0
  deriving DecidableEq, Repr

/-- The kinds of a ring (R149). -/
inductive RingKind | a | b | d | t
  deriving DecidableEq, Repr

/-- The extents of a slot (R151, R161), and the rows that RFILLG left structural by a null index (R152). -/
structure SlotExt where
  v : Nat := 0
  k : Nat := 0
  nulls : BitVec 128 := 0
  deriving DecidableEq, Repr

/-- A ring register (R161): the extents of slot x are element x of `ext`. -/
structure Ring where
  base : Nat
  slots : Nat
  ksize : Nat
  kind : RingKind
  tag : Nat
  head : Nat := 0
  tail : Nat := 0
  held : Nat := 0
  ext : List SlotExt := []
  deriving DecidableEq, Repr

/-- The forms of stream-engine operation (R148 to R154, R204). -/
inductive EngForm
  | strm | drn | rfill | rfillg | rdrain | qatomic
  deriving DecidableEq, Repr

/-- An accepted operation of a stream engine (R145): its number, its queue or ring, its descriptor and its progress. -/
structure EngOp where
  form : EngForm
  num : Word
  q : Nat := 0
  ring : Nat := 0
  etype : EType := .s8
  base : Word := 0
  c0 : Nat := 0
  s0 : Word := 0
  c1 : Nat := 0
  s1 : Word := 0
  v : Nat := 0
  kx : Nat := 0
  next : Nat := 0
  rows : Option (List (BitVec 32)) := none
  /-- The format code of the pages that a fill has read so far (R150). -/
  fmt : Option Nat := none
  faulted : Bool := false
  deriving DecidableEq, Repr

/-- The nine matrix forms (R177). -/
inductive MForm | mma | mmas | mhad | mclr | mlda | msta | mscl | madda | mxp
  deriving DecidableEq, Repr

/-- An accepted matrix record (R168): its next step's indices, the pops of the step before it still due (R170), the
panels it has appended (R180), the rings it names, and SRSEED and MSRPOS as they stood at its acceptance (R70). -/
structure MatRec where
  form : MForm
  rf : RecF
  num : Word
  rings : List (Fin 8) := []
  useD : Bool := false
  seed : Word := 0
  mpos : Word := 0
  i0 : Nat := 0
  i1 : Nat := 0
  i2 : Nat := 0
  i3 : Nat := 0
  pops : List (Fin 3) := []
  appended : Nat := 0
  /-- Entries that a step of an MSTA to a queue has made and that wait for room, in row order (R182). -/
  out : List Vec := []
  finished : Bool := false
  faulted : Bool := false
  /-- The tiles that earlier steps of the record have written (R78, accum = 0). -/
  tiles : List Nat := []
  deriving DecidableEq, Repr

/-- The Plectrum state of a bank (R331). -/
structure Plectrum where
  seed : Word := 0
  seq : BitVec 32 := 0
  pos : BitVec 32 := 0
  temp : BitVec 32 := 0x3F800000
  k : Nat := 4096
  p : BitVec 32 := 0x3F800000
  list : Option Nat := none
  deriving DecidableEq, Repr

/-- The engine contexts of a bank (R82, R97, R149, R243). `tl` and `issued` are tl.m, tl.l0 to tl.l3, tl.s0 to tl.s3;
`view` and `lastDie` stand for tl.cp0 to tl.cp7, tl.mg, tl.co. -/
structure Engines where
  rings : Vector (Option Ring) 8 := Vector.replicate 8 none
  tl : Vector Word 9 := Vector.replicate 9 0
  issued : Vector Word 9 := Vector.replicate 9 0
  ops : Vector (List EngOp) 8 := Vector.replicate 8 []
  recs : List MatRec := []
  view : Vector Word 10 := Vector.replicate 10 0
  lastDie : Vector Word 10 := Vector.replicate 10 0
  deriving DecidableEq, Repr

/-- What kind of task runs (R287, R277). -/
inductive TaskKind
  | member | spawned | renq | handler (of : Word) | cont
  deriving DecidableEq, Repr

/-- A task (R100, R246, R249, R261, R286): who it is and the bits it counts toward R273. -/
structure Task where
  handle : Word
  ctx : CtxId
  kinst : Word
  node : Nat
  kind : TaskKind
  rank : Nat
  gsize : Nat
  row : Nat
  view : Word := 0
  argp : Word := 0
  seed : Word := 0
  prio : Fin 4 := 2
  eclass : Fin 4 := 0
  cadence : Nat := 8
  entry : Word := 0
  /-- MODEL: what tells a continuation that a SENDH started from the other tasks of its handle (R158); 0 for these. -/
  own : Nat := 0
  deriving DecidableEq, Repr

/-- A store in a store buffer (R189), or one of the two parts of a store of several units (R194): its physical cells. -/
structure BufStore where
  id : Nat
  cells : List Host.Cell
  deriving DecidableEq, Repr

/-- A bank that is freezing or frozen (R85): the fault taken, what it came from, the stream and the cycle, and the
second fault held, if any. -/
structure Freeze where
  info : FaultInfo
  src : FaultSrc
  stream : Stream
  since : Nat
  done : Bool := false
  second : Bool := false
  /-- The handle of the handler task that was made for this freeze (R274), 0 for none. -/
  handler : Word := 0
  /-- The context stops (R233, R370): every stream stops at once, and no handler is spawned. -/
  stopping : Bool := false
  /-- BRK under a debug hold (R375): no handler is spawned. -/
  held : Bool := false
  /-- A decision of the handler that waits for a parked image to resume (R315). -/
  decided : Option Bool := none
  deriving DecidableEq, Repr

/-- A stream context bank (R82). -/
structure Bank where
  task : Option Task := none
  l : StreamSt := {}
  x : StreamSt := {}
  s : StreamSt := {}
  lr : StreamRegs := {}
  xr : StreamRegs := {}
  sr : StreamRegs := {}
  a : AFiles := {}
  vec : VecRegs := {}
  q : Vector (Fifo Entry) 16 := Vector.replicate 16 {}
  tk : Vector (Fifo Bool) 6 := Vector.replicate 6 {}
  sregs : BankSregs := {}
  eng : Engines := {}
  pk : Plectrum := {}
  deriving DecidableEq, Repr

/-- What a bank needs beside R82: its store buffer (R188), its freeze (R85), the bank's release and acquire waits, and
whether the task has committed KTRIG (R273). -/
structure BankAux where
  sb : List BufStore := []
  freeze : Option Freeze := none
  ktrig : Bool := false
  /-- The dispatcher holds this bank for a gang group (R289): its kernel and node. -/
  hold : Option (Word × Nat) := none
  /-- The bank's task is a member of a gang group that was placed with it (R289, R291). -/
  gang : Bool := false
  datapathBad : Bool := false
  /-- The writes in flight that an acquire of the bank orders before its later accesses (R196), each with the dies of
  the acquire's scope. -/
  acquired : List (Nat × List DieId) := []
  deriving DecidableEq, Repr

/-! ### Work queues (R245 to R256) -/

/-- How a task starts: fresh at an entry with initial registers (R83, R249, R250, R158, R274), or from a continuation
record (R256). -/
structure Start where
  pc : Word
  la : List (Nat × Word) := []
  sa : List (Nat × Word) := []
  v0 : Vec := 0
  deriving DecidableEq, Repr

/-- A queued task: its start, the number of its creation and that of its arrival in a tile queue, and how many decisions
passed over it (R246). -/
structure QTask where
  task : Task
  start : Start
  order : Nat
  arrived : Nat := 0
  passed : Nat := 0
  raised : Bool := false
  deriving DecidableEq, Repr

/-- What a continuation waits for (R252). -/
inductive ContCond
  | tl (c : Fin 2) (target : Word)
  | nb (n : Fin 32) (last : BitVec 32) (arrived : Bool)
  | gb (g : Fin 64)
  | arr
  deriving DecidableEq, Repr

/-- A continuation: its record (R253) and what the dispatcher keeps beside it. `viewV` is V of R243. -/
structure Cont where
  slot : Nat
  task : Task
  pcL : Word
  pcX : Word
  pcS : Word
  lc : List Word
  aL : List Word
  aS : List Word
  live : BitVec 32
  vecs : List Vec
  cond : ContCond
  pinned : Bool
  core : CoreId
  /-- READY, and in a core's continuation-ready queue: a READY one waits for room in it (R254). -/
  ready : Bool := false
  queued : Bool := false
  viewV : List Word := []
  deriving DecidableEq, Repr

/-- An entry of a continuation-ready queue: a handler continuation of SENDH (R158), or a yielded one, by its slot. -/
inductive ReadyWhat
  | start (q : QTask)
  | slot (x : CtxId) (n : Nat)
  deriving DecidableEq, Repr

/-- A continuation of the continuation-ready queue with its mark (R245). -/
structure Ready where
  what : ReadyWhat
  pinned : Bool
  prio : Fin 4
  order : Nat
  passed : Nat := 0
  raised : Bool := false
  deriving DecidableEq, Repr

/-- What waits for room in a queue of 16 or 64 entries. -/
inductive WaitWhat
  | engine (q : QTask)
  | ready (r : Ready)
  deriving DecidableEq, Repr

/-- An entry that waits with the dispatcher for room (R245, R271): the core whose queue it enters, or none where R271
chooses one. -/
structure WaitEntry where
  core : Option CoreId
  what : WaitWhat
  deriving DecidableEq, Repr

/-! ### Cores -/

/-- An ordered REDSP contribution held at a barrier (R159). -/
structure Contribution where
  sent : Nat
  rank : Nat
  order : Nat
  op : Nat
  ord : Bool
  etype : EType
  off : Nat
  data : Vec
  deriving DecidableEq, Repr

/-- A named barrier (R294). -/
structure NBar where
  count : BitVec 16 := 0
  arrivals : BitVec 16 := 0
  phase : BitVec 32 := 0
  held : List Contribution := []
  /-- The cycle of the last arrival and its place in the order L, X, S, REDSP of one cycle (R295). -/
  seen : Option (Nat × Nat) := none
  deriving DecidableEq, Repr

/-- A cached translation (R222): a leaf or a pointer, by the context, the level and the address range it maps. -/
structure TlbEntry where
  ctx : CtxId
  level : Nat
  base : Nat
  entry : BitVec 128
  /-- Where the entry stands in physical memory. -/
  at_ : Nat
  deriving DecidableEq, Repr

/-- What enters a shadow bank by a swap (R96, R242): a task, a continuation or an image, by its slot. -/
inductive Enters
  | start (q : QTask)
  | slot (x : CtxId) (n : Nat)
  | image (x : CtxId) (n : Nat)
  deriving DecidableEq, Repr

/-- Where a core stands in a swap (R96, R99). -/
inductive Swap
  | none
  | toShadow (due : Nat) (e : Enters)
  | urgent
  | toActive (due : Nat)
  deriving DecidableEq, Repr

/-- The work queues of a core (R245). -/
structure WorkQueues where
  tile : List QTask := []
  engine : List QTask := []
  ready : List Ready := []
  deriving DecidableEq, Repr

/-- A byte of a scratchpad that a write has replaced on this cycle (R194, R342): the stream that wrote it, none for an engine
or a delivery, the number of the free value that says whether a racing reader still sees it, the size of the write's units, and
the byte. -/
structure Race where
  by_ : Option Agent
  free : Nat
  unit : Nat
  cell : Host.Cell
  deriving DecidableEq, Repr

/-- A compute core (R2, R82, R100, R167, R222, R245, R293). -/
structure Core where
  active : Bank := {}
  shadow : Bank := {}
  aAux : BankAux := {}
  sAux : BankAux := {}
  spad : Mem := []
  acc : Mem := []
  badSpad : List Nat := []
  badAcc : List Nat := []
  /-- MODEL: the scratchpad bytes that writes have replaced on this cycle, the newest first. -/
  racing : List Race := []
  nb : Vector NBar 32 := Vector.replicate 32 {}
  work : WorkQueues := {}
  urgen : Bool := false
  /-- ACCRES (R98, R100). No step of the model writes it (DESIGN CHOICE, assumption 67). -/
  accres : BitVec 13 := 0x828
  swap : Swap := .none
  tlb : List TlbEntry := []
  deriving DecidableEq, Repr

/-- What a core holds for the dispatcher: the context that last owned its scratchpad, tiles and barriers with that
context's opening count (R167, R234), the cadence of the fret row and the cap it has taken (R20, R314), the fence
(R378), and dispatch decisions taken (R246). -/
structure CoreCtl where
  owner : Option (CtxId × Nat) := none
  /-- The same for the reserved resources (R98, R237). -/
  sOwner : Option (CtxId × Nat) := none
  cap : Nat := 8
  /-- The cadence that the task of the running bank asks for, as it stood at the last group boundary (R20). -/
  cadence : Nat := 8
  fenced : Bool := false
  deriving DecidableEq, Repr

/-! ### Memory system (R188 to R193, R217, R218) -/

/-- What a write comes from: its context, kernel and node (R225, R268, R276), the operation of a die's copy, migrator or
collective engine, whether an engine's iteration made it (R19, R326), and the number of its source agent (R345). -/
structure Origin where
  ctx : Option CtxId := none
  kinst : Word := 0
  node : Nat := 0
  op : Option Nat := none
  eng : Bool := false
  agent : Nat := 0
  deriving DecidableEq, Repr

/-- A write on its way through the module (R190, R191): its source die, its stamp (none for an atomic), its bytes, the dies
whose view holds it, and the dies that its packet has reached or need not reach (R349). `task` is the handle of the task
that issued an atomic. `after` names writes that R196 puts before this one, each with the dies at which it does. -/
structure Write where
  id : Nat
  src : DieId
  stamp : Option (Vector Nat 16)
  cells : List Host.Cell
  applied : List DieId
  reached : List DieId := []
  origin : Origin := {}
  task : Option Word := none
  after : List (Nat × List DieId) := []
  deriving DecidableEq, Repr

/-- The atomic operations (R205). -/
inductive AOp | add | fadd | min | max | and | or | xor | swp | cas | incw
  deriving DecidableEq, Repr

/-- The three result forms of an atomic (R204). -/
inductive AForm
  | reg | posted | queue (k : Fin 4)
  deriving DecidableEq, Repr

/-- A faulted posted atomic that KRETRY has a second time performed (R204): it is to be translated again, or to be
performed. -/
inductive Redo | no | translate | perform
  deriving DecidableEq, Repr

/-- An atomic request on an atomic path (R193, R204): `arrived` at its home; with its result and the number of its write, or
with the fault found there, which is `back` at the issuer's die (R349) and, `faulted`, taken by the issuer. -/
structure AtomicReq where
  id : Nat
  agent : Agent
  ctx : CtxId
  form : AForm
  op : AOp
  etype : EType
  va : Word
  pa : Nat
  home : DieId
  b : Word
  c : Word
  order : Order := .rlx
  scope : Scope := .core
  mask : Word := 0
  num : Word := 0
  arrived : Bool := false
  result : Option Word := none
  wrote : Nat := 0
  fault : Option FaultInfo := none
  back : Bool := false
  faulted : Bool := false
  redo : Redo := .no
  kinst : Word := 0
  node : Nat := 0
  task : Word := 0
  after : List (Nat × List DieId) := []
  deriving DecidableEq, Repr

/-- A WAITADDR's line in the view of its die (R208): the bytes' keys, and whether a write to one of them has entered the
view since the word read. -/
structure LineWatch where
  agent : Agent
  die : DieId
  keys : List Nat
  hit : Bool := false
  deriving DecidableEq, Repr

/-- What the target of a delivery answers (R157, R292): it is made, refused, or to be sent again. -/
inductive SendAnswer
  | done | fault (f : FaultInfo) | recall
  deriving DecidableEq, Repr

/-- A SENDH or REDSP payload on its way (R157 to R160): the die at which it has arrived, and the answer on its way back. -/
structure SendReq where
  id : Nat
  agent : Agent
  task : Task
  target : CoreId
  off : Nat
  data : Vec
  /-- none: SENDH to the handler address; some (barrier, op, ord, etype): REDSP. -/
  red : Option (Nat × Nat × Bool × EType)
  h : Word
  at_ : Option DieId := none
  answer : Option SendAnswer := none
  deriving DecidableEq, Repr

/-- A group barrier arrival on its way to the dispatcher (R297), and its answer on the way back: counted, or a fault. -/
structure GbReq where
  id : Nat
  agent : Agent
  g : Fin 64
  task : Task
  arrived : Bool := false
  answer : Option (Option FaultInfo) := none
  deriving DecidableEq, Repr

/-- Who ordered a page move, and what its status answers (R217, R228, R235). -/
inductive MoveBy
  | access | migr (d : DieId) (op : Nat) (idx : Nat) | capo | host | wsload (x : CtxId) (idx : Nat)
  deriving DecidableEq, Repr

/-- A page move in progress (R218), or a repair (R219). -/
structure Move where
  id : Nat
  by_ : MoveBy
  ctx : CtxId
  va : Nat
  at_ : Nat
  /-- The entry as the migrator left it at step 1 of R218, apart from PIN. -/
  entry : BitVec 128
  /-- The entry's fields at commit: TIER, HSH, HOME, FRAME, OWN. -/
  tier : Nat
  hsh : Bool
  home : Nat
  frame : BitVec 28
  own : Bool
  repair : Bool := false
  since : Nat := 0
  deriving DecidableEq, Repr

/-- Free frames of one tier and die, as a range (R216): MODEL form of the free pool. -/
structure FrameRange where
  tier : Nat
  home : DieId
  first : Nat
  count : Nat
  deriving DecidableEq, Repr

/-- A contribution to a step of a communicator on its way to another rank (R354, R358): its number, the communicator by its
ranks, the step, and the number of the rank that it is for. -/
structure Contrib where
  id : Nat
  ranks : List (BitVec 16 × CtxId × Nat)
  step : Nat
  rank : Nat
  deriving DecidableEq, Repr

/-- The module's memory (R188): `mem` holds what every view holds, `writes` the writes placed in coherence order that
some view has not applied, oldest first, `unplaced` the writes that have not reached the home, oldest first. -/
structure MemSys where
  mem : Mem := []
  writes : List Write := []
  unplaced : List Write := []
  atomics : List AtomicReq := []
  watches : List LineWatch := []
  sends : List SendReq := []
  gbars : List GbReq := []
  contribs : List Contrib := []
  moves : List Move := []
  free : List FrameRange := []
  owners : List (Nat × CtxId) := []
  withdrawn : List Nat := []
  /-- Frames that an uncorrectable error has struck: a walk that reads one as a table page fails (R222, R376). -/
  badTables : List Nat := []
  /-- Frames that hold an uncorrectable error which no access has met yet (R137, R376). -/
  latent : List Nat := []
  deriving DecidableEq, Repr

/-! ### Dies and their engines (R21 to R25, R225, R362, R380) -/

/-- The states of R22; `ungating` is the time between the order to ungate and its completion (R16). -/
inductive DieSt | absent | up | gated | ungating | resetting
  deriving DecidableEq, Repr

/-- A copy operation (R226, R227). -/
structure CopyOp where
  id : Nat
  num : Word
  agent : Agent
  task : Word
  ctx : CtxId
  kinst : Word
  node : Nat := 0
  dst : Word
  src : Word
  len : Nat
  /-- CPYH: the handle, the byte offset in its range and the direction (true: device to host). -/
  host : Option (BitVec 12 × Nat × Bool) := none
  done : Nat := 0
  piece : Nat := 0
  faulted : Bool := false
  discarded : Bool := false
  deriving DecidableEq, Repr

/-- A copy context (R225). -/
structure CopyCtx where
  holder : Option CtxId := none
  count : Word := 0
  issued : Word := 0
  ops : List CopyOp := []
  deriving DecidableEq, Repr

/-- A migrator operation (R228). -/
structure MigOp where
  id : Nat
  num : Word
  agent : Agent
  task : Word
  ctx : CtxId
  kinst : Word := 0
  node : Nat := 0
  zero : Bool
  first : Nat
  count : Nat
  status : Word
  tier : Nat
  hsh : Bool
  home : Nat
  next : Nat := 0
  waiting : Bool := false
  discarded : Bool := false
  /-- The Capo's own operation: the eviction of a page (R217). -/
  capo : Bool := false
  /-- The Capo's own operation: the context's WSLOAD that runs (R235). -/
  ws : Bool := false
  deriving DecidableEq, Repr

/-- A collective or digest operation (R360, R361). -/
structure CollOp where
  id : Nat
  num : Word
  agent : Agent
  task : Word
  ctx : CtxId
  kinst : Word
  node : Nat := 0
  /-- 0 all-reduce, 1 all-gather, 2 reduce-scatter, 3 DIGEST.x, 4 DIGEST. -/
  op : Nat
  etype : EType
  s : Word
  d : Word
  n : Nat
  red : Nat
  handle : BitVec 8
  step : Nat
  /-- What this rank has read and given (R360), and why the step can have no end any more, if it cannot (R352, R362). -/
  own : Option (List Byte) := none
  lost : Option FaultInfo := none
  /-- What the operation writes, once its step is done, and how many pieces of it are written. -/
  result : Option (List Byte) := none
  piece : Nat := 0
  faulted : Bool := false
  discarded : Bool := false
  /-- Is it discarded by cancellation or shed, so that the other ranks take an abort (R362)? -/
  aborts : Bool := false
  finished : Bool := false
  deriving DecidableEq, Repr

/-- A violation record (R380). -/
structure Violation where
  seq : Nat
  srcDie : Nat
  srcCore : Nat
  ctx : Nat
  kind : Nat
  paddr : Nat
  cycle : Word
  deriving DecidableEq, Repr

/-- A die (R21 to R24, R188, R222, R225, R362, R380). -/
structure Die where
  st : DieSt := .absent
  inc : BitVec 8 := 0
  known : Vector (BitVec 8) 10 := Vector.replicate 10 0
  stale : BitVec 32 := 0
  cycle : Word := 0
  clock : Vector Nat 16 := Vector.replicate 16 0
  tlb : List TlbEntry := []
  cp : Vector CopyCtx 8 := Vector.replicate 8 {}
  mg : Word := 0
  mgIssued : Word := 0
  mgOps : List MigOp := []
  co : Word := 0
  coIssued : Word := 0
  coOps : List CollOp := []
  viol : List Violation := []
  /-- Packets that wait to leave the die: its own, and those of other dies that it forwards, oldest first (R11). -/
  outbox : List Payload := []
  deriving DecidableEq, Repr

/-! ### Links (R344 to R353, R367) -/

/-- The states of R351. -/
inductive LinkSt | reset | training | up | degraded | narrow | down
  deriving DecidableEq, Repr

/-- A link module or port: its sender, its receiver, its marks and its status counters. -/
structure Link where
  st : LinkSt := .reset
  txNext : BitVec 16 := 0
  buffer : List Flit := []
  /-- The flits that it has sent and that the other end has not taken in, oldest first. -/
  wire : List Flit := []
  /-- The SEQs of the flits still to be replayed, in order (R348). -/
  replay : List (BitVec 16) := []
  rxNext : BitVec 16 := 0
  nakOut : Bool := false
  /-- The outstanding NAK has still to be sent (R347), and the ACK of the last flit sent (R346). -/
  nakDue : Bool := false
  ackSent : BitVec 16 := 0xFFFF
  /-- The cycle and the age at which an ACK last advanced or the buffer ceased to be empty, and the cycle of the last
  timed replay. -/
  lastAck : Nat := 0
  ackAge : Nat := 0
  lastReplay : Nat := 0
  /-- Charges of group 0 and group 1, by period (R350), and the flits that have failed and not yet been accepted, each with
  the groups whose bytes differed. -/
  charges : List (Bool × Nat) := []
  failed : List (BitVec 16 × List Bool) := []
  failCount : Nat := 0
  mark0 : Bool := false
  mark1 : Bool := false
  /-- The group in use when NARROW: false 0, true 1. -/
  group : Bool := false
  counters : Vector (BitVec 32) 5 := Vector.replicate 5 0
  deriving DecidableEq, Repr

/-! ### Contexts (R231 to R244) -/

/-- The states of R233. -/
inductive CtxSt | free | loading | ready | running | parked | quiesced | faulted | lost
  deriving DecidableEq, Repr

/-- A buffer handle (R221). -/
structure Handle where
  n : BitVec 12
  base : Nat
  len : Nat
  pasid : BitVec 20
  rd : Bool
  wr : Bool
  dev : Nat
  deriving DecidableEq, Repr

/-- A communicator (R355, R391). -/
structure Comm where
  handle : BitVec 8
  p : Nat
  rank : Nat
  ranks : List (BitVec 16 × CtxId × Nat)
  groups : List Nat
  steps : Nat := 0
  /-- Steps that have failed at another rank before this one has issued its operation (R362). -/
  failed : List (Nat × FaultInfo) := []
  deriving DecidableEq, Repr

/-- A group barrier (R297): OWNER is the kernel and node it is bound to. -/
structure GBar where
  phase : BitVec 32 := 0
  arrivals : Nat := 0
  owner : Option (Word × Nat) := none
  deriving DecidableEq, Repr

/-- A park image (R239 to R243). -/
structure ParkImg where
  slot : Nat
  shadow : Bool
  core : CoreId
  bank : Bank
  aux : BankAux
  acc : Mem
  spad : Mem
  badAcc : List Nat
  badSpad : List Nat
  nb : List NBar
  pseq : Word
  viewV : List Word
  last : List Word
  gang : Bool := false
  /-- A lost image of a gang group whose task starts afresh (R244, R291). -/
  fresh : Bool := false
  /-- An uncorrectable error has struck its slot (R244). -/
  bad : Bool := false
  deriving DecidableEq, Repr

/-- A forwarding entry (R292): the COREID at park, the task by its key, its node instance, and where it runs now. -/
structure Forward where
  core : CoreId
  task : Word
  kinst : Word
  node : Nat
  to_ : Option CoreId
  deriving DecidableEq, Repr

/-- A WSLOAD held or running (R235), with the ring record that ordered it. -/
structure WsLoad where
  first : Nat
  count : Nat
  home : Nat
  status : Word
  ring : Fin 16
  seq : BitVec 32
  statva : Word
  irq : Bool
  running : Bool := false
  next : Nat := 0
  /-- CTXQUIESCE has ended it: the page in progress is its last (R233). -/
  cancelled : Bool := false
  deriving DecidableEq, Repr

/-- A context (R231, R233, R265, R373, R390). -/
structure Ctx where
  st : CtxSt := .free
  attr : BitVec 8 := 0
  touched : BitVec 10 := 0
  owner : BitVec 32 := 0
  root : Word := 0
  evlog : Word := 0
  evseq : Word := 0
  park : Word := 0
  krun : Nat := 0
  energy : Nat := 0
  fvec : Nat := 0
  deriving DecidableEq, Repr

/-- What the device keeps for a context outside its record. -/
structure CtxAux where
  /-- How often the context has been opened: a reused number counts as another context (R234). -/
  epoch : Nat := 0
  serial : Nat := 0
  /-- Retired kernels, newest first: status, and whether the trigger had fired (R265, R267). -/
  retired : List (Word × Code × Bool) := []
  /-- The records of the banks and images that are frozen, the first one first, by the handle of the task. -/
  frozen : List (Word × FaultInfo) := []
  /-- R373: the record kept since the context entered FAULTED or LOST, and the banks frozen by then and since. -/
  kept : Option FaultInfo := none
  frozenN : Nat := 0
  handles : List Handle := []
  comms : List Comm := []
  gb : Vector GBar 64 := Vector.replicate 64 {}
  conts : List Cont := []
  images : List ParkImg := []
  fwd : List Forward := []
  ws : List WsLoad := []
  dbgHold : Bool := false
  /-- A CTXQUIESCE whose completion waits (R233): ring, SEQ, status address, interrupt. -/
  quiesce : Option (Fin 16 × BitVec 32 × Word × Bool) := none
  deriving DecidableEq, Repr

/-! ### Kernels (R260 to R285) -/

/-- A fret row (R262). -/
structure Row where
  entry : Word
  view : Word
  energy : Nat
  tiles : Nat
  cadence : Nat
  cls : Nat
  cycles : Nat
  deriving DecidableEq, Repr

/-- A node record (R261). -/
structure Node where
  deadline : Nat
  eclass : Fin 4
  prio : Fin 4
  gang : Bool
  affinity : BitVec 16
  handler : Word
  rows : List Row
  deriving DecidableEq, Repr

/-- States of a node instance (R268, R247). -/
inductive NodeSt | waiting | open_ | frozen | closed
  deriving DecidableEq, Repr

/-- LASTG and ARRIVEDG of a rank at a group barrier (R297). -/
structure RankRec where
  g : Fin 64
  rank : Nat
  last : BitVec 32
  deriving DecidableEq, Repr

/-- States of a gang group (R289). -/
inductive GangSt
  | none | pending (since : Nat) | reserving (since : Nat) (cores : List CoreId) | placed
  deriving DecidableEq, Repr

/-- A node instance (R268): its row and group, its spawn pool, and what R247, R273, R275 and R297 need of it. -/
structure NodeInst where
  st : NodeSt := .waiting
  row : Nat := 0
  g : Nat := 0
  pool : List QTask := []
  spawned : Nat := 0
  started : Nat := 0
  ranks : List RankRec := []
  gang : GangSt := .none
  /-- The moment it became OPEN, by the dispatcher's count (R289). -/
  opened : Nat := 0
  token : Bool := false
  retired : Option Bool := none
  trig : List Nat := []
  deriving DecidableEq, Repr

/-- States of a kernel instance (R266). -/
inductive KernSt | held | admitted | triggered | retired
  deriving DecidableEq, Repr

/-- The graph image as read at admission (R260 to R262). -/
structure Graph where
  nodes : List Node := []
  edges : List (Nat × Nat) := []
  sink : Nat := 0
  tmode : Nat := 0
  trace : Word := 0
  tcap : Nat := 0
  deriving DecidableEq, Repr

/-- The counts of the completion record (R276). -/
structure KernStats where
  misses : Nat := 0
  energy : Nat := 0
  tasks : Nat := 0
  parks : Nat := 0
  sheds : Nat := 0
  faults : Nat := 0
  traceN : Nat := 0
  nodesOk : Nat := 0
  detbreak : Bool := false
  truncated : Bool := false
  unbound : Bool := false
  cancelled : Bool := false
  shedHit : Bool := false
  lost : Option Code := none
  deriving DecidableEq, Repr

/-- A kernel instance (R265, R266): its launch record, its image, its deadline counter in twelfths of an F0 cycle. -/
structure Kernel where
  kinst : Word
  ctx : CtxId
  st : KernSt := .held
  image : Word
  argp : Word
  seed : Word
  cpl : Word
  after : Word
  cvec : Nat
  noirq : Bool := false
  /-- The host record that launched it: ring, SEQ, status address, interrupt; none for KLAUNCH. -/
  ring : Option (Fin 16 × BitVec 32 × Word × Bool) := none
  graph : Graph := {}
  insts : List NodeInst := []
  /-- The SEQs of the trace records that a replay has consumed (R278). -/
  replayed : List Nat := []
  /-- Every node has retired: the status with which the kernel retires once its writes are performed (R276). -/
  ending : Option Code := none
  counter : Nat := 0
  stats : KernStats := {}
  deriving DecidableEq, Repr

/-- A host command ring register entry (R257, R388). TAIL as the dispatcher last read it is `tail`. -/
structure HostRing where
  rb : Word := 0
  n : Nat := 0
  allow : Word := 0
  /-- 0 DISABLED, 1 ACTIVE, 2 STOPPED. -/
  st : Nat := 0
  /-- A start that waits for the records already read to take effect (R388). -/
  starting : Bool := false
  headset : BitVec 32 := 0
  head : BitVec 32 := 0
  tail : BitVec 32 := 0
  fullcnt : BitVec 32 := 0
  deriving DecidableEq, Repr

/-- The dispatcher on bridge die 8. -/
structure Dispatcher where
  rings : Vector HostRing 16 := Vector.replicate 16 {}
  kerns : List Kernel := []
  nextHandle : Nat := 1
  order : Nat := 0
  waits : List WaitEntry := []
  /-- MSI-X vectors raised, newest first. -/
  msix : List Nat := []
  linkDown : Bool := false
  deriving DecidableEq, Repr

/-! ### Budget, calendar and boot (R304 to R330, R381 to R391) -/

/-- A point of a curve (R304). -/
structure Point where
  time : Nat
  power : Nat
  grade : Nat
  deriving DecidableEq, Repr

/-- A curve record, less its signatures (R304). -/
structure Curve where
  maxGrade : Nat
  seq : Nat
  start : Nat
  end_ : Nat
  points : List Point
  deriving DecidableEq, Repr

/-- A period (R308 to R310): its energy in nJ, its duration in 36ths of a nanosecond, P and B at its start in mW, the
integral of P over it, what exempts a window that holds it, whether a core had no task to take in it, the kernels that ran in
each bank, and the bytes that each die served for each context (R319). -/
structure Measured where
  energy : Nat := 0
  time : Nat := 0
  power : Rat := 0
  band : Rat := 0
  target : Rat := 0
  step : Bool := false
  response : Bool := false
  extended : Bool := false
  e0 : Bool := false
  idle : Bool := false
  ran : List (CoreId × BankId × CtxId × Word) := []
  bytes : List ((DieId × CtxId) × Nat) := []
  deriving DecidableEq, Repr

/-- A budget log record (R321). -/
structure BudgetRec where
  seq : Nat
  kind : Nat
  new : Nat
  old : Nat
  time : Nat
  value : Int
  deriving DecidableEq, Repr

/-- The Capo's budget state. -/
structure Budget where
  current : Option Curve := none
  pending : Option Curve := none
  /-- The highest SEQ of a curve accepted since provisioning, if one has been (R306). -/
  topSeq : Option Nat := none
  pfloor : Nat := 3000000
  gfloor : Nat := 0
  /-- The automatic state: 0 none, 1 to 4 the rungs, 5 park (R312). -/
  auto : Nat := 0
  lastMove : Nat := 0
  grade : Nat := 0
  rung : Nat := 0
  /-- The boundary, as a period number, at which the grade or rung in force began. -/
  changedAt : Nat := 0
  /-- The period in progress, the closed periods that no sweep has measured, and the measured ones, newest first. -/
  cur : Measured := { power := 3000000, band := 60000 }
  closed : List Measured := []
  window : List Measured := []
  /-- E of R309 as it stood at the last boundary, and the age up to which the target of `cur` is summed. -/
  error : Rat := 0
  mark : Nat := 0
  /-- The age at the last downward step of the curve value (R310). -/
  stepAge : Option Nat := none
  total : Nat := 0
  unattributed : Nat := 0
  log : List BudgetRec := []
  deriving DecidableEq, Repr

/-- The calendar and the clock (R18, R322 to R329). `cycle` counts package cycles from the start of period 0. -/
structure Calendar where
  cycle : Nat := 0
  level : Fin 4 := 3
  /-- Scheduled level changes: the level and the period whose slot makes it. -/
  nextLevel : List (Fin 4 × Nat) := []
  /-- Cycles of the level change still to run: no word commits (R19). -/
  relock : Nat := 0
  /-- An announced extended slot not yet begun, and the one in progress or last begun, by first period (R325). -/
  extNext : Option Nat := none
  extLast : Option Nat := none
  /-- The last period whose boundary has been marked; one more than the last period of which the drain window, the level
  change, the refresh and the sweep have been, and than the first period of the last slot whose end has been. -/
  boundary : Nat := 0
  drain : Nat := 0
  levelDone : Nat := 0
  refreshed : Nat := 0
  swept : Nat := 0
  slotEnd : Nat := 0
  retrained : Nat := 0
  /-- Time since boot in 36ths of a nanosecond, for bounds that the spec gives in time. -/
  age : Nat := 0
  /-- Facility time in 36ths of a nanosecond, if the Capo has it (R307). -/
  time : Option Nat := none
  deriving DecidableEq, Repr

/-- Housekeeping not yet done (R323, R329, R377): structures whose self-test is due, with the cycle of the record, those
tested in a slot, by its first period, overruns by number, structures with a lasting error, the count of corrected errors, and
spare rows used. -/
structure Care where
  tests : List (Structure × Nat) := []
  tested : List (Structure × Nat) := []
  overruns : List (Nat × Structure) := []
  lasting : List Structure := []
  corrected : Nat := 0
  spares : Nat := 0
  deriving DecidableEq, Repr

/-- Mailbox control (R389). -/
structure Mailbox where
  len : BitVec 32 := 0
  busy : Bool := false
  status : Nat := 0
  arg : Word := 0
  buf : List Byte := []
  deriving DecidableEq, Repr

/-- Boot, identity and the host-visible registers (R381 to R391). -/
structure Boot where
  /-- 0 BOOTING, 1 READY, 2 FAILED. -/
  stat : Nat := 0
  step : Nat := 1
  cause : Nat := 0
  resetCause : Nat := 0
  itable : Vector DieId 64 := Vector.replicate 64 0
  /-- The module's fabric node ID (R354). -/
  node : BitVec 16 := 0
  present : BitVec 10 := 0
  forward : BitVec 10 := 0
  tests : Vector (BitVec 8) 10 := Vector.replicate 10 0
  leaf : Nat := 0
  minSvn : Nat := 0
  /-- The slot of the boot flash whose image runs (R381), and how many boots there have been. -/
  slot : Nat := 0
  boots : Nat := 0
  curve : Mailbox := {}
  attest : Mailbox := {}
  comm : Mailbox := {}
  report : List Byte := []
  /-- What the host's last CXL.mem read returned; none for a poisoned response (R365, R379). -/
  hostRead : Option (List Byte) := some []
  /-- R384: MODEL, the Capo of bridge die 8 sends no heartbeat; the heartbeats missed in a row; one more than the last
  period of a heartbeat. -/
  silent : Bool := false
  /-- R384: the standby Capo on bridge die 9 has verified the image on its own. -/
  standby : Bool := false
  missed : Nat := 0
  beat : Nat := 0
  deriving DecidableEq, Repr

/-! ### The machine -/

/-- Who moves next: MODEL. A word of a stream, an event, the clock, or an input from outside the module that no instruction
or event of the opcode table stands for: the loader binds a handle (R221), the host stores to its own memory (R200), a
curve record comes over the management path (R305), the floor curve is provisioned (R307), the Capo of bridge die 8 falls
silent or speaks again (R384), the host assigns the module's node ID (R354), a frame takes an uncorrectable error that no access has met yet (R376). -/
inductive Turn
  | word (g : Agent)
  | event (i : Instr)
  | tick
  | bind (x : CtxId) (h : Handle)
  | host (cells : List Host.Cell)
  | curve (record : List Byte)
  | floor (power grade : Nat)
  | silent (yes : Bool)
  | node (id : BitVec 16)
  | strike (frame : BitVec 28)
  deriving DecidableEq, Repr

/-- The state of the Q80. -/
structure State where
  cores : Vector Core 128
  ctl : Vector CoreCtl 128
  dies : Vector Die 10
  dlinks : Vector Link 80
  fabs : Vector Link 12
  ctxs : Vector Ctx 64
  caux : Vector CtxAux 64
  ms : MemSys
  disp : Dispatcher
  bud : Budget
  cal : Calendar
  care : Care
  boot : Boot
  /-- MODEL: the stream whose word is being evaluated (exec reads it). -/
  cur : Agent
  /-- MODEL: the turns to come, before the model's own rotation. -/
  agenda : List Turn
  /-- MODEL: the agent, by number, at which the rotation stands in this cycle. -/
  turn : Nat
  /-- MODEL: the next number for a request in flight. -/
  nextId : Nat
  /-- MODEL: the number of the next free value (Config). -/
  fresh : Nat
  deriving DecidableEq, Repr

/-- The machine right after module reset (R381): the Capo runs the boot ROM, no die has passed its self-test, no
context is open, no task runs. Registers whose reset value the spec does not give are zero (assumption 2). -/
def State.reset : State where
  cores := Vector.replicate 128 {}
  ctl := Vector.replicate 128 {}
  dies := Vector.replicate 10 {}
  dlinks := Vector.replicate 80 {}
  fabs := Vector.replicate 12 {}
  ctxs := Vector.replicate 64 {}
  caux := Vector.replicate 64 {}
  ms := {}
  disp := {}
  bud := {}
  cal := {}
  care := {}
  boot := {}
  cur := { core := 0, bank := .active, stream := .l }
  agenda := []
  turn := 0
  nextId := 0
  fresh := 0

end Sys2Proof.Machine
end

