-- ==== Sys2Proof/Machine/Bits.lean ====
section
/-! DEFINITION. Bit fields, sign extension and byte order (R4): the helpers every other file reads bits with. -/

namespace Sys2Proof.Machine

/-- Bits [hi:lo] of a word, as a number. -/
def bits {n : Nat} (w : BitVec n) (hi lo : Nat) : Nat := (w.toNat >>> lo) % 2 ^ (hi + 1 - lo)

/-- Bit i of a word. -/
def bit {n : Nat} (w : BitVec n) (i : Nat) : Bool := w.getLsbD i

/-- The w low bits of a value, sign-extended to 64 bits. -/
def sext64 (w : Nat) (v : Nat) : Word :=
  BitVec.ofInt 64 (if v % 2 ^ w < 2 ^ (w - 1) then (v % 2 ^ w : Nat) else (v % 2 ^ w : Nat) - (2 ^ w : Nat))

/-- The w low bits of a value, zero-extended to 64 bits. -/
def zext64 (w : Nat) (v : Nat) : Word := BitVec.ofNat 64 (v % 2 ^ w)

/-- The w low bits of a value as a signed integer. -/
def toSigned (w : Nat) (v : Nat) : Int :=
  if v % 2 ^ w < 2 ^ (w - 1) then (v % 2 ^ w : Nat) else (v % 2 ^ w : Nat) - (2 ^ w : Nat)

/-- An integer modulo 2^w, as a number below 2^w. -/
def ofSigned (w : Nat) (v : Int) : Nat := (v % (2 ^ w : Nat)).toNat

/-- The n bytes of a number, least significant first (R4). -/
def toBytes : Nat → Nat → List Byte
  | 0, _ => []
  | n + 1, v => BitVec.ofNat 8 v :: toBytes n (v / 256)

/-- The number that bytes hold, least significant first (R4). -/
def ofBytes : List Byte → Nat
  | [] => 0
  | b :: bs => b.toNat + 256 * ofBytes bs

/-- The 256 bytes of a vector or queue entry. -/
def vecBytes (v : Vec) : List Byte := toBytes 256 v.toNat

/-- A vector from its bytes; missing bytes are zero. -/
def bytesVec (bs : List Byte) : Vec := BitVec.ofNat 2048 (ofBytes bs)

/-- The element of width w at index i of a vector (R111). -/
def elemAt (v : Vec) (w i : Nat) : Nat := (v.toNat >>> (w * i)) % 2 ^ w

/-- A vector from its elements of width w, element 0 first; what lies above 2,048 bits is lost. -/
def ofElems (w : Nat) : List Nat → Nat
  | [] => 0
  | e :: es => e % 2 ^ w + 2 ^ w * ofElems w es

/-- A vector from elements of width w (R111). -/
def vecOf (w : Nat) (es : List Nat) : Vec := BitVec.ofNat 2048 (ofElems w es)

/-- The first n numbers. -/
def upTo (n : Nat) : List Nat := List.range n

/-- The smallest number of units of size u that hold n. -/
def ceilDiv (n u : Nat) : Nat := (n + u - 1) / u

end Sys2Proof.Machine
end

