-- ==== Sys2Proof/Machine/Forms.lean ====
section
/-! DEFINITION. Which words are legal: the ILLOP rules of R9, R32, R35, R37, R38, R40, R42 to R44, R48, R93, R101 and of
each form's own description, as one table row per form. -/

namespace Sys2Proof.Machine

/-- The width in bits of an element type (R8, R111), e3m2 counted as 8. -/
def EType.width : EType → Nat
  | .s8 | .n8 | .e4m3 | .e5m2 | .e3m2 => 8
  | .s16 | .n16 | .bf16 | .f16 => 16
  | .s32 | .n32 | .f32 | .b32 => 32
  | .s64 | .n64 => 64
  | .s4 | .n4 | .e2m1 | .nq4 => 4

/-- Is it a signed integer type (R8)? -/
def EType.signed : EType → Bool
  | .s8 | .s16 | .s32 | .s64 | .s4 => true
  | _ => false

/-- What a destination position takes (R102, R115, and the form's own description). `scalar` is R102's destination,
`register` a destination that its form calls a register (R249, R279, R301), `areg` one of a0 to a31 (R225). -/
inductive DstK | none | scalar | register | areg | vec | mask | queue | ring | nb
  deriving DecidableEq, Repr

/-- What a source position takes. `scalar` is R102's source with the 32-bit literal, `scalarNoLit` without it,
`scalarReg` without any literal; `reg k` is a descriptor block of k registers that may not run past a31;
`vecF32` is a vector of f32 elements whatever the form's type (R127, R128); `tl`, `nb`, `ring` the specifiers of R39;
`target` and `field` literals (R104, R114). -/
inductive SrcK
  | none | scalar | scalarNoLit | scalarReg | reg (k : Nat) | vec | vecNoLit | vecF32 | mask
  | queue | queuePop | ring | nb | tl | target | short
  deriving DecidableEq, Repr

/-- One row per form. `modOk` is asked about mod[2:0] in L and S, where mod[3] is .zx (R42), and about the whole of
mod in X and B. An empty `types` means the form takes no type (R43). -/
structure FormSpec where
  streams : List Tag
  dst : DstK := .none
  a : SrcK := .none
  b : SrcK := .none
  c : SrcK := .none
  modOk : Nat → Bool := fun m => m == 0
  types : List EType := []
  scopes : List Scope := [.core]
  orders : List Order := [.rlx]
  extra : WordF → Bool := fun _ => true

/-- The integer types of R117. -/
def intTypes : List EType := [.s8, .s16, .s32, .s64, .n8, .n16, .n32, .n64]
/-- The floating types of R119. -/
def floatTypes : List EType := [.f32, .f16, .bf16]
/-- Every type of R44. -/
def allTypes : List EType :=
  [.s8, .s16, .s32, .s64, .n8, .n16, .n32, .n64, .f32, .bf16, .f16, .e4m3, .e5m2, .e3m2, .e2m1, .s4, .n4, .nq4, .b32]
/-- The types of LD and ST (R139). -/
def ldTypes : List EType := intTypes ++ [.b32]
/-- The types of the strided and gathered forms (R143). -/
def strideTypes : List EType := intTypes ++ [.f32, .bf16, .f16, .e4m3, .e5m2, .b32]
/-- The types of group IT (R205). -/
def itTypes : List EType := [.s32, .n32, .s64, .n64]
/-- The types of the reductions of REDSP and COLL (R159, R360). -/
def redTypes : List EType := [.f32, .s32, .n32, .s64, .n64]
/-- The types of QENC and QDEC (R126). -/
def blockTypes : List EType := [.e4m3, .e5m2, .e3m2, .e2m1, .nq4]
/-- Every scope (R43). -/
def allScopes : List Scope := [.core, .die, .mask, .device, .system]

/-- Can a short literal be an element of this type in X (R42)? s4 and n4 are integer types by R8; they take the low four
bits of the literal (DEDUCED, assumption 60). -/
def shortElemOk (t : EType) : Bool := t ∈ intTypes || t ∈ floatTypes || t == .s4 || t == .n4

/-- R39, R40, R102, R115: may operand `o` stand as a destination of kind `k` in a word of tag `t`? -/
def dstOk (t : Tag) (k : DstK) (o : Operand) : Bool :=
  match k, o with
  | .none, .reg n => n == 0
  | .areg, .reg _ => t != .x
  | .scalar, .reg _ | .register, .reg _ | .vec, .reg _ => true
  | .scalar, .mlc n | .register, .mlc n => t != .x && n.val < 4
  | .mask, .mlc _ => t == .x
  | .scalar, .age n | .register, .age n | .vec, .age n => t == .x && n == 0
  | .scalar, .queue _ p | .vec, .queue _ p | .queue, .queue _ p => !p
  | .register, .queue _ p => t == .x && !p
  | .ring, .ring _ => true
  | .nb, .nb _ => true
  | _, _ => false

/-- R39, R40, R102, R115: may operand `o` stand as a source of kind `k` in a word of tag `t` and type `e`? -/
def srcOk (t : Tag) (e : Option EType) (k : SrcK) (o : Operand) : Bool :=
  match k, o with
  | .none, .reg n => n == 0
  | .reg n, .reg r => r.val + n ≤ 32
  | .scalar, .reg _ | .scalarNoLit, .reg _ | .scalarReg, .reg _ | .vec, .reg _ | .vecNoLit, .reg _ => true
  | .scalar, .mlc n | .scalarNoLit, .mlc n | .scalarReg, .mlc n => t != .x && n.val < 4
  | .mask, .mlc _ => t == .x
  | .scalar, .age _ | .scalarNoLit, .age _ | .scalarReg, .age _ | .vec, .age _ | .vecNoLit, .age _ => t == .x
  | .scalar, .queue _ _ | .scalarNoLit, .queue _ _ | .scalarReg, .queue _ _ | .vec, .queue _ _
  | .vecNoLit, .queue _ _ | .queue, .queue _ _ => true
  | .queuePop, .queue _ p => !p
  | .scalar, .short _ | .scalarNoLit, .short _ | .target, .short _ | .short, .short _ => true
  | .vec, .short _ | .vecNoLit, .short _ => match e with
      | some ty => shortElemOk ty
      | none => true
  | .vecF32, .reg _ | .vecF32, .age _ | .vecF32, .queue _ _ | .vecF32, .short _ | .vecF32, .lit _ => true
  | .scalar, .lit _ | .vec, .lit _ | .target, .lit _ => true
  | .ring, .ring _ => true
  | .nb, .nb _ => true
  | .tl, .tl _ => true
  | _, _ => false

/-- Is the operand the 32-bit literal? -/
def Operand.isLit : Operand → Bool
  | .lit _ => true
  | _ => false

/-- The tokens a word pushes to and pops from one side in total must not pass 8 (R93); `n` counts TKPUSH or TKPOP. -/
def tokensOk (bit : Bool) (n : Nat) : Bool := (if bit then 1 else 0) + n ≤ 8

/-- The rules every L, X, S and B word obeys, whatever its form (R32, R35, R37, R38, R40, R42, R43). -/
def headerLegal (w : WordF) : Bool :=
  w.wait.toNat ≤ 42
  && (w.pidx != 0 || !w.pneg)
  && !(Operand.isLit w.srcA && Operand.isLit w.srcB)
  && (w.tag != .b || (!w.pbl && !w.pbr && !w.pal && !w.par && w.pidx == 0 && !w.pneg))
  && (!w.mfile || (w.tag == .b && w.scope == .mask))
  && !(w.tag == .x && w.scope == .mask)

/-- mod as the form reads it: mod[2:0] in L and S, where mod[3] may be set only beside a 32-bit literal that is an
integer operand (R42). -/
def modLegal (f : FormSpec) (w : WordF) : Bool :=
  match w.tag with
  | .l | .s =>
    f.modOk (w.mod.toNat % 8)
      && (!w.mod.getLsbD 3
          || (Operand.isLit w.srcA && f.a == .scalar) || (Operand.isLit w.srcB && f.b == .scalar))
  | .x | .b => f.modOk w.mod.toNat

/-- Is a word of this form legal? -/
def formLegal (f : FormSpec) (w : WordF) : Bool :=
  let e := if f.types.isEmpty then Option.none else some w.etype
  headerLegal w
    && w.tag ∈ f.streams
    && modLegal f w
    && (if f.types.isEmpty then w.etype == .s8 else w.etype ∈ f.types)
    && w.scope ∈ f.scopes
    && w.order ∈ f.orders
    && dstOk w.tag f.dst w.dst
    && srcOk w.tag e f.a w.srcA
    && srcOk w.tag e f.b w.srcB
    && (if w.scope == .mask then
          (match w.srcC with
           | .reg _ => true
           | _ => false)
        else srcOk w.tag e f.c w.srcC)
    && !Operand.isLit w.srcC
    && f.extra w

/-! ### Special register numbers (R100, R101) -/

/-- The special registers of R100. -/
inductive SReg
  | sid | coreid | bank | ctxid | slipw | urgen | accres | touched | ctxattr
  | fpstat | mstat | srseed | xsrpos | msrpos
  | rank | gsize | fretrow | view | argp | taskh | nodeid | kinst
  deriving DecidableEq, Repr

/-- The register a short literal names (R100). -/
def SReg.ofCode (v : BitVec 8) : Option SReg :=
  match v.toNat with
  | 0x00 => some .sid | 0x01 => some .coreid | 0x02 => some .bank | 0x03 => some .ctxid | 0x04 => some .slipw
  | 0x05 => some .urgen | 0x06 => some .accres | 0x07 => some .touched | 0x08 => some .ctxattr
  | 0x10 => some .fpstat | 0x11 => some .mstat | 0x12 => some .srseed | 0x13 => some .xsrpos | 0x14 => some .msrpos
  | 0x20 => some .rank | 0x21 => some .gsize | 0x22 => some .fretrow | 0x23 => some .view | 0x24 => some .argp
  | 0x25 => some .taskh | 0x26 => some .nodeid | 0x27 => some .kinst
  | _ => none

/-- The number of a register (R100). -/
def SReg.num : SReg → Nat
  | .sid => 0x00 | .coreid => 0x01 | .bank => 0x02 | .ctxid => 0x03 | .slipw => 0x04 | .urgen => 0x05 | .accres => 0x06
  | .touched => 0x07 | .ctxattr => 0x08 | .fpstat => 0x10 | .mstat => 0x11 | .srseed => 0x12 | .xsrpos => 0x13
  | .msrpos => 0x14 | .rank => 0x20 | .gsize => 0x21 | .fretrow => 0x22 | .view => 0x23 | .argp => 0x24 | .taskh => 0x25
  | .nodeid => 0x26 | .kinst => 0x27

/-- X-only registers (R100). -/
def SReg.xOnly : SReg → Bool
  | .fpstat | .mstat | .srseed | .xsrpos | .msrpos => true
  | _ => false

/-- Registers that SETS may write (R100). -/
def SReg.writable : SReg → Bool
  | .slipw | .fpstat | .mstat | .srseed | .xsrpos | .msrpos => true
  | _ => false

/-- R101: the register number of a GETS or SETS is a short literal that names a register of the stream. -/
def sregLegal (w : WordF) : Bool :=
  match w.srcA with
  | .short v =>
    match SReg.ofCode v with
    | some r => w.tag == .x || !SReg.xOnly r
    | none => false
  | _ => false

/-- A short literal in srcA whose value lies in the range (R107, R109, R252). -/
def shortIn (o : Operand) (lo hi : Int) : Bool :=
  match o with
  | .short v => lo ≤ v.toInt && v.toInt ≤ hi
  | _ => false

/-- The number of tokens a TKPUSH or TKPOP names (R107). -/
def shortNat (o : Operand) : Nat :=
  match o with
  | .short v => v.toNat
  | _ => 0

/-! ### The rows -/

/-- L and S. -/
def ls : List Tag := [.l, .s]
/-- L, X and S. -/
def lxs : List Tag := [.l, .x, .s]

/-- R103: two sources. -/
def specBin : FormSpec := { streams := ls, dst := .scalar, a := .scalar, b := .scalar }
/-- R103: two sources and a modifier in a range. -/
def specBinMod (ok : Nat → Bool) : FormSpec := { specBin with modOk := ok }
/-- R103: one source. -/
def specUn : FormSpec := { streams := ls, dst := .scalar, a := .scalar }
/-- R103: three sources. -/
def specTri : FormSpec := { specBin with c := .scalarNoLit }
/-- NOP. -/
def specNop : FormSpec := { streams := lxs }
/-- R104: BR and CALL. -/
def specBr : FormSpec := { streams := lxs, a := .target }
/-- R104: BC. -/
def specBc : FormSpec :=
  { streams := lxs, a := .scalar, b := .target, modOk := fun m => m ≤ 5
    extra := fun w => w.tag != .x }
/-- R104: BC in X. -/
def specBcX : FormSpec := { streams := [.x], a := .mask, b := .target, modOk := fun m => m ≤ 2 }
/-- R104: BRI. -/
def specBri : FormSpec := { streams := lxs, a := .scalarReg }
/-- R105: LOOP.set. -/
def specLoopSet : FormSpec := { streams := lxs, a := .scalar, modOk := fun m => 4 ≤ m && m ≤ 7 }
/-- R105: LOOP and LBRK. -/
def specLoop : FormSpec := { streams := lxs, a := .target, modOk := fun m => m ≤ 3 }
/-- R106: QPUSH. -/
def specQpush : FormSpec := { streams := ls, dst := .queue, a := .scalar, modOk := fun m => m ≤ 7 }
/-- R106: QPOP and QPEEK; srcB is a source only with .try. -/
def specQpop (try_ : Bool) : FormSpec :=
  { streams := ls, dst := .scalar, a := .queuePop, b := if try_ then .scalar else .none
    modOk := fun m => m == if try_ then 1 else 0 }
/-- R106: QLEN. -/
def specQlen : FormSpec := { streams := lxs, dst := .scalar, a := .queuePop }
/-- R107: TKPUSH. -/
def specTkpush : FormSpec :=
  { streams := lxs, a := .short, modOk := fun m => m ≤ 1
    extra := fun w => shortIn w.srcA 1 8
      && tokensOk (if w.mod.getLsbD 0 then w.par else w.pal) (shortNat w.srcA) }
/-- R107: TKPOP. -/
def specTkpop : FormSpec :=
  { streams := lxs, a := .short, modOk := fun m => m ≤ 1
    extra := fun w => shortIn w.srcA 1 8
      && tokensOk (if w.mod.getLsbD 0 then w.pbr else w.pbl) (shortNat w.srcA) }
/-- R108: GETS. -/
def specGets : FormSpec := { streams := lxs, dst := .scalar, a := .short, extra := sregLegal }
/-- R108: SETS. -/
def specSets : FormSpec := { streams := lxs, a := .short, b := .scalar, extra := sregLegal }
/-- R374: TRAP and BRK; srcB names a register exactly when mod[0] is set. -/
def specTrap (given : Bool) : FormSpec :=
  { streams := lxs, a := .target, b := if given then .reg 1 else .none, modOk := fun m => m == if given then 1 else 0 }
/-- R109: CYC. -/
def specCyc : FormSpec := { streams := lxs, dst := .scalar }
/-- R109: PERF. -/
def specPerf : FormSpec := { streams := lxs, dst := .scalar, a := .short, extra := fun w => shortIn w.srcA 0 7 }
/-- R301: BARINIT. -/
def specBarinit : FormSpec := { streams := lxs, dst := .nb, a := .scalar }
/-- R301: BARARR. -/
def specBararr : FormSpec := { streams := lxs, a := .nb, b := .scalar }
/-- R301: BARTRY. -/
def specBartry : FormSpec := { streams := lxs, dst := .register, a := .nb }
/-- R302: GBARARR. -/
def specGbararr : FormSpec := { streams := lxs, a := .scalar }
/-- R302: GBARTRY. -/
def specGbartry : FormSpec := { streams := lxs, dst := .register, a := .scalar }
/-- R303: WAITTL. -/
def specWaittl : FormSpec := { streams := lxs, a := .tl, b := .scalar }
/-- R303: TLGET. -/
def specTlget : FormSpec := { streams := lxs, dst := .register, a := .tl }
/-- R303: SETWT. -/
def specSetwt : FormSpec := { streams := lxs, a := .tl, b := .scalar, modOk := fun m => m ≤ 7 }
/-- R330: TUNEQ. -/
def specTuneq : FormSpec := { streams := lxs, dst := .scalar }
/-- R249: SPAWN. -/
def specSpawn : FormSpec := { streams := lxs, dst := .register, a := .scalar, b := .scalar }
/-- R250: RENQ. -/
def specRenq : FormSpec :=
  { streams := lxs, dst := .scalar, a := .scalar, b := .scalar, c := .reg 1, modOk := fun m => m ≤ 1 }
/-- R280: KLAUNCH. -/
def specKlaunch : FormSpec := { streams := lxs, dst := .register, a := .reg 6 }
/-- R281: KWAIT. -/
def specKwait : FormSpec := { streams := lxs, dst := .register, a := .scalar, modOk := fun m => m ≤ 1 }
/-- R251, R282, R283: QTHAW, KRETRY and KCANCEL, with their mod. -/
def specKtask (m0 : Nat) : FormSpec := { streams := lxs, dst := .register, a := .scalar, modOk := fun m => m == m0 }

/-- R139: LD. -/
def specLd : FormSpec := { streams := [.l], dst := .scalar, a := .scalarNoLit, b := .scalar, types := ldTypes }
/-- R140: raw LDQ. -/
def specLdq : FormSpec :=
  { streams := [.l], dst := .queue, a := .scalarNoLit, b := .scalar, types := allTypes, modOk := fun m => m == 0 || m == 4 }
/-- R141: LDQ.dec. -/
def specLdqDec : FormSpec :=
  { streams := [.l], dst := .queue, a := .scalarNoLit, b := .scalar, types := [.f32], modOk := fun m => m == 1 || m == 3
    extra := fun _ => true }
/-- R143: LDQS. -/
def specLdqs : FormSpec := { streams := [.l], dst := .queue, a := .scalarNoLit, b := .scalar, types := strideTypes }
/-- R144: GATHQ. -/
def specGathq : FormSpec := { streams := [.l], dst := .queue, a := .scalarNoLit, b := .queue, types := strideTypes }
/-- R145, R148: STRM and STRMX with a descriptor of k registers. -/
def specStrm (k : Nat) : FormSpec :=
  { streams := [.l], dst := .queue, a := .reg k, types := allTypes, modOk := fun m => m ≤ 3 }
/-- R150: RFILL. -/
def specRfill : FormSpec := { streams := [.l], dst := .ring, a := .reg 4, modOk := fun m => m ≤ 3 }
/-- R152: RFILLG. -/
def specRfillg : FormSpec := { streams := [.l], dst := .ring, a := .reg 4, b := .queuePop, modOk := fun m => m ≤ 3 }
/-- R155: PREF. -/
def specPref : FormSpec :=
  { streams := [.l], a := .scalarNoLit, b := .scalar, c := .scalarNoLit, modOk := fun m => m ≤ 1 }
/-- R206: LDACQ. -/
def specLdacq : FormSpec := { specLd with scopes := allScopes, orders := [.acq, .sc] }
/-- R208: WAITADDR. -/
def specWaitaddr : FormSpec :=
  { streams := [.l], dst := .scalar, a := .scalarReg, b := .scalar, types := itTypes, modOk := fun m => m ≤ 5
    scopes := allScopes, orders := [.rlx, .acq, .sc] }
/-- R153: RDROP. -/
def specRdrop : FormSpec := { streams := [.l], a := .ring, b := .scalar }
/-- R149: RINIT. -/
def specRinit : FormSpec := { streams := [.l], dst := .ring, a := .reg 2 }

/-- R203: the destination, order and mod of an atomic's result form. -/
def atomicShape (w : WordF) : Bool :=
  let m := w.mod.toNat % 8
  if m == 0 then
    (match w.dst with
     | .reg _ => true
     | .mlc n => n.val < 4
     | _ => false)
  else if m == 1 then w.dst == .reg 0 && (w.order == .rlx || w.order == .rel)
  else (match w.dst with
        | .queue _ p => !p
        | _ => false) && w.order == .rlx

/-- R203, R205: an atomic of the given types. Its destination is checked by `atomicShape`. -/
def specAtomic (ts : List EType) : FormSpec :=
  { streams := [.l], dst := .scalar, a := .scalarReg, b := .scalar, types := ts
    modOk := fun m => m == 0 || m == 1 || 4 ≤ m, scopes := allScopes
    orders := [.rlx, .acq, .rel, .acqrel, .sc], extra := atomicShape }
/-- R205: AFADD takes no .zx (R42). -/
def specAfadd : FormSpec :=
  { specAtomic [.f32] with extra := fun w => atomicShape w && !w.mod.getLsbD 3 }
/-- R205: ACAS reads aN and aN+1 and has no posted form. -/
def specAcas : FormSpec :=
  { specAtomic (itTypes ++ [.b32]) with b := .reg 2, extra := fun w => atomicShape w && w.mod.toNat % 8 != 1 }

/-- R225 to R228: CPY, CPYH, MIGR and PGZERO with a descriptor of k registers. -/
def specCopy (k : Nat) (ok : Nat → Bool) : FormSpec := { streams := [.l], dst := .areg, a := .reg k, modOk := ok }
/-- R229: PIN and UNPIN. -/
def specPin : FormSpec := { streams := [.l], a := .scalarNoLit, b := .scalar }
/-- R360: COLL. -/
def specColl : FormSpec :=
  { streams := [.l], dst := .areg, a := .reg 4, types := redTypes ++ [.b32], modOk := fun m => m ≤ 2
    extra := fun w => (w.mod.toNat % 8 == 1) == (w.etype == .b32) }
/-- R361: DIGEST. -/
def specDigest : FormSpec := specCopy 4 (fun m => m ≤ 1)
/-- R230: TLBINV. -/
def specTlbinv : FormSpec :=
  { streams := [.l], a := .reg 3, modOk := fun m => m ≤ 1, scopes := [.die, .mask, .device] }

/-- R139: ST. -/
def specSt : FormSpec :=
  { streams := [.s], a := .scalarNoLit, b := .scalar, c := .scalarNoLit, types := ldTypes }
/-- R140: raw STQ. -/
def specStq : FormSpec :=
  { streams := [.s], a := .scalarNoLit, b := .scalar, c := .queue, types := allTypes, modOk := fun m => m == 0 || m == 4 }
/-- R142: STQ.enc. -/
def specStqEnc : FormSpec :=
  { streams := [.s], a := .scalarNoLit, b := .scalar, c := .queue, types := [.f32], modOk := fun m => m % 2 == 1 }
/-- R143: STQS. -/
def specStqs : FormSpec :=
  { streams := [.s], a := .scalarNoLit, b := .scalar, c := .queue, types := strideTypes }
/-- R144: SCATQ. -/
def specScatq : FormSpec :=
  { streams := [.s], a := .scalarNoLit, b := .queue, c := .queue, types := strideTypes }
/-- R148: DRN and DRNX. -/
def specDrn (k : Nat) : FormSpec :=
  { streams := [.s], a := .reg k, b := .queuePop, types := allTypes, modOk := fun m => m ≤ 3 }
/-- R154: RDRAIN. -/
def specRdrain : FormSpec := { streams := [.s], a := .ring, b := .reg 3, modOk := fun m => m ≤ 3 }
/-- R159: REDSP. -/
def specRedsp : FormSpec :=
  { streams := [.s], a := .scalar, b := .queue, c := .nb, types := redTypes, modOk := fun m => m % 4 != 3 }
/-- R158: SENDH. -/
def specSendh : FormSpec := { streams := [.s], a := .scalar, b := .scalar, c := .queue }
/-- R207: STREL. -/
def specStrel : FormSpec :=
  { streams := [.s], a := .scalarReg, b := .scalar, types := ldTypes, scopes := allScopes, orders := [.rel, .sc] }
/-- R156: ZERO, CLEAN and INVAL. -/
def specLines : FormSpec := { streams := [.s], a := .scalarNoLit, b := .scalar, c := .scalarNoLit }

/-- X: two vector sources. -/
def specV2 (ts : List EType) : FormSpec := { streams := [.x], dst := .vec, a := .vec, b := .vec, types := ts }
/-- X: one vector source. -/
def specV1 (ts : List EType) : FormSpec := { streams := [.x], dst := .vec, a := .vec, types := ts }
/-- X: three vector sources. -/
def specV3 (ts : List EType) : FormSpec := { specV2 ts with c := .vecNoLit }
/-- A form with other values of mod. -/
def withMod (ok : Nat → Bool) (f : FormSpec) : FormSpec := { f with modOk := ok }
/-- The rounding modes of R119. -/
def rndOk (m : Nat) : Bool := m ≤ 2
/-- R118: VDOT4; its srcC takes a short literal by R118's own rule. -/
def specVdot4 : FormSpec := { specV3 [.s8, .n8] with modOk := fun m => m ≤ 3 }
/-- R123: VCMP and FCMP. -/
def specCmp (ts : List EType) (top : Nat) : FormSpec :=
  { streams := [.x], dst := .mask, a := .vec, b := .vec, types := ts, modOk := fun m => m ≤ top }
/-- R124: mask forms. -/
def specM2 : FormSpec := { streams := [.x], dst := .mask, a := .mask, b := .mask }
/-- R124: MNOT. -/
def specM1 : FormSpec := { streams := [.x], dst := .mask, a := .mask }
/-- R124: MPOPC and MFIRST. -/
def specMcount : FormSpec := { streams := [.x], dst := .vec, a := .mask }
/-- R124: VSEL. -/
def specVsel : FormSpec := { specV2 allTypes with c := .mask }
/-- R124: MSET. -/
def specMset : FormSpec := { streams := [.x], dst := .mask, a := .scalar }

/-- A conversion descriptor's destination type (R125's table), or none where it raises ILLOP. `none` inside the
pair's first part is e8m0, which has no element-type code. -/
inductive CvtDst
  | elem (t : EType)
  | e8m0
  deriving DecidableEq, Repr

/-- R125: the destination type that a descriptor names. -/
def CvtDst.ofCode (v : BitVec 8) : Option CvtDst :=
  match v.toNat with
  | 0x01 => some (.elem .f32) | 0x02 => some (.elem .bf16) | 0x03 => some (.elem .f16) | 0x04 => some (.elem .e4m3)
  | 0x05 => some (.elem .e5m2) | 0x06 => some (.elem .e3m2) | 0x07 => some (.elem .e2m1) | 0x0B => some .e8m0
  | 0x08 => some (.elem .n8) | 0x18 => some (.elem .s8) | 0x28 => some (.elem .n16) | 0x38 => some (.elem .s16)
  | 0x48 => some (.elem .n32) | 0x58 => some (.elem .s32) | 0x68 => some (.elem .n64) | 0x78 => some (.elem .s64)
  | 0x09 => some (.elem .n4) | 0x19 => some (.elem .s4)
  | _ => none

/-- The width of a descriptor's type (R125). -/
def CvtDst.width : CvtDst → Nat
  | .elem t => EType.width t
  | .e8m0 => 8

/-- The descriptor in an operand. -/
def cvtDst (o : Operand) : Option CvtDst :=
  match o with
  | .short v => CvtDst.ofCode v
  | _ => none

/-- R125: CVT's part p lies in 0 to r - 1. -/
def cvtLegal (w : WordF) : Bool :=
  match cvtDst w.srcB with
  | none => false
  | some d =>
    let ws := EType.width w.etype
    let wd := CvtDst.width d
    shortIn w.srcC 0 ((Nat.max ws wd / Nat.min ws wd : Nat) - 1 : Int)

/-- The types CVT reads (R125). -/
def cvtTypes : List EType := allTypes.filter (fun t => t != .nq4 && t != .b32)
/-- R125: CVT. -/
def specCvt : FormSpec :=
  { streams := [.x], dst := .vec, a := .vec, b := .short, c := .short, types := cvtTypes
    modOk := fun m => m < 8 && m % 4 != 3, extra := cvtLegal }
/-- R126: PACK. -/
def specPack : FormSpec :=
  { streams := [.x], dst := .vec, a := .vec, b := .vec, c := .short, types := cvtTypes
    modOk := fun m => m < 8 && m % 4 != 3
    extra := fun w => match cvtDst w.srcC with
      | some d => EType.width w.etype == 2 * CvtDst.width d
      | none => false }
/-- R126: UNPACK. -/
def specUnpack : FormSpec :=
  { streams := [.x], dst := .vec, a := .vec, b := .short, types := cvtTypes, modOk := fun m => m % 4 != 3
    extra := fun w => match cvtDst w.srcB with
      | some d => CvtDst.width d == 2 * EType.width w.etype
      | none => false }
/-- R126: QENC and QDEC; srcB is the super-scale of NQ4 and zero for the MX formats; pidx is 0 (R116). -/
def specBlock (a : SrcK) (nq : Bool) (ok : Nat → Bool) : FormSpec :=
  { streams := [.x], dst := .vec, a := a, b := if nq then .scalar else .none
    types := if nq then [.nq4] else [.e4m3, .e5m2, .e3m2, .e2m1], modOk := ok, extra := fun w => w.pidx == 0 }
/-- R129: VBCAST and VROT. -/
def specVscalar : FormSpec := { streams := [.x], dst := .vec, a := .vec, b := .scalar, types := allTypes }
/-- R129: VSLIDE. -/
def specVslide : FormSpec := { specVscalar with c := .vecNoLit, modOk := fun m => m ≤ 1 }
/-- R130: VREDADD; a rounding mode only for the floating types. -/
def specVredadd : FormSpec :=
  { streams := [.x], dst := .vec, a := .vec, b := .mask, types := intTypes ++ floatTypes, modOk := rndOk
    extra := fun w => w.mod == 0 || w.etype ∈ floatTypes }
/-- R130: VREDMAX and VREDMIN. -/
def specVredmax : FormSpec :=
  { streams := [.x], dst := .vec, a := .vec, b := .mask, types := intTypes ++ floatTypes }
/-- R131: VSCAN. -/
def specVscan : FormSpec :=
  { streams := [.x], dst := .vec, a := .vec, b := .mask, types := intTypes ++ floatTypes
    modOk := fun m => m < 8 && m % 4 != 3, extra := fun w => w.mod.toNat % 4 == 0 || w.etype ∈ floatTypes }
/-- R132: VIOTA. -/
def specViota : FormSpec := { streams := [.x], dst := .vec, a := .mask, types := intTypes }
/-- R132: VCMPRS and VEXPND. -/
def specVmaskAny : FormSpec := { streams := [.x], dst := .vec, a := .vec, b := .mask, types := allTypes }
/-- R133: VLIT; a short literal obeys R42. -/
def specVlit : FormSpec :=
  { streams := [.x], dst := .vec, a := .target, types := allTypes
    extra := fun w => Operand.isLit w.srcA || shortElemOk w.etype }
/-- R133: VINS. -/
def specVins : FormSpec :=
  { streams := [.x], dst := .vec, a := .vec, b := .scalar, c := .scalarNoLit, types := allTypes }
/-- R337: PKSET; a short literal in .temp or .topp raises ILLOP. -/
def specPkset : FormSpec :=
  { streams := [.x], a := .scalar, modOk := fun m => m ≤ 6
    extra := fun w => match w.srcA with
      | .short _ => w.mod != 3 && w.mod != 5
      | _ => true }
/-- R338: PKRAND. -/
def specPkrand : FormSpec := { streams := [.x], dst := .vec, a := .scalar, modOk := fun m => m ≤ 1 }
/-- R339: PKTOPK. -/
def specPktopk : FormSpec := { streams := [.x], a := .vec, b := .scalar }
/-- R340: PKMERGE. -/
def specPkmerge : FormSpec := { streams := [.x], a := .scalar }
/-- R341: PKDRAW. -/
def specPkdraw : FormSpec := { streams := [.x], dst := .vec, a := .scalar }

/-- R209: FENCE. -/
def specFence : FormSpec :=
  { streams := [.b], scopes := allScopes, orders := [.acq, .rel, .acqrel, .sc] }
/-- A B word with no operand (R110, R279). -/
def specB : FormSpec := { streams := [.b] }

/-- The live mask of a YIELD (R252): a literal, a short one sign-extended. -/
def liveMask (o : Operand) : BitVec 32 :=
  match o with
  | .short v => v.signExtend 32
  | .lit v => v
  | _ => 0

/-- The number of set bits. -/
def popCount {n : Nat} (v : BitVec n) : Nat := ((List.range n).filter (fun i => v.getLsbD i)).length

/-- R252: the live mask names at most 16 vectors. -/
def liveOk (w : WordF) : Bool := popCount (liveMask w.srcB) ≤ 16
/-- R252: YIELD.tl. -/
def specYieldTl : FormSpec :=
  { streams := [.b], a := .tl, b := .target, c := .reg 1, modOk := fun m => m == 0 || m == 4
    extra := fun w => (w.srcA == .tl .mg || w.srcA == .tl .co) && liveOk w }
/-- R252: YIELD.nb. -/
def specYieldNb : FormSpec := { streams := [.b], a := .nb, b := .target, modOk := fun m => m == 1, extra := liveOk }
/-- R252: YIELD.gb. -/
def specYieldGb : FormSpec :=
  { streams := [.b], a := .short, b := .target, modOk := fun m => m == 2 || m == 6
    extra := fun w => shortIn w.srcA 0 63 && liveOk w }
/-- R252: YIELD.arr. -/
def specYieldArr : FormSpec := { streams := [.b], b := .target, modOk := fun m => m == 3, extra := liveOk }

/-! ### Matrix records (R46, R177) -/

/-- The MX formats (R63). -/
def Fmt.isMx : Fmt → Bool
  | .e4m3 | .e5m2 | .e3m2 | .e2m1 => true
  | _ => false
/-- The integer formats. -/
def Fmt.isInt : Fmt → Bool
  | .int8 | .int4 => true
  | _ => false
/-- The floating-point formats, codes 1 to 7. -/
def Fmt.isFloat : Fmt → Bool
  | .f32 | .bf16 | .f16 | .e4m3 | .e5m2 | .e3m2 | .e2m1 => true
  | _ => false
/-- Formats 1 to 9. -/
def Fmt.is1to9 (f : Fmt) : Bool := Fmt.isFloat f || Fmt.isInt f
/-- Formats 1 to 3. -/
def Fmt.is1to3 : Fmt → Bool
  | .f32 | .bf16 | .f16 => true
  | _ => false

/-- Whether the record reads ring D (R177). -/
def useD (ringDUsed : Bool) (r : RecF) : Bool :=
  ringDUsed || (r.ringD == 0 && !r.popD && r.lvD == 0)

/-- The rules of every record (R46): header, and a level is nonzero only beside its pop. -/
def recHeaderLegal (r : RecF) : Bool :=
  r.wait.toNat ≤ 42 && (r.pidx != 0 || !r.pneg) && r.tile.toNat ≤ 47
    && r.rnd != 3 && r.sparse.toNat ≤ 4
    && (r.popA || r.lvA == 0) && (r.popB || r.lvB == 0) && (r.popD || r.lvD == 0)

/-- Fields of the header of R177 that must be zero: those not named true. -/
structure RecUse where
  fmtA : Bool := false
  fmtB : Bool := false
  fmtO : Bool := false
  sgnA : Bool := false
  sgnB : Bool := false
  had : Bool := false
  hside : Bool := false
  sparse : Bool := false
  rnd : Bool := false
  sat : Bool := false
  accum : Bool := false
  ringA : Bool := false
  ringB : Bool := false
  ringD : Bool := false
  popA : Bool := false
  popB : Bool := false
  popD : Bool := false
  aStr : Bool := false
  bStr : Bool := false
  tile : Bool := false

/-- Every field that the form does not use is zero (R46, R177). -/
def recUseOk (u : RecUse) (r : RecF) : Bool :=
  (u.fmtA || r.fmtA == .raw) && (u.fmtB || r.fmtB == .raw) && (u.fmtO || r.fmtO == .raw)
    && (u.sgnA || !r.sgnA) && (u.sgnB || !r.sgnB) && (u.had || r.had == 0) && (u.hside || !r.hside)
    && (u.sparse || r.sparse == 0) && (u.rnd || r.rnd == 0) && (u.sat || !r.sat) && (u.accum || !r.accum)
    && (u.ringA || r.ringA == 0) && (u.ringB || r.ringB == 0) && (u.ringD || r.ringD == 0)
    && (u.popA || !r.popA) && (u.popB || !r.popB) && (u.popD || !r.popD)
    && (u.aStr || r.aStr == 0) && (u.bStr || r.bStr == 0) && (u.tile || (r.tile == 0 && r.tStr == 0))

/-- R177: MMA. -/
def mmaLegal (r : RecF) : Bool :=
  let d := Fmt.isMx r.fmtA || r.fmtA == .nq4
  recHeaderLegal r && r.mod == 0
    && (Fmt.is1to9 r.fmtA || r.fmtA == .nq4) && Fmt.is1to9 r.fmtB && r.fmtO == .f32
    && (Fmt.isInt r.fmtA == Fmt.isInt r.fmtB)
    && (!r.sgnA || Fmt.isInt r.fmtA) && (!r.sgnB || Fmt.isInt r.fmtB)
    && (if r.had == 0 then !r.hside else Fmt.isFloat (if r.hside then r.fmtB else r.fmtA))
    && recUseOk { fmtA := true, fmtB := true, fmtO := true, sgnA := true, sgnB := true, had := true, hside := true,
                  accum := true, ringA := true, ringB := true, ringD := d, popA := true, popB := true, popD := d,
                  aStr := true, bStr := true, tile := true } r
/-- R177: MMAS. -/
def mmasLegal (r : RecF) : Bool :=
  recHeaderLegal r && r.mod == 0
    && Fmt.is1to9 r.fmtA && r.fmtA != .e3m2 && Fmt.is1to9 r.fmtB && r.fmtO == .f32
    && (Fmt.isInt r.fmtA == Fmt.isInt r.fmtB)
    && (!r.sgnA || Fmt.isInt r.fmtA) && (!r.sgnB || Fmt.isInt r.fmtB)
    && (if r.had == 0 then !r.hside else r.hside) && r.sparse != 0
    && recUseOk { fmtA := true, fmtB := true, fmtO := true, sgnA := true, sgnB := true, had := true, hside := true,
                  sparse := true, accum := true, ringA := true, ringB := true, ringD := true, popA := true,
                  popB := true, popD := true, aStr := true, bStr := true, tile := true } r
/-- R177: MHAD. -/
def mhadLegal (r : RecF) : Bool :=
  let d := Fmt.isMx r.fmtA
  recHeaderLegal r && r.mod == 0 && Fmt.isFloat r.fmtA && Fmt.is1to3 r.fmtO && r.had != 0 && r.ringB != r.ringA
    && recUseOk { fmtA := true, fmtO := true, had := true, rnd := true, sat := true, ringA := true, ringB := true,
                  ringD := d, popA := true, popD := d, aStr := true } r
/-- R177: MCLR. -/
def mclrLegal (r : RecF) : Bool := recHeaderLegal r && r.mod == 0 && recUseOk { tile := true } r
/-- R177: MLDA. -/
def mldaLegal (r : RecF) : Bool :=
  recHeaderLegal r && r.mod == 0 && (Fmt.is1to3 r.fmtA || r.fmtA == .int8) && (!r.sgnA || r.fmtA == .int8)
    && recUseOk { fmtA := true, sgnA := true, accum := true, ringA := true, popA := true, aStr := true, tile := true } r
/-- R177, R182: MSTA. A queue destination takes formats 1 to 3 and carries its queue in ringB[1:0]. -/
def mstaLegal (r : RecF) : Bool :=
  let d := (Fmt.isMx r.fmtO || r.fmtO == .nq4)
  let q := r.mod.getLsbD 3
  recHeaderLegal r && (r.mod.toNat == 0 || r.mod.toNat == 2 || r.mod.toNat == 8 || r.mod.toNat == 10)
    && (Fmt.is1to9 r.fmtO || r.fmtO == .nq4) && (!r.sgnA || Fmt.isInt r.fmtO)
    && (!r.sat || Fmt.is1to3 r.fmtO || Fmt.isInt r.fmtO)
    && (!q || (Fmt.is1to3 r.fmtO && r.ringB.val < 4))
    && recUseOk { fmtO := true, sgnA := true, rnd := true, sat := true, ringB := true, ringD := d, tile := true } r
/-- R177: MSCL. -/
def msclLegal (r : RecF) : Bool :=
  recHeaderLegal r && r.mod.toNat ≤ 1 && recUseOk { ringA := true, tile := true } r
/-- R177: MADDA; its source tile is word 2 [5:0]. -/
def maddaLegal (r : RecF) : Bool :=
  recHeaderLegal r && r.mod == 0 && r.bStr.toNat ≤ 63
    && recUseOk { accum := true, aStr := true, bStr := true, tile := true } r
/-- R177: MXP. -/
def mxpLegal (r : RecF) : Bool :=
  recHeaderLegal r && r.mod == 0 && (Fmt.is1to3 r.fmtA || Fmt.isInt r.fmtA) && r.ringB != r.ringA
    && recUseOk { fmtA := true, ringA := true, ringB := true, popA := true, aStr := true } r

end Sys2Proof.Machine
end

