-- ==== Sys2Proof/WellFormed.lean ====
section
/-! DEFINITION. Which instructions are well-formed: those a word or record of the spec encodes (R31, R32, R40 to R44, R46,
R49, R50, and each form's own rules), and every event. -/

namespace Sys2Proof

open Sys2Proof.Machine

/-- Is the instruction one that the spec's encodings name? Events have no encoding and are well-formed. -/
def wellFormed (i : Instr) : Bool :=
  match i with
  | .nop w => formLegal specNop w
  | .mov w => formLegal specUn w
  | .add w => formLegal specBin w
  | .sub w => formLegal specBin w
  | .mul w => formLegal specBin w
  | .mulh w => formLegal (specBinMod (fun m => m ≤ 2)) w
  | .div w => formLegal (specBinMod (fun m => m ≤ 1)) w
  | .rem w => formLegal (specBinMod (fun m => m ≤ 1)) w
  | .and w => formLegal specBin w
  | .or w => formLegal specBin w
  | .xor w => formLegal specBin w
  | .shl w => formLegal specBin w
  | .shr w => formLegal specBin w
  | .sra w => formLegal specBin w
  | .min w => formLegal (specBinMod (fun m => m ≤ 1)) w
  | .max w => formLegal (specBinMod (fun m => m ≤ 1)) w
  | .set w => formLegal (specBinMod (fun m => m ≤ 7)) w
  | .sel w => formLegal specTri w
  | .madd w => formLegal specTri w
  | .scale w => formLegal (specBinMod (fun m => m ≤ 7)) w
  | .clz w => formLegal specUn w
  | .popc w => formLegal specUn w
  | .bfx w => formLegal (specBinMod (fun m => m ≤ 1)) w
  | .bfi w => formLegal specTri w
  | .br w => formLegal specBr w
  | .bc w => formLegal (if w.tag == .x then specBcX else specBc) w
  | .call w => formLegal specBr w
  | .ret w => formLegal specNop w
  | .bri w => formLegal specBri w
  | .loopSet w => formLegal specLoopSet w
  | .loop w => formLegal specLoop w
  | .lbrk w => formLegal specLoop w
  | .qpush w => formLegal specQpush w
  | .qpop w => formLegal (specQpop (w.mod.getLsbD 0)) w
  | .qpeek w => formLegal (specQpop (w.mod.getLsbD 0)) w
  | .qlen w => formLegal specQlen w
  | .tkpush w => formLegal specTkpush w
  | .tkpop w => formLegal specTkpop w
  | .gets w => formLegal specGets w
  | .sets w => formLegal specSets w
  | .trap w => formLegal (specTrap (w.mod.getLsbD 0)) w
  | .brk w => formLegal (specTrap (w.mod.getLsbD 0)) w
  | .cyc w => formLegal specCyc w
  | .perf w => formLegal specPerf w
  | .barinit w => formLegal specBarinit w
  | .bararr w => formLegal specBararr w
  | .bartry w => formLegal specBartry w
  | .gbararr w => formLegal specGbararr w
  | .gbartry w => formLegal specGbartry w
  | .waittl w => formLegal specWaittl w
  | .tlget w => formLegal specTlget w
  | .setwt w => formLegal specSetwt w
  | .tuneq w => formLegal specTuneq w
  | .spawn w => formLegal specSpawn w
  | .renq w => formLegal specRenq w
  | .klaunch w => formLegal specKlaunch w
  | .kwait w => formLegal specKwait w
  | .kretry w => formLegal (specKtask 0) w
  | .kcancelTask w => formLegal (specKtask 0) w
  | .kcancelKern w => formLegal (specKtask 1) w
  | .qthaw w => formLegal (specKtask 0) w
  | .ld w => formLegal specLd w
  | .ldq w => formLegal specLdq w
  | .ldqDec w => formLegal specLdqDec w
  | .ldqs w => formLegal specLdqs w
  | .gathq w => formLegal specGathq w
  | .strm w => formLegal (specStrm 3) w
  | .strmx w => formLegal (specStrm 5) w
  | .rfill w => formLegal specRfill w
  | .rfillg w => formLegal specRfillg w
  | .pref w => formLegal specPref w
  | .ldacq w => formLegal specLdacq w
  | .waitaddr w => formLegal specWaitaddr w
  | .rdrop w => formLegal specRdrop w
  | .rinit w => formLegal specRinit w
  | .aadd w => formLegal (specAtomic itTypes) w
  | .afadd w => formLegal specAfadd w
  | .amin w => formLegal (specAtomic itTypes) w
  | .amax w => formLegal (specAtomic itTypes) w
  | .aand w => formLegal (specAtomic (itTypes ++ [.b32])) w
  | .aor w => formLegal (specAtomic (itTypes ++ [.b32])) w
  | .axor w => formLegal (specAtomic (itTypes ++ [.b32])) w
  | .aswp w => formLegal (specAtomic (itTypes ++ [.b32])) w
  | .acas w => formLegal specAcas w
  | .aincw w => formLegal (specAtomic [.n32, .n64]) w
  | .cpy w => formLegal (specCopy 3 (fun m => m ≤ 7)) w
  | .cpyh w => formLegal (specCopy 4 (fun m => m ≤ 7)) w
  | .migr w => formLegal (specCopy 4 (fun m => m ≤ 1)) w
  | .pin w => formLegal specPin w
  | .unpin w => formLegal specPin w
  | .coll w => formLegal specColl w
  | .digest w => formLegal specDigest w
  | .tlbinv w => formLegal specTlbinv w
  | .pgzero w => formLegal (specCopy 3 (fun m => m == 0)) w
  | .st w => formLegal specSt w
  | .stq w => formLegal specStq w
  | .stqEnc w => formLegal specStqEnc w
  | .stqs w => formLegal specStqs w
  | .scatq w => formLegal specScatq w
  | .drn w => formLegal (specDrn 3) w
  | .drnx w => formLegal (specDrn 5) w
  | .rdrain w => formLegal specRdrain w
  | .redsp w => formLegal specRedsp w
  | .sendh w => formLegal specSendh w
  | .strel w => formLegal specStrel w
  | .zero w => formLegal specLines w
  | .clean w => formLegal specLines w
  | .inval w => formLegal specLines w
  | .vadd w => formLegal (specV2 intTypes) w
  | .vsub w => formLegal (specV2 intTypes) w
  | .vmul w => formLegal (specV2 intTypes) w
  | .vmulh w => formLegal (specV2 intTypes) w
  | .vmadd w => formLegal (specV3 intTypes) w
  | .vsadd w => formLegal (specV2 intTypes) w
  | .vssub w => formLegal (specV2 intTypes) w
  | .vand w => formLegal (specV2 (intTypes ++ [.b32])) w
  | .vor w => formLegal (specV2 (intTypes ++ [.b32])) w
  | .vxor w => formLegal (specV2 (intTypes ++ [.b32])) w
  | .vandn w => formLegal (specV2 (intTypes ++ [.b32])) w
  | .vshl w => formLegal (specV2 intTypes) w
  | .vshr w => formLegal (specV2 intTypes) w
  | .vsra w => formLegal (specV2 intTypes) w
  | .vmin w => formLegal (specV2 intTypes) w
  | .vmax w => formLegal (specV2 intTypes) w
  | .vabs w => formLegal (specV1 [.s8, .s16, .s32, .s64]) w
  | .vneg w => formLegal (specV1 intTypes) w
  | .vclz w => formLegal (specV1 intTypes) w
  | .vpopc w => formLegal (specV1 intTypes) w
  | .vdot4 w => formLegal specVdot4 w
  | .fadd w => formLegal (withMod rndOk (specV2 floatTypes)) w
  | .fsub w => formLegal (withMod rndOk (specV2 floatTypes)) w
  | .fmul w => formLegal (withMod rndOk (specV2 floatTypes)) w
  | .ffma w => formLegal (withMod rndOk (specV3 floatTypes)) w
  | .ffnma w => formLegal (withMod rndOk (specV3 floatTypes)) w
  | .fmin w => formLegal (specV2 floatTypes) w
  | .fmax w => formLegal (specV2 floatTypes) w
  | .fabs w => formLegal (specV1 floatTypes) w
  | .fneg w => formLegal (specV1 floatTypes) w
  | .fdiv w => formLegal (withMod rndOk (specV2 [.f32])) w
  | .fsqrt w => formLegal (withMod rndOk (specV1 [.f32])) w
  | .fexp w => formLegal (specV1 [.f32]) w
  | .fexp2 w => formLegal (specV1 [.f32]) w
  | .flog2 w => formLegal (specV1 [.f32]) w
  | .ftanh w => formLegal (specV1 [.f32]) w
  | .frnd w => formLegal (withMod (fun m => m ≤ 3) (specV1 floatTypes)) w
  | .fclass w => formLegal (specV1 floatTypes) w
  | .vcmp w => formLegal (specCmp [.s32, .n32, .s64, .n64] 5) w
  | .fcmp w => formLegal (specCmp [.f32] 7) w
  | .mand w => formLegal specM2 w
  | .mor w => formLegal specM2 w
  | .mxor w => formLegal specM2 w
  | .mnot w => formLegal specM1 w
  | .mpopc w => formLegal specMcount w
  | .mfirst w => formLegal specMcount w
  | .vsel w => formLegal specVsel w
  | .mset w => formLegal specMset w
  | .cvt w => formLegal specCvt w
  | .pack w => formLegal specPack w
  | .unpack w => formLegal specUnpack w
  | .qenc w => formLegal (specBlock .vecF32 (w.etype == .nq4) rndOk) w
  | .qdec w => formLegal (specBlock .vec (w.etype == .nq4) (fun m => m == 0)) w
  | .vbcast w => formLegal specVscalar w
  | .vshuf w => formLegal (specV2 allTypes) w
  | .vrot w => formLegal specVscalar w
  | .vslide w => formLegal specVslide w
  | .vredadd w => formLegal specVredadd w
  | .vredmax w => formLegal specVredmax w
  | .vredmin w => formLegal specVredmax w
  | .vscan w => formLegal specVscan w
  | .viota w => formLegal specViota w
  | .vcmprs w => formLegal specVmaskAny w
  | .vexpnd w => formLegal specVmaskAny w
  | .vmov w => formLegal (specV1 allTypes) w
  | .vlit w => formLegal specVlit w
  | .vins w => formLegal specVins w
  | .vext w => formLegal specVscalar w
  | .pkset w => formLegal specPkset w
  | .pkrand w => formLegal specPkrand w
  | .pktopk w => formLegal specPktopk w
  | .pkmerge w => formLegal specPkmerge w
  | .pkdraw w => formLegal specPkdraw w
  | .mma r => mmaLegal r
  | .mmas r => mmasLegal r
  | .mhad r => mhadLegal r
  | .mclr r => mclrLegal r
  | .mlda r => mldaLegal r
  | .msta r => mstaLegal r
  | .mscl r => msclLegal r
  | .madda r => maddaLegal r
  | .mxp r => mxpLegal r
  | .fence w => formLegal specFence w
  | .yieldTl w => formLegal specYieldTl w
  | .yieldNb w => formLegal specYieldNb w
  | .yieldGb w => formLegal specYieldGb w
  | .yieldArr w => formLegal specYieldArr w
  | .tend w => formLegal specB w
  | .ktrig w => formLegal specB w
  | .sync w => formLegal specB w
  | .wordResume _ => true
  | .waitaddrWake _ => true
  | .taskDispatch _ => true
  | .shadowSwap _ => true
  | .shadowBankStart _ => true
  | .activeBankResume _ => true
  | .streamStop _ => true
  | .deferredFault _ => true
  | .streamEngineStep _ _ _ => true
  | .queueAtomicResult _ _ _ => true
  | .matrixStep _ _ => true
  | .matrixPop _ _ => true
  | .copyPiece _ _ _ => true
  | .migratorPage _ => true
  | .moveCommit _ => true
  | .collectiveStep _ _ _ => true
  | .atomicAtHome _ => true
  | .storeBufferDrain _ _ => true
  | .writeApply _ _ => true
  | .sendhArrival _ => true
  | .redspArrival _ => true
  | .gbarCount _ => true
  | .contReady _ _ => true
  | .pageWalk _ _ _ _ => true
  | .eccError _ => true
  | .refetchComplete _ _ => true
  | .repairTimeout _ => true
  | .hostFlipAccess _ _ => true
  | .atsInvalidate _ _ => true
  | .capoEvict _ _ _ _ => true
  | .dieFault _ => true
  | .dieResetDone _ _ => true
  | .islandGate _ => true
  | .islandUngate _ => true
  | .ungateComplete _ => true
  | .flitSend _ _ => true
  | .flitReceive _ _ _ => true
  | .replayTimeout _ => true
  | .linkTrainDone _ _ _ => true
  | .linkAckTimeout _ => true
  | .hostLinkDown => true
  | .ringTailRead _ => true
  | .launch _ => true
  | .ctxopen _ => true
  | .ctxready _ => true
  | .wsload _ => true
  | .ctxquiesce _ => true
  | .ctxrelease _ => true
  | .quiesceComplete _ => true
  | .wsloadBegin _ => true
  | .kernelAdmit _ => true
  | .tileQueueFill _ => true
  | .gangReserve => true
  | .gangBankHold _ => true
  | .periodBoundary => true
  | .drainWindowStart => true
  | .levelChange => true
  | .refresh => true
  | .sensorSweep _ => true
  | .targetedSelftest _ _ => true
  | .slotEnd => true
  | .overrunComplete _ => true
  | .cadenceCapApply _ => true
  | .parkImage _ _ => true
  | .imageResume _ _ _ => true
  | .shedEnd => true
  | .curveActivate => true
  | .curveExpire => true
  | .heartbeatTimeout => true
  | .powerOnReset => true
  | .bootSelftestDone _ => true
  | .modreset _ => true
  | .ringStart _ => true
  | .ringDisable _ => true
  | .curveSubmit => true
  | .attestRequest => true
  | .commRegister => true
  | .dbgHold _ _ => true
  | .dbgReleaseThaw _ => true
  | .dbgReleaseCancel _ => true
  | .regWrite _ _ => true
  | .extendedSlotRetrain _ => true
  | .ieee1588TimeLost => true
  | .ieee1588TimeGained _ => true
  | .cxlMemAccess _ => true
  | .responseReturn _ => true

end Sys2Proof
end

