-- ==== Sys2Proof/Decode.lean ====
section
/-! DEFINITION. Decoding words and records from bytes (R4, R28, R30 to R32, R39, R43 to R50), total on any bytes, and the
encoder, both from the same layouts. -/

namespace Sys2Proof

open Sys2Proof.Machine

/-- Why bytes decode to no instruction. Every reason but `short` is ILLOP (R31, R32, R40, R46, R50). -/
inductive DecodeError
  | short | reservedTag | reservedField | unassigned | illegal
  deriving DecidableEq, Repr

/-! ### Field codes -/

/-- R31: the tag codes of words that are not part of a record. -/
def Tag.code : Tag → Nat
  | .l => 0 | .x => 1 | .s => 2 | .b => 4

/-- R31. -/
def Tag.ofCode : Nat → Option Tag
  | 0 => some .l | 1 => some .x | 2 => some .s | 4 => some .b | _ => none

/-- R44, in code order. -/
def etypeList : List EType :=
  [.s8, .s16, .s32, .s64, .n8, .n16, .n32, .n64, .f32, .bf16, .f16, .e4m3, .e5m2, .e3m2, .e2m1, .s4, .n4, .nq4, .b32]

/-- R44. -/
def EType.code : EType → Nat
  | .s8 => 0 | .s16 => 1 | .s32 => 2 | .s64 => 3 | .n8 => 4 | .n16 => 5 | .n32 => 6 | .n64 => 7 | .f32 => 8
  | .bf16 => 9 | .f16 => 10 | .e4m3 => 11 | .e5m2 => 12 | .e3m2 => 13 | .e2m1 => 14 | .s4 => 15 | .n4 => 16
  | .nq4 => 17 | .b32 => 18

/-- R44: codes 19 to 31 are reserved. -/
def EType.ofCode (n : Nat) : Option EType := etypeList[n]?

/-- R47, in code order. -/
def fmtList : List Fmt := [.raw, .f32, .bf16, .f16, .e4m3, .e5m2, .e3m2, .e2m1, .int8, .int4, .nq4, .e8m0]

/-- R47. -/
def Fmt.code : Fmt → Nat
  | .raw => 0 | .f32 => 1 | .bf16 => 2 | .f16 => 3 | .e4m3 => 4 | .e5m2 => 5 | .e3m2 => 6 | .e2m1 => 7 | .int8 => 8
  | .int4 => 9 | .nq4 => 10 | .e8m0 => 11

/-- R47: codes 12 to 15 are reserved. -/
def Fmt.ofCode (n : Nat) : Option Fmt := fmtList[n]?

/-- R43. -/
def Scope.code : Scope → Nat
  | .core => 0 | .die => 1 | .mask => 2 | .device => 3 | .system => 4

/-- R43. -/
def Scope.ofCode : Nat → Option Scope
  | 0 => some .core | 1 => some .die | 2 => some .mask | 3 => some .device | 4 => some .system | _ => none

/-- R43. -/
def Order.code : Order → Nat
  | .rlx => 0 | .acq => 1 | .rel => 2 | .acqrel => 3 | .sc => 4

/-- R43. -/
def Order.ofCode : Nat → Option Order
  | 0 => some .rlx | 1 => some .acq | 2 => some .rel | 3 => some .acqrel | 4 => some .sc | _ => none

/-- R45: the identifiers of the timeline counters. -/
def Tl.code : Tl → Nat
  | .m => 0 | .l k => 1 + k.val | .s k => 5 + k.val | .cp k => 9 + k.val | .mg => 17 | .co => 18

/-- R45, in identifier order. -/
def tlList : List Tl :=
  [.m, .l 0, .l 1, .l 2, .l 3, .s 0, .s 1, .s 2, .s 3, .cp 0, .cp 1, .cp 2, .cp 3, .cp 4, .cp 5, .cp 6, .cp 7, .mg, .co]

/-- R45: identifiers 19 to 31 are reserved. -/
def Tl.ofCode (n : Nat) : Option Tl := tlList[n]?

/-! ### Operand specifiers (R39) -/

/-- R39: the 10-bit specifier of an operand; the 32-bit literal has none and is written as zero here. -/
def Operand.code : Operand → Nat
  | .reg n => n.val
  | .age n => 0x020 + n.val
  | .mlc n => 0x030 + n.val
  | .queue n p => 0x100 + (if p then 0x20 else 0) + n.val
  | .short v => 0x200 + v.toNat
  | .ring n => 0x300 + n.val
  | .nb n => 0x320 + n.val
  | .tl t => 0x340 + Tl.code t
  | .lit _ => 0

/-- R39: the operand that a 10-bit specifier names; reserved codes name none. -/
def Operand.ofCode (c : Nat) : Option Operand :=
  if c < 0x20 then some (.reg (Fin.ofNat 32 c))
  else if c < 0x30 then some (.age (Fin.ofNat 16 c))
  else if c < 0x38 then some (.mlc (Fin.ofNat 8 c))
  else if 0x100 ≤ c ∧ c < 0x110 then some (.queue (Fin.ofNat 16 c) false)
  else if 0x120 ≤ c ∧ c < 0x130 then some (.queue (Fin.ofNat 16 c) true)
  else if 0x200 ≤ c ∧ c < 0x300 then some (.short (BitVec.ofNat 8 c))
  else if 0x300 ≤ c ∧ c < 0x308 then some (.ring (Fin.ofNat 8 c))
  else if 0x320 ≤ c ∧ c < 0x340 then some (.nb (Fin.ofNat 32 c))
  else if 0x340 ≤ c ∧ c < 0x360 then (Tl.ofCode (c - 0x340)).map .tl
  else none

/-- R32, R42: a source field of 32 bits, a literal where litsel says so. -/
def sourceOf (isLit : Bool) (f : BitVec 32) : Option Operand :=
  if isLit then some (.lit f) else if f.toNat < 1024 then Operand.ofCode f.toNat else none

/-- The 32 bits of a source field. -/
def sourceBits : Operand → BitVec 32
  | .lit v => v
  | o => BitVec.ofNat 32 (Operand.code o)

/-- R42: litsel of a word; a second literal has no encoding. -/
def litselOf (w : WordF) : Nat := if Operand.isLit w.srcA then 1 else if Operand.isLit w.srcB then 2 else 0

/-! ### Words (R30, R43) -/

/-- The fields of a word, if every one has a meaning. -/
def fieldsOf (tag : Tag) (raw : IWord) : Option WordF := do
  let litsel := bits raw 105 104
  guard (litsel != 3)
  let dst ← Operand.ofCode (bits raw 95 86)
  let etype ← EType.ofCode (bits raw 85 81)
  let scope ← Scope.ofCode (bits raw 79 77)
  let order ← Order.ofCode (bits raw 76 74)
  let srcC ← Operand.ofCode (bits raw 73 64)
  let srcA ← sourceOf (litsel == 1) (BitVec.ofNat 32 (bits raw 63 32))
  let srcB ← sourceOf (litsel == 2) (BitVec.ofNat 32 (bits raw 31 0))
  some { tag := tag, pbl := bit raw 124, pbr := bit raw 123, pal := bit raw 122, par := bit raw 121
         wait := BitVec.ofNat 6 (bits raw 120 115), pneg := bit raw 103, pidx := Fin.ofNat 8 (bits raw 102 100)
         mod := BitVec.ofNat 4 (bits raw 99 96), dst := dst, etype := etype, mfile := bit raw 80, scope := scope
         order := order, srcC := srcC, srcA := srcA, srcB := srcB }

/-- A bit as a number. -/
def b01 (b : Bool) : Nat := if b then 1 else 0

/-- The word of given fields and opcode (R30, R43). -/
def wordBits (op : Nat) (w : WordF) : IWord :=
  BitVec.ofNat 128 (
    Tag.code w.tag * 2 ^ 125 + b01 w.pbl * 2 ^ 124 + b01 w.pbr * 2 ^ 123 + b01 w.pal * 2 ^ 122 + b01 w.par * 2 ^ 121
    + w.wait.toNat * 2 ^ 115 + op * 2 ^ 106 + litselOf w * 2 ^ 104 + b01 w.pneg * 2 ^ 103 + w.pidx.val * 2 ^ 100
    + w.mod.toNat * 2 ^ 96 + Operand.code w.dst * 2 ^ 86 + EType.code w.etype * 2 ^ 81 + b01 w.mfile * 2 ^ 80
    + Scope.code w.scope * 2 ^ 77 + Order.code w.order * 2 ^ 74 + Operand.code w.srcC * 2 ^ 64
    + (sourceBits w.srcA).toNat * 2 ^ 32 + (sourceBits w.srcB).toNat)

/-! ### The opcode map (R49) -/

/-- One entry of the opcode map: the opcode, and the instruction it makes of a word's fields. -/
abbrev OpRow : Type := Nat × (WordF → Instr)

/-- YIELD's four forms by mod[1:0] (R252). -/
def mkYield (w : WordF) : Instr :=
  match w.mod.toNat % 4 with
  | 0 => .yieldTl w
  | 1 => .yieldNb w
  | 2 => .yieldGb w
  | _ => .yieldArr w

/-- R49: the shared group of L and S. -/
def sharedRows : List OpRow := [
  (0x000, .nop),
  (0x001, .mov),
  (0x002, .add),
  (0x003, .sub),
  (0x004, .mul),
  (0x005, .mulh),
  (0x006, .div),
  (0x007, .rem),
  (0x008, .and),
  (0x009, .or),
  (0x00A, .xor),
  (0x00B, .shl),
  (0x00C, .shr),
  (0x00D, .sra),
  (0x00E, .min),
  (0x00F, .max),
  (0x010, .set),
  (0x011, .sel),
  (0x012, .madd),
  (0x013, .scale),
  (0x014, .clz),
  (0x015, .popc),
  (0x016, .bfx),
  (0x017, .bfi),
  (0x040, .br),
  (0x041, .bc),
  (0x042, .call),
  (0x043, .ret),
  (0x044, .bri),
  (0x045, fun w => if w.mod.getLsbD 2 then .loopSet w else .loop w),
  (0x046, .lbrk),
  (0x060, .qpush),
  (0x061, .qpop),
  (0x062, .qpeek),
  (0x063, .qlen),
  (0x064, .tkpush),
  (0x065, .tkpop),
  (0x080, .gets),
  (0x081, .sets),
  (0x082, .trap),
  (0x083, .brk),
  (0x084, .cyc),
  (0x085, .perf),
  (0x0C0, .barinit),
  (0x0C1, .bararr),
  (0x0C2, .bartry),
  (0x0C3, .gbararr),
  (0x0C4, .gbartry),
  (0x0C5, .waittl),
  (0x0C6, .tlget),
  (0x0C7, .tuneq),
  (0x0C8, .spawn),
  (0x0C9, .renq),
  (0x0CA, .klaunch),
  (0x0CB, .kwait),
  (0x0CC, .kretry),
  (0x0CD, fun w => if w.mod.getLsbD 0 then .kcancelKern w else .kcancelTask w),
  (0x0CE, .qthaw),
  (0x0CF, .setwt)]

/-- R49: the opcodes of the shared group that X executes too. -/
def starRows : List OpRow := [
  (0x000, .nop),
  (0x040, .br),
  (0x041, .bc),
  (0x042, .call),
  (0x043, .ret),
  (0x044, .bri),
  (0x045, fun w => if w.mod.getLsbD 2 then .loopSet w else .loop w),
  (0x046, .lbrk),
  (0x063, .qlen),
  (0x064, .tkpush),
  (0x065, .tkpop),
  (0x080, .gets),
  (0x081, .sets),
  (0x082, .trap),
  (0x083, .brk),
  (0x084, .cyc),
  (0x085, .perf),
  (0x0C0, .barinit),
  (0x0C1, .bararr),
  (0x0C2, .bartry),
  (0x0C3, .gbararr),
  (0x0C4, .gbartry),
  (0x0C5, .waittl),
  (0x0C6, .tlget),
  (0x0C7, .tuneq),
  (0x0C8, .spawn),
  (0x0C9, .renq),
  (0x0CA, .klaunch),
  (0x0CB, .kwait),
  (0x0CC, .kretry),
  (0x0CD, fun w => if w.mod.getLsbD 0 then .kcancelKern w else .kcancelTask w),
  (0x0CE, .qthaw),
  (0x0CF, .setwt)]

/-- R49: L only. -/
def lRows : List OpRow := [
  (0x100, .ld),
  (0x101, fun w => if w.mod.getLsbD 0 then .ldqDec w else .ldq w),
  (0x102, .ldqs),
  (0x103, .gathq),
  (0x104, .strm),
  (0x105, .strmx),
  (0x106, .rfill),
  (0x107, .rfillg),
  (0x108, .pref),
  (0x109, .ldacq),
  (0x10A, .waitaddr),
  (0x10B, .rdrop),
  (0x10C, .rinit),
  (0x120, .aadd),
  (0x121, .afadd),
  (0x122, .amin),
  (0x123, .amax),
  (0x124, .aand),
  (0x125, .aor),
  (0x126, .axor),
  (0x127, .aswp),
  (0x128, .acas),
  (0x129, .aincw),
  (0x140, .cpy),
  (0x141, .cpyh),
  (0x142, .migr),
  (0x143, .pin),
  (0x144, .unpin),
  (0x145, .coll),
  (0x146, .digest),
  (0x147, .tlbinv),
  (0x148, .pgzero)]

/-- R49: S only. -/
def sRows : List OpRow := [
  (0x100, .st),
  (0x101, fun w => if w.mod.getLsbD 0 then .stqEnc w else .stq w),
  (0x102, .stqs),
  (0x103, .scatq),
  (0x104, .drn),
  (0x105, .drnx),
  (0x106, .rdrain),
  (0x107, .redsp),
  (0x108, .sendh),
  (0x109, .strel),
  (0x10A, .zero),
  (0x10B, .clean),
  (0x10C, .inval)]

/-- R49: X only. -/
def xRows : List OpRow := [
  (0x100, .vadd),
  (0x101, .vsub),
  (0x102, .vmul),
  (0x103, .vmulh),
  (0x104, .vmadd),
  (0x105, .vsadd),
  (0x106, .vssub),
  (0x107, .vand),
  (0x108, .vor),
  (0x109, .vxor),
  (0x10A, .vandn),
  (0x10B, .vshl),
  (0x10C, .vshr),
  (0x10D, .vsra),
  (0x10E, .vmin),
  (0x10F, .vmax),
  (0x110, .vabs),
  (0x111, .vneg),
  (0x112, .vclz),
  (0x113, .vpopc),
  (0x114, .vdot4),
  (0x140, .fadd),
  (0x141, .fsub),
  (0x142, .fmul),
  (0x143, .ffma),
  (0x144, .ffnma),
  (0x145, .fmin),
  (0x146, .fmax),
  (0x147, .fabs),
  (0x148, .fneg),
  (0x149, .fdiv),
  (0x14A, .fsqrt),
  (0x14B, .fexp),
  (0x14C, .fexp2),
  (0x14D, .flog2),
  (0x14E, .ftanh),
  (0x14F, .frnd),
  (0x150, .fclass),
  (0x180, .vcmp),
  (0x181, .fcmp),
  (0x182, .mand),
  (0x183, .mor),
  (0x184, .mxor),
  (0x185, .mnot),
  (0x186, .mpopc),
  (0x187, .mfirst),
  (0x188, .vsel),
  (0x189, .mset),
  (0x1A0, .cvt),
  (0x1A1, .pack),
  (0x1A2, .unpack),
  (0x1A3, .qenc),
  (0x1A4, .qdec),
  (0x1B0, .vbcast),
  (0x1B1, .vshuf),
  (0x1B2, .vrot),
  (0x1B3, .vslide),
  (0x1B4, .vredadd),
  (0x1B5, .vredmax),
  (0x1B6, .vredmin),
  (0x1B7, .vscan),
  (0x1B8, .viota),
  (0x1B9, .vcmprs),
  (0x1BA, .vexpnd),
  (0x1D0, .vmov),
  (0x1D1, .vlit),
  (0x1D2, .vins),
  (0x1D3, .vext),
  (0x1E0, .pkset),
  (0x1E1, .pkrand),
  (0x1E2, .pktopk),
  (0x1E3, .pkmerge),
  (0x1E4, .pkdraw)]

/-- R49: tag B. -/
def bRows : List OpRow := [
  (0x000, .fence),
  (0x001, mkYield),
  (0x002, .tend),
  (0x003, .ktrig),
  (0x004, .sync)]

/-- R49: the rows of a tag. -/
def tagRows : Tag → List OpRow
  | .l => sharedRows ++ lRows
  | .s => sharedRows ++ sRows
  | .x => starRows ++ xRows
  | .b => bRows

/-- R49, R50: the instruction that an opcode names in a tag. -/
def instrOf (tag : Tag) (op : Nat) (w : WordF) : Option Instr :=
  ((tagRows tag).find? (fun r => r.1 == op)).map (fun r => r.2 w)

/-- R32, R50: decode one word that is not part of a record. -/
def decodeWord (raw : IWord) : Except DecodeError Instr :=
  match Tag.ofCode (bits raw 127 125) with
  | none => .error .reservedTag
  | some tag =>
    match fieldsOf tag raw with
    | none => .error .reservedField
    | some w =>
      match instrOf tag (bits raw 114 106) w with
      | none => .error .unassigned
      | some i => if wellFormed i then .ok i else .error .illegal

/-! ### Records (R46, R48, R177) -/

/-- R177: the matrix forms by opcode. -/
def recOf (op : Nat) (r : RecF) : Option Instr :=
  match op with
  | 0 => some (.mma r)
  | 1 => some (.mmas r)
  | 2 => some (.mhad r)
  | 3 => some (.mclr r)
  | 4 => some (.mlda r)
  | 5 => some (.msta r)
  | 6 => some (.mscl r)
  | 7 => some (.madda r)
  | 8 => some (.mxp r)
  | _ => none

/-- R46: the fields of a record, if every one has a meaning and every reserved bit is zero. -/
def recFieldsOf (w0 w1 w2 w3 : IWord) : Option RecF := do
  guard (bits w0 105 104 == 0)
  guard (bits w0 71 64 == 0 && bits w1 100 64 == 0 && bits w2 124 64 == 0 && bits w3 124 64 == 0)
  let fmtA ← Fmt.ofCode (bits w0 95 92)
  let fmtB ← Fmt.ofCode (bits w0 91 88)
  let fmtO ← Fmt.ofCode (bits w0 79 76)
  some { pbl := bit w0 124, pbr := bit w0 123, pal := bit w0 122, par := bit w0 121
         wait := BitVec.ofNat 6 (bits w0 120 115), pneg := bit w0 103, pidx := Fin.ofNat 8 (bits w0 102 100)
         mod := BitVec.ofNat 4 (bits w0 99 96), fmtA := fmtA, fmtB := fmtB, sgnA := bit w0 87, sgnB := bit w0 86
         had := BitVec.ofNat 2 (bits w0 85 84), hside := bit w0 83, sparse := BitVec.ofNat 3 (bits w0 82 80)
         fmtO := fmtO, rnd := BitVec.ofNat 2 (bits w0 75 74), sat := bit w0 73, accum := bit w0 72
         t3 := BitVec.ofNat 16 (bits w0 63 48), t2 := BitVec.ofNat 16 (bits w0 47 32)
         t1 := BitVec.ofNat 16 (bits w0 31 16), t0 := BitVec.ofNat 16 (bits w0 15 0)
         ringA := Fin.ofNat 8 (bits w1 124 122), ringB := Fin.ofNat 8 (bits w1 121 119)
         ringD := Fin.ofNat 8 (bits w1 118 116), tile := BitVec.ofNat 6 (bits w1 115 110)
         popA := bit w1 109, lvA := BitVec.ofNat 2 (bits w1 108 107), popB := bit w1 106
         lvB := BitVec.ofNat 2 (bits w1 105 104), popD := bit w1 103, lvD := BitVec.ofNat 2 (bits w1 102 101)
         aStr := BitVec.ofNat 64 (bits w1 63 0), bStr := BitVec.ofNat 64 (bits w2 63 0)
         tStr := BitVec.ofNat 64 (bits w3 63 0) }

/-- Word 0 of a record (R46). -/
def recWord0 (op : Nat) (r : RecF) : IWord :=
  BitVec.ofNat 128 (
    3 * 2 ^ 125 + b01 r.pbl * 2 ^ 124 + b01 r.pbr * 2 ^ 123 + b01 r.pal * 2 ^ 122 + b01 r.par * 2 ^ 121
    + r.wait.toNat * 2 ^ 115 + op * 2 ^ 106 + b01 r.pneg * 2 ^ 103 + r.pidx.val * 2 ^ 100 + r.mod.toNat * 2 ^ 96
    + Fmt.code r.fmtA * 2 ^ 92 + Fmt.code r.fmtB * 2 ^ 88 + b01 r.sgnA * 2 ^ 87 + b01 r.sgnB * 2 ^ 86
    + r.had.toNat * 2 ^ 84 + b01 r.hside * 2 ^ 83 + r.sparse.toNat * 2 ^ 80 + Fmt.code r.fmtO * 2 ^ 76
    + r.rnd.toNat * 2 ^ 74 + b01 r.sat * 2 ^ 73 + b01 r.accum * 2 ^ 72
    + r.t3.toNat * 2 ^ 48 + r.t2.toNat * 2 ^ 32 + r.t1.toNat * 2 ^ 16 + r.t0.toNat)

/-- Word 1 of a record (R46). -/
def recWord1 (r : RecF) : IWord :=
  BitVec.ofNat 128 (
    3 * 2 ^ 125 + r.ringA.val * 2 ^ 122 + r.ringB.val * 2 ^ 119 + r.ringD.val * 2 ^ 116 + r.tile.toNat * 2 ^ 110
    + b01 r.popA * 2 ^ 109 + r.lvA.toNat * 2 ^ 107 + b01 r.popB * 2 ^ 106 + r.lvB.toNat * 2 ^ 104
    + b01 r.popD * 2 ^ 103 + r.lvD.toNat * 2 ^ 101 + r.aStr.toNat)

/-- Words 2 and 3 of a record (R46). -/
def recStrides (v : BitVec 64) : IWord := BitVec.ofNat 128 (3 * 2 ^ 125 + v.toNat)

/-- R46, R48: decode a record from its four words. -/
def decodeRecord (w0 w1 w2 w3 : IWord) : Except DecodeError Instr :=
  if bits w1 127 125 == 3 && bits w2 127 125 == 3 && bits w3 127 125 == 3 then
    match recFieldsOf w0 w1 w2 w3 with
    | none => .error .reservedField
    | some r =>
      match recOf (bits w0 114 106) r with
      | none => .error .unassigned
      | some i => if wellFormed i then .ok i else .error .illegal
  else .error .reservedTag

/-! ### Bytes -/

/-- The word in 16 bytes, least significant first (R4, R28). -/
def wordOfBytes (bs : List Byte) : IWord := BitVec.ofNat 128 (ofBytes (bs.take 16))

/-- Decode the instruction at the head of some bytes, and what follows it. -/
def decode (bs : List Byte) : Except DecodeError (Instr × List Byte) :=
  if bs.length < 16 then .error .short
  else
    let w0 := wordOfBytes bs
    if bits w0 127 125 == 3 then
      if bs.length < 64 then .error .short
      else
        match decodeRecord w0 (wordOfBytes (bs.drop 16)) (wordOfBytes (bs.drop 32)) (wordOfBytes (bs.drop 48)) with
        | .ok i => .ok (i, bs.drop 64)
        | .error e => .error e
    else
      match decodeWord w0 with
      | .ok i => .ok (i, bs.drop 16)
      | .error e => .error e

/-! ### The encoder -/

/-- The opcode and fields of an instruction that is one word (R49). -/
def wordOf (i : Instr) : Option (Nat × WordF) :=
  match i with
  | .nop w => some (0x000, w)
  | .mov w => some (0x001, w)
  | .add w => some (0x002, w)
  | .sub w => some (0x003, w)
  | .mul w => some (0x004, w)
  | .mulh w => some (0x005, w)
  | .div w => some (0x006, w)
  | .rem w => some (0x007, w)
  | .and w => some (0x008, w)
  | .or w => some (0x009, w)
  | .xor w => some (0x00A, w)
  | .shl w => some (0x00B, w)
  | .shr w => some (0x00C, w)
  | .sra w => some (0x00D, w)
  | .min w => some (0x00E, w)
  | .max w => some (0x00F, w)
  | .set w => some (0x010, w)
  | .sel w => some (0x011, w)
  | .madd w => some (0x012, w)
  | .scale w => some (0x013, w)
  | .clz w => some (0x014, w)
  | .popc w => some (0x015, w)
  | .bfx w => some (0x016, w)
  | .bfi w => some (0x017, w)
  | .br w => some (0x040, w)
  | .bc w => some (0x041, w)
  | .call w => some (0x042, w)
  | .ret w => some (0x043, w)
  | .bri w => some (0x044, w)
  | .loopSet w => some (0x045, w)
  | .loop w => some (0x045, w)
  | .lbrk w => some (0x046, w)
  | .qpush w => some (0x060, w)
  | .qpop w => some (0x061, w)
  | .qpeek w => some (0x062, w)
  | .qlen w => some (0x063, w)
  | .tkpush w => some (0x064, w)
  | .tkpop w => some (0x065, w)
  | .gets w => some (0x080, w)
  | .sets w => some (0x081, w)
  | .trap w => some (0x082, w)
  | .brk w => some (0x083, w)
  | .cyc w => some (0x084, w)
  | .perf w => some (0x085, w)
  | .barinit w => some (0x0C0, w)
  | .bararr w => some (0x0C1, w)
  | .bartry w => some (0x0C2, w)
  | .gbararr w => some (0x0C3, w)
  | .gbartry w => some (0x0C4, w)
  | .waittl w => some (0x0C5, w)
  | .tlget w => some (0x0C6, w)
  | .setwt w => some (0x0CF, w)
  | .tuneq w => some (0x0C7, w)
  | .spawn w => some (0x0C8, w)
  | .renq w => some (0x0C9, w)
  | .klaunch w => some (0x0CA, w)
  | .kwait w => some (0x0CB, w)
  | .kretry w => some (0x0CC, w)
  | .kcancelTask w => some (0x0CD, w)
  | .kcancelKern w => some (0x0CD, w)
  | .qthaw w => some (0x0CE, w)
  | .ld w => some (0x100, w)
  | .ldq w => some (0x101, w)
  | .ldqDec w => some (0x101, w)
  | .ldqs w => some (0x102, w)
  | .gathq w => some (0x103, w)
  | .strm w => some (0x104, w)
  | .strmx w => some (0x105, w)
  | .rfill w => some (0x106, w)
  | .rfillg w => some (0x107, w)
  | .pref w => some (0x108, w)
  | .ldacq w => some (0x109, w)
  | .waitaddr w => some (0x10A, w)
  | .rdrop w => some (0x10B, w)
  | .rinit w => some (0x10C, w)
  | .aadd w => some (0x120, w)
  | .afadd w => some (0x121, w)
  | .amin w => some (0x122, w)
  | .amax w => some (0x123, w)
  | .aand w => some (0x124, w)
  | .aor w => some (0x125, w)
  | .axor w => some (0x126, w)
  | .aswp w => some (0x127, w)
  | .acas w => some (0x128, w)
  | .aincw w => some (0x129, w)
  | .cpy w => some (0x140, w)
  | .cpyh w => some (0x141, w)
  | .migr w => some (0x142, w)
  | .pin w => some (0x143, w)
  | .unpin w => some (0x144, w)
  | .coll w => some (0x145, w)
  | .digest w => some (0x146, w)
  | .tlbinv w => some (0x147, w)
  | .pgzero w => some (0x148, w)
  | .st w => some (0x100, w)
  | .stq w => some (0x101, w)
  | .stqEnc w => some (0x101, w)
  | .stqs w => some (0x102, w)
  | .scatq w => some (0x103, w)
  | .drn w => some (0x104, w)
  | .drnx w => some (0x105, w)
  | .rdrain w => some (0x106, w)
  | .redsp w => some (0x107, w)
  | .sendh w => some (0x108, w)
  | .strel w => some (0x109, w)
  | .zero w => some (0x10A, w)
  | .clean w => some (0x10B, w)
  | .inval w => some (0x10C, w)
  | .vadd w => some (0x100, w)
  | .vsub w => some (0x101, w)
  | .vmul w => some (0x102, w)
  | .vmulh w => some (0x103, w)
  | .vmadd w => some (0x104, w)
  | .vsadd w => some (0x105, w)
  | .vssub w => some (0x106, w)
  | .vand w => some (0x107, w)
  | .vor w => some (0x108, w)
  | .vxor w => some (0x109, w)
  | .vandn w => some (0x10A, w)
  | .vshl w => some (0x10B, w)
  | .vshr w => some (0x10C, w)
  | .vsra w => some (0x10D, w)
  | .vmin w => some (0x10E, w)
  | .vmax w => some (0x10F, w)
  | .vabs w => some (0x110, w)
  | .vneg w => some (0x111, w)
  | .vclz w => some (0x112, w)
  | .vpopc w => some (0x113, w)
  | .vdot4 w => some (0x114, w)
  | .fadd w => some (0x140, w)
  | .fsub w => some (0x141, w)
  | .fmul w => some (0x142, w)
  | .ffma w => some (0x143, w)
  | .ffnma w => some (0x144, w)
  | .fmin w => some (0x145, w)
  | .fmax w => some (0x146, w)
  | .fabs w => some (0x147, w)
  | .fneg w => some (0x148, w)
  | .fdiv w => some (0x149, w)
  | .fsqrt w => some (0x14A, w)
  | .fexp w => some (0x14B, w)
  | .fexp2 w => some (0x14C, w)
  | .flog2 w => some (0x14D, w)
  | .ftanh w => some (0x14E, w)
  | .frnd w => some (0x14F, w)
  | .fclass w => some (0x150, w)
  | .vcmp w => some (0x180, w)
  | .fcmp w => some (0x181, w)
  | .mand w => some (0x182, w)
  | .mor w => some (0x183, w)
  | .mxor w => some (0x184, w)
  | .mnot w => some (0x185, w)
  | .mpopc w => some (0x186, w)
  | .mfirst w => some (0x187, w)
  | .vsel w => some (0x188, w)
  | .mset w => some (0x189, w)
  | .cvt w => some (0x1A0, w)
  | .pack w => some (0x1A1, w)
  | .unpack w => some (0x1A2, w)
  | .qenc w => some (0x1A3, w)
  | .qdec w => some (0x1A4, w)
  | .vbcast w => some (0x1B0, w)
  | .vshuf w => some (0x1B1, w)
  | .vrot w => some (0x1B2, w)
  | .vslide w => some (0x1B3, w)
  | .vredadd w => some (0x1B4, w)
  | .vredmax w => some (0x1B5, w)
  | .vredmin w => some (0x1B6, w)
  | .vscan w => some (0x1B7, w)
  | .viota w => some (0x1B8, w)
  | .vcmprs w => some (0x1B9, w)
  | .vexpnd w => some (0x1BA, w)
  | .vmov w => some (0x1D0, w)
  | .vlit w => some (0x1D1, w)
  | .vins w => some (0x1D2, w)
  | .vext w => some (0x1D3, w)
  | .pkset w => some (0x1E0, w)
  | .pkrand w => some (0x1E1, w)
  | .pktopk w => some (0x1E2, w)
  | .pkmerge w => some (0x1E3, w)
  | .pkdraw w => some (0x1E4, w)
  | .mma _ => none
  | .mmas _ => none
  | .mhad _ => none
  | .mclr _ => none
  | .mlda _ => none
  | .msta _ => none
  | .mscl _ => none
  | .madda _ => none
  | .mxp _ => none
  | .fence w => some (0x000, w)
  | .yieldTl w => some (0x001, w)
  | .yieldNb w => some (0x001, w)
  | .yieldGb w => some (0x001, w)
  | .yieldArr w => some (0x001, w)
  | .tend w => some (0x002, w)
  | .ktrig w => some (0x003, w)
  | .sync w => some (0x004, w)
  | .wordResume _ => none
  | .waitaddrWake _ => none
  | .taskDispatch _ => none
  | .shadowSwap _ => none
  | .shadowBankStart _ => none
  | .activeBankResume _ => none
  | .streamStop _ => none
  | .deferredFault _ => none
  | .streamEngineStep _ _ _ => none
  | .queueAtomicResult _ _ _ => none
  | .matrixStep _ _ => none
  | .matrixPop _ _ => none
  | .copyPiece _ _ _ => none
  | .migratorPage _ => none
  | .moveCommit _ => none
  | .collectiveStep _ _ _ => none
  | .atomicAtHome _ => none
  | .storeBufferDrain _ _ => none
  | .writeApply _ _ => none
  | .sendhArrival _ => none
  | .redspArrival _ => none
  | .gbarCount _ => none
  | .contReady _ _ => none
  | .pageWalk _ _ _ _ => none
  | .eccError _ => none
  | .refetchComplete _ _ => none
  | .repairTimeout _ => none
  | .hostFlipAccess _ _ => none
  | .atsInvalidate _ _ => none
  | .capoEvict _ _ _ _ => none
  | .dieFault _ => none
  | .dieResetDone _ _ => none
  | .islandGate _ => none
  | .islandUngate _ => none
  | .ungateComplete _ => none
  | .flitSend _ _ => none
  | .flitReceive _ _ _ => none
  | .replayTimeout _ => none
  | .linkTrainDone _ _ _ => none
  | .linkAckTimeout _ => none
  | .hostLinkDown => none
  | .ringTailRead _ => none
  | .launch _ => none
  | .ctxopen _ => none
  | .ctxready _ => none
  | .wsload _ => none
  | .ctxquiesce _ => none
  | .ctxrelease _ => none
  | .quiesceComplete _ => none
  | .wsloadBegin _ => none
  | .kernelAdmit _ => none
  | .tileQueueFill _ => none
  | .gangReserve => none
  | .gangBankHold _ => none
  | .periodBoundary => none
  | .drainWindowStart => none
  | .levelChange => none
  | .refresh => none
  | .sensorSweep _ => none
  | .targetedSelftest _ _ => none
  | .slotEnd => none
  | .overrunComplete _ => none
  | .cadenceCapApply _ => none
  | .parkImage _ _ => none
  | .imageResume _ _ _ => none
  | .shedEnd => none
  | .curveActivate => none
  | .curveExpire => none
  | .heartbeatTimeout => none
  | .powerOnReset => none
  | .bootSelftestDone _ => none
  | .modreset _ => none
  | .ringStart _ => none
  | .ringDisable _ => none
  | .curveSubmit => none
  | .attestRequest => none
  | .commRegister => none
  | .dbgHold _ _ => none
  | .dbgReleaseThaw _ => none
  | .dbgReleaseCancel _ => none
  | .regWrite _ _ => none
  | .extendedSlotRetrain _ => none
  | .ieee1588TimeLost => none
  | .ieee1588TimeGained _ => none
  | .cxlMemAccess _ => none
  | .responseReturn _ => none

/-- The opcode and fields of an instruction that is a record (R177). -/
def recOfInstr (i : Instr) : Option (Nat × RecF) :=
  match i with
  | .mma r => some (0, r)
  | .mmas r => some (1, r)
  | .mhad r => some (2, r)
  | .mclr r => some (3, r)
  | .mlda r => some (4, r)
  | .msta r => some (5, r)
  | .mscl r => some (6, r)
  | .madda r => some (7, r)
  | .mxp r => some (8, r)
  | _ => none

/-- The words of a well-formed instruction, at ascending addresses; an event has none. -/
def encode (i : Instr) : List IWord :=
  match wordOf i with
  | some (op, w) => [wordBits op w]
  | none =>
    match recOfInstr i with
    | some (op, r) => [recWord0 op r, recWord1 r, recStrides r.bStr, recStrides r.tStr]
    | none => []

/-- The bytes of an instruction (R4). -/
def encodeBytes (i : Instr) : List Byte := ((encode i).map (fun w => toBytes 16 w.toNat)).flatten

/-- The instruction that the decoder reads from words whose bits are w, numbered from the first word's bit 0; bits from
nbits on are zero. -/
def decodeTableWord (nbits w : Nat) : Option Instr :=
  match decode (toBytes 64 (w % 2 ^ nbits)) with
  | .ok (i, _) => some i
  | .error _ => none

end Sys2Proof
end

