-- ==== Sys2Proof/Machine/Access.lean ====
section
/-! DEFINITION. Reading and changing parts of the state: cores, banks, streams, dies, contexts. -/

namespace Sys2Proof.Machine

/-- The vector with one element replaced. -/
def vset {α : Type} {n : Nat} (v : Vector α n) (i : Fin n) (x : α) : Vector α n := v.set i.val x i.isLt

/-- The vector with one element changed. -/
def vmod {α : Type} {n : Nat} (v : Vector α n) (i : Fin n) (f : α → α) : Vector α n := vset v i (f (v.get i))

/-- The die of a core (R100). -/
def dieOf (c : CoreId) : DieId := ⟨c.val / 16, by omega⟩

/-- The core of a die by its number within the die. -/
def coreOf (d : Fin 8) (k : Fin 16) : CoreId := ⟨16 * d.val + k.val, by omega⟩

/-- A die by number, if there is one. -/
def dieNo (n : Nat) : Option DieId := if h : n < 10 then some ⟨n, h⟩ else none

/-- A core by COREID, if there is one (R100). -/
def coreNo (n : Nat) : Option CoreId := if h : n < 128 then some ⟨n, h⟩ else none

/-- A context by number, if there is one (R231). -/
def ctxNo (n : Nat) : Option CtxId := if h : n < 64 then some ⟨n, h⟩ else none

/-- COREID of a core (R100). -/
def coreId (c : CoreId) : BitVec 16 := BitVec.ofNat 16 c.val

/-! ### Cores and banks -/

/-- A core. -/
def getCore (s : State) (c : CoreId) : Core := s.cores.get c
/-- The state with a core replaced. -/
def setCore (s : State) (c : CoreId) (k : Core) : State := { s with cores := vset s.cores c k }
/-- The state with a core changed. -/
def modCore (s : State) (c : CoreId) (f : Core → Core) : State := setCore s c (f (getCore s c))

/-- A bank of a core. -/
def Core.bank (k : Core) : BankId → Bank
  | .active => k.active
  | .shadow => k.shadow
/-- The core with a bank replaced. -/
def Core.setBank (k : Core) (b : BankId) (x : Bank) : Core :=
  match b with
  | .active => { k with active := x }
  | .shadow => { k with shadow := x }
/-- What a core keeps beside a bank. -/
def Core.aux (k : Core) : BankId → BankAux
  | .active => k.aAux
  | .shadow => k.sAux
/-- The core with that replaced. -/
def Core.setAux (k : Core) (b : BankId) (x : BankAux) : Core :=
  match b with
  | .active => { k with aAux := x }
  | .shadow => { k with sAux := x }

/-- A bank. -/
def getBank (s : State) (c : CoreId) (b : BankId) : Bank := (getCore s c).bank b
/-- The state with a bank replaced. -/
def setBank (s : State) (c : CoreId) (b : BankId) (x : Bank) : State := modCore s c (fun k => k.setBank b x)
/-- The state with a bank changed. -/
def modBank (s : State) (c : CoreId) (b : BankId) (f : Bank → Bank) : State := setBank s c b (f (getBank s c b))
/-- What stands beside a bank. -/
def getAux (s : State) (c : CoreId) (b : BankId) : BankAux := (getCore s c).aux b
/-- The state with what stands beside a bank changed. -/
def modAux (s : State) (c : CoreId) (b : BankId) (f : BankAux → BankAux) : State :=
  modCore s c (fun k => k.setAux b (f (k.aux b)))

/-- A stream of a bank. -/
def Bank.st (k : Bank) : Stream → StreamSt
  | .l => k.l
  | .x => k.x
  | .s => k.s
/-- The bank with a stream replaced. -/
def Bank.setSt (k : Bank) (t : Stream) (x : StreamSt) : Bank :=
  match t with
  | .l => { k with l := x }
  | .x => { k with x := x }
  | .s => { k with s := x }
/-- The bank with a stream changed. -/
def Bank.modSt (k : Bank) (t : Stream) (f : StreamSt → StreamSt) : Bank := k.setSt t (f (k.st t))
/-- The registers of a stream. -/
def Bank.regs (k : Bank) : Stream → StreamRegs
  | .l => k.lr
  | .x => k.xr
  | .s => k.sr
/-- The bank with a stream's registers replaced. -/
def Bank.setRegs (k : Bank) (t : Stream) (x : StreamRegs) : Bank :=
  match t with
  | .l => { k with lr := x }
  | .x => { k with xr := x }
  | .s => { k with sr := x }
/-- The bank with a stream's registers changed. -/
def Bank.modRegs (k : Bank) (t : Stream) (f : StreamRegs → StreamRegs) : Bank := k.setRegs t (f (k.regs t))

/-- The three streams, in the order L, X, S. -/
def streams : List Stream := [.l, .x, .s]

/-- The bank of an agent. -/
def bankOf (s : State) (g : Agent) : Bank := getBank s g.core g.bank
/-- The state with the bank of an agent changed. -/
def modBankOf (s : State) (g : Agent) (f : Bank → Bank) : State := modBank s g.core g.bank f
/-- The stream of an agent. -/
def stOf (s : State) (g : Agent) : StreamSt := (bankOf s g).st g.stream
/-- The state with the stream of an agent changed. -/
def modStOf (s : State) (g : Agent) (f : StreamSt → StreamSt) : State := modBankOf s g (fun k => k.modSt g.stream f)
/-- The stream registers of an agent. -/
def regsOf (s : State) (g : Agent) : StreamRegs := (bankOf s g).regs g.stream
/-- The state with the stream registers of an agent changed. -/
def modRegsOf (s : State) (g : Agent) (f : StreamRegs → StreamRegs) : State :=
  modBankOf s g (fun k => k.modRegs g.stream f)
/-- The die of an agent. -/
def agentDie (g : Agent) : DieId := dieOf g.core

/-! ### Dies, contexts, memory -/

/-- A die. -/
def getDie (s : State) (d : DieId) : Die := s.dies.get d
/-- The state with a die changed. -/
def modDie (s : State) (d : DieId) (f : Die → Die) : State := { s with dies := vmod s.dies d f }
/-- A context record. -/
def getCtx (s : State) (x : CtxId) : Ctx := s.ctxs.get x
/-- The state with a context record changed. -/
def modCtx (s : State) (x : CtxId) (f : Ctx → Ctx) : State := { s with ctxs := vmod s.ctxs x f }
/-- What the device keeps for a context. -/
def getCaux (s : State) (x : CtxId) : CtxAux := s.caux.get x
/-- The state with that changed. -/
def modCaux (s : State) (x : CtxId) (f : CtxAux → CtxAux) : State := { s with caux := vmod s.caux x f }
/-- The state with its memory system changed. -/
def modMs (s : State) (f : MemSys → MemSys) : State := { s with ms := f s.ms }
/-- The state with its dispatcher changed. -/
def modDisp (s : State) (f : Dispatcher → Dispatcher) : State := { s with disp := f s.disp }
/-- The state with the control of a core changed. -/
def modCtl (s : State) (c : CoreId) (f : CoreCtl → CoreCtl) : State := { s with ctl := vmod s.ctl c f }

/-- A fresh number for a request in flight. -/
def takeId (s : State) : State × Nat := ({ s with nextId := s.nextId + 1 }, s.nextId)

/-- The context of a bank's task. -/
def bankCtx (k : Bank) : Option CtxId := k.task.map (·.ctx)

/-- R23: the touched-dies mask gains a die. -/
def touch (s : State) (x : CtxId) (d : DieId) : State :=
  modCtx s x (fun c => { c with touched := c.touched ||| (1 <<< d.val) })

/-- R23: the touched-dies mask gains several dies. -/
def touchAll (s : State) (x : CtxId) : List DieId → State
  | [] => s
  | d :: ds => touchAll (touch s x d) x ds

/-- Is a die present: not ABSENT (R22)? -/
def present (s : State) (d : DieId) : Bool := (getDie s d).st != .absent

/-- Every core. -/
def allCores : List CoreId := (List.range 128).filterMap coreNo
/-- Every die. -/
def allDies : List DieId := (List.range 10).filterMap dieNo
/-- Every context number. -/
def allCtxs : List CtxId := (List.range 64).filterMap ctxNo
/-- Both banks of every core. -/
def allBanks : List (CoreId × BankId) := allCores.flatMap (fun c => [(c, .active), (c, .shadow)])

/-- Run a change over a list of things. -/
def foldAll {α : Type} (s : State) (xs : List α) (f : State → α → State) : State := xs.foldl f s

/-! ### The calendar (R322) -/

/-- The period of the current cycle. -/
def period (s : State) : Nat := s.cal.cycle / 65536
/-- The current cycle within its period. -/
def phase (s : State) : Nat := s.cal.cycle % 65536

/-- The die's cycle count (R21). -/
def dieCycle (s : State) (d : DieId) : Word := (getDie s d).cycle

/-- What tells a task from every other: its handle, or, for a continuation that a SENDH started under its sender's handle
(R158), a number of its own. -/
def Task.key (t : Task) : Word := if t.own = 0 then t.handle else BitVec.ofNat 64 (2 ^ 63 + t.own)

end Sys2Proof.Machine
end

