-- ==== Sys2Proof/Config.lean ====
section
/-! DEFINITION. What the module's implementation fixes and the spec leaves open: opaque constants, so that no proof can
see a value of them. -/

namespace Sys2Proof.Config

/-- Does a P-384 public key, and does an LMS public key, of an index 0 to 3 stand provisioned (R306)? -/
opaque ecKeyPresent : (index : Nat) → Bool
opaque lmsKeyPresent : (index : Nat) → Bool

/-- Does the ECDSA signature, r then s, of a message verify against the provisioned key of an index (R305, R306)? The
arithmetic of the scheme is outside the spec's text. -/
opaque ecdsaVerifies : (message signature : List Byte) → (key : Nat) → Bool

/-- Does the LMS signature of a message verify against the provisioned key of an index (R305, R306)? -/
opaque lmsVerifies : (message signature : List Byte) → (key : Nat) → Bool

/-- What a slot, 0 or 1, of the boot flash holds (R381, R382). -/
opaque imageBytes : (slot : Nat) → List (BitVec 8)

/-- Do the ECDSA and the LMS signature of an image's body verify against the key hashes fused into bridge die 8 (R382)? -/
opaque fusedEcdsaVerifies : (body signature : List (BitVec 8)) → Bool
opaque fusedLmsVerifies : (body signature : List (BitVec 8)) → Bool

/-- SHA-384 (R385), whose arithmetic is outside the spec's text. -/
opaque sha384 : List (BitVec 8) → Vector (BitVec 8) 48

/-- Can the identity keys be read and do they pass their self-check (R386)? The argument counts boots. -/
opaque identityUsable : Nat → Bool

/-- The ECDSA signature of a report under the identity key (R385), and its LMS signature under a leaf of the LMS one. -/
opaque ecdsaSign : (message : List (BitVec 8)) → Vector (BitVec 8) 96
opaque lmsSign : (message : List (BitVec 8)) → (leaf : Nat) → Vector (BitVec 8) 2668

/-- Does the calibration of a die's DRAM interfaces, in the slot of a period, need a retry past the slot (R329)? -/
opaque calibrationRetry : (period die : Nat) → Bool

/-- Which of the 64 park areas of the LPDDR6 (R232) context 0 takes; context x takes the x-th after it. -/
opaque parkFirst : Nat

/-- How many frames at the start of each HBM4 stack pair stay out of the Capo's pool, for the host driver's page tables
(R210, R216). -/
opaque poolReserved : Nat

/-- How many spare rows the module's DRAM has (R377). -/
opaque spareRows : Nat

/-- How many entries a way of a TLB has (R222, R377): of a core's TLB, or of a die's. -/
opaque tlbWay : (core : Bool) → Nat

/-- How many cycles a level change takes (R19): at most 1,024, the bound that the model puts on it. -/
opaque relockCycles : Nat

/-- What a store that has lost its power holds when it comes back (R16): cells, by the number of the free value. -/
opaque lostCells : Nat → List (Nat × BitVec 8)

/-- How many LPDDR6 frames at the end of bridge die 9's the Capo sets aside for CXL.mem (R365). -/
opaque hdmFrames : Nat

/-- The host frame that a flip page of a context has while the host owns it (R217, R220): the host driver places it. -/
opaque hostFrame : (ctx va : Nat) → Nat

/-- The number that a BARRIER record gives for the first differing field of a step (R356): 0 operation, 1 etype, 2 count,
3 reduce operation, in R356's order; the spec gives the fields no numbers. -/
opaque differingField : Nat → Word

/-- R194: may the unit at a place be seen before the other units of the same write, for readers that race it? By the
number of the write and the place of the unit. -/
opaque tornUnit : (write place : Nat) → Bool

/-- R327: is an access of a word in a slot served from a cache, or is the memory and the link that it needs free of the slot's
housekeeping? By the cycle, the die and the address of the part of the access. -/
opaque servedInSlot : (cycle die va : Nat) → Bool

/-- R344, R345: the payload of a flit, whose packet layout is internal to the module. -/
opaque packetBytes : List Payload → Vector (BitVec 8) 240

/-- R204, R352: is a posted atomic whose packet was lost never performed? Its outcome is unknown. By the number of the
request. -/
opaque packetLost : (request : Nat) → Bool

/-- What a park image holds in its control block and in the rest of its streams' state (R240), which VERSION lays out and
only the device reads: a byte, by the number of the free value and the place. -/
opaque imageRest : (image place : Nat) → BitVec 8

/-- A word the spec leaves undefined, by the number of the free value. -/
opaque freeWord : Nat → Word

end Sys2Proof.Config
end

