-- ==== Sys2Proof/Machine/Route.lean ====
section
/-! DEFINITION. The die mesh and its routes (R10, R11, R26), and which hops are down (R352). -/

namespace Sys2Proof.Machine

/-- The column of a compute die; bridge die 8 stands left of column 0 and bridge die 9 right of column 3 (R10). -/
def column (d : Nat) : Nat := d % 4

/-- The dies from one to another along a row, the first left out (R11). -/
def alongRow (row a b : Nat) : List Nat :=
  if a ≤ b then (List.range (b - a)).map (fun i => 4 * row + a + i + 1)
  else (List.range (a - b)).map (fun i => 4 * row + a - i - 1)

/-- The whole of a row, entered from a bridge die's end, up to a column. -/
def fromBridge (row br col : Nat) : List Nat :=
  if br = 8 then (List.range (col + 1)).map (fun i => 4 * row + i)
  else (List.range (4 - col)).map (fun i => 4 * row + 3 - i)

/-- R11, and with `alt` the other choice of R26: the dies a packet visits after its source, its target last. -/
def routeDies (alt : Bool) (a b : Nat) : List Nat :=
  if a = b then []
  else if 8 ≤ a && 8 ≤ b then
    let row := if alt then 1 else 0
    (if a = 8 then fromBridge row 8 3 else fromBridge row 9 0) ++ [b]
  else if 8 ≤ a then
    let row := b / 4
    if alt then fromBridge (1 - row) a (column b) ++ [b] else fromBridge row a (column b)
  else if 8 ≤ b then
    let row := if alt then 1 - a / 4 else a / 4
    (if alt then [4 * row + column a] else [])
      ++ alongRow row (column a) (if b = 8 then 0 else 3) ++ [b]
  else
    let row := if alt then 1 - a / 4 else a / 4
    (if alt then [4 * row + column a] else []) ++ alongRow row (column a) (column b)
      ++ (if row = b / 4 then [] else [b])

/-- The modules from a die to a neighbour (R10): the first and how many. Modules 0 to 2 of a compute die go right, so that
module 2 of die 0 goes to die 1 (R399), 3 to 5 left, 6 and 7 across; a bridge die has 0 to 2 to the upper row and 3 to 5 to the
lower (assumption 12). -/
def hopModules (a b : Nat) : Option (Nat × Nat) :=
  if 8 ≤ a && 8 ≤ b then none
  else if 8 ≤ a then
    (if (a = 8 && (b = 0 || b = 4)) || (a = 9 && (b = 3 || b = 7)) then some (if b < 4 then 0 else 3, 3) else none)
  else if 8 ≤ b then
    (if b = 8 && column a = 0 then some (3, 3) else if b = 9 && column a = 3 then some (0, 3) else none)
  else if a / 4 = b / 4 then
    (if column b + 1 = column a then some (3, 3) else if column a + 1 = column b then some (0, 3) else none)
  else if column a = column b then some (6, 2)
  else none

/-- Does a module carry traffic (R345)? -/
def LinkSt.carries : LinkSt → Bool
  | .up | .degraded | .narrow => true
  | _ => false

/-- The state of a die-link module. -/
def dlink (s : State) (d : Nat) (m : Nat) : Link :=
  if h : 8 * d + m < 80 then s.dlinks.get ⟨8 * d + m, h⟩ else {}

/-- A hop is up when one of its modules carries traffic (R352). -/
def hopUp (s : State) (a b : Nat) : Bool :=
  match hopModules a b with
  | none => false
  | some (m, n) => (List.range n).any (fun i => (dlink s a (m + i)).st.carries)

/-- Can a die forward packets: it is present, or excluded with a working memory island (R26)? -/
def forwards (s : State) (d : Nat) : Bool := s.boot.forward.getLsbD d

/-- Every hop of a path is up and every die between can forward. -/
def pathUp (s : State) : Nat → List Nat → Bool
  | _, [] => true
  | a, [b] => hopUp s a b
  | a, b :: c :: ds => hopUp s a b && forwards s b && pathUp s b (c :: ds)

/-- R11, R26, R352: some route joins two dies. -/
def routeUp (s : State) (a b : Nat) : Bool :=
  pathUp s a (routeDies false a b) || pathUp s a (routeDies true a b)

/-- What is left of a path after a die on it. -/
def restOf (here : Nat) : (src : Nat) → List Nat → List Nat
  | _, [] => []
  | a, b :: ds => if here = a then b :: ds else restOf here b ds

/-- R11, R26, R352: the die to which a die passes a packet: the next of the packet's route, by either choice, if the rest of it
is up; else, where a hop has gone down since, the next of a route from here (DESIGN CHOICE, assumption 64). -/
def nextHop (s : State) (src dst here : Nat) : Option Nat :=
  let ways := [restOf here src (routeDies false src dst), restOf here src (routeDies true src dst)
              , routeDies false here dst, routeDies true here dst]
  (ways.find? (fun p => !p.isEmpty && pathUp s here p)).bind (·.head?)

/-- The first hop of a path that is down. -/
def downHop (s : State) : Nat → List Nat → Option (Nat × Nat)
  | _, [] => none
  | a, b :: ds => if hopUp s a b then downHop s b ds else some (a, b)

/-- R372: LINKDOWN's detail where no route joins two dies: the first module of the hop of R11's route that is down, as
8 × die + module (assumption 31). -/
def downDetail (s : State) (a b : Nat) : Nat :=
  match downHop s a (routeDies false a b) with
  | none => 8 * a
  | some (x, y) => 8 * x + (((hopModules x y).map (·.1)).getD 0)

end Sys2Proof.Machine
end

