-- ==== Sys2Proof/Machine/Memory.lean ====
section
/-! DEFINITION. The bytes of a memory in canonical form, and the die views, the coherence order and the store buffers
of R188 to R193. -/

namespace Sys2Proof.Machine

/-! ### Bytes by address -/

/-- Every entry listed stands above a bound, in strictly rising order, and none is zero. -/
def Mem.okFrom : Nat → Mem → Bool
  | _, [] => true
  | lo, (a, b) :: m => lo ≤ a && b != 0 && Mem.okFrom (a + 1) m

/-- The canonical form. -/
def Mem.wf (m : Mem) : Bool := Mem.okFrom 0 m

/-- The byte at an address; an unlisted address reads as 0 (assumption 1). -/
def Mem.read : Mem → Nat → Byte
  | [], _ => 0
  | (a, b) :: m, x => if a = x then b else Mem.read m x

/-- The memory with one byte written, in canonical form. -/
def Mem.write : Mem → Nat → Byte → Mem
  | [], x, v => if v = 0 then [] else [(x, v)]
  | (a, b) :: m, x, v =>
    if a < x then (a, b) :: Mem.write m x v
    else if a = x then (if v = 0 then m else (a, v) :: m)
    else if v = 0 then (a, b) :: m else (x, v) :: (a, b) :: m

/-- Write several bytes, in order. -/
def Mem.writeCells (m : Mem) : List Host.Cell → Mem
  | [] => m
  | (a, b) :: cs => Mem.writeCells (Mem.write m a b) cs

/-- Bytes at rising addresses. -/
def cellsAt (a : Nat) (bs : List Byte) : List Host.Cell :=
  match bs with
  | [] => []
  | b :: bs => (a, b) :: cellsAt (a + 1) bs

/-- Write bytes at rising addresses. -/
def Mem.store (m : Mem) (a : Nat) (bs : List Byte) : Mem :=
  m.filter (fun c => c.1 < a) ++ (cellsAt a bs).filter (fun c => c.2 != 0) ++ m.filter (fun c => a + bs.length ≤ c.1)

/-- Read n bytes at rising addresses. -/
def Mem.load (m : Mem) (a : Nat) : Nat → List Byte
  | 0 => []
  | n + 1 => Mem.read m a :: Mem.load m (a + 1) n

/-- Make a range of bytes zero. -/
def Mem.clear (m : Mem) (a n : Nat) : Mem := m.filter (fun c => c.1 < a || a + n ≤ c.1)

/-- The entries of a range, moved to another base. -/
def Mem.slice (m : Mem) (a n b : Nat) : List Host.Cell :=
  (m.filter (fun c => a ≤ c.1 && c.1 < a + n)).map (fun c => (c.1 - a + b, c.2))

/-! ### Writes in flight -/

/-- The last value that cells give an address. -/
def cellsRead (cs : List Host.Cell) (a : Nat) : Option Byte :=
  (cs.reverse.find? (fun c => c.1 == a)).map (·.2)

/-- Do two writes share an address? -/
def overlaps (cs ds : List Host.Cell) : Bool := cs.any (fun c => ds.any (fun d => d.1 == c.1))

/-- The value that the newest of some writes gives an address. -/
def writesRead (ws : List Write) (a : Nat) : Option Byte :=
  ws.foldl (fun r w => match cellsRead w.cells a with | some b => some b | none => r) none

/-- The byte that die d sees (R188, R190): its own newest write that has not reached the home, else the last write in
coherence order that its view has applied. -/
def viewByte (m : MemSys) (d : DieId) (a : Nat) : Byte :=
  match writesRead (m.unplaced.filter (fun w => w.src == d)) a with
  | some b => b
  | none =>
    match writesRead (m.writes.filter (fun w => w.applied.contains d)) a with
    | some b => b
    | none => Mem.read m.mem a

/-- The byte at its home: the last write in coherence order (R193). -/
def homeByte (m : MemSys) (a : Nat) : Byte :=
  match writesRead m.writes a with
  | some b => b
  | none => Mem.read m.mem a

/-- The bytes as their homes hold them. -/
def homeMem (m : MemSys) : Mem := Mem.writeCells m.mem (m.writes.flatMap (fun w => w.cells))

/-- The byte that a stream of a bank sees: the newest buffered store of the bank, else its die's view (R189). -/
def bankByte (m : MemSys) (sb : List BufStore) (d : DieId) (a : Nat) : Byte :=
  match sb.foldl (fun r w => match cellsRead w.cells a with | some b => some b | none => r) none with
  | some b => b
  | none => viewByte m d a

/-- The dies whose views count: those that are neither ABSENT nor RESETTING. -/
def viewDies (s : State) : List DieId :=
  allDies.filter (fun d => (getDie s d).st != .absent && (getDie s d).st != .resetting)

/-- Writes that every view has applied, from the oldest on, join the memory that all views share. -/
def settle (ds : List DieId) (m : Mem) : List Write → Mem × List Write
  | [] => (m, [])
  | w :: ws => if ds.all (fun d => w.applied.contains d) then settle ds (Mem.writeCells m w.cells) ws else (m, w :: ws)

/-- Settle the state's writes. -/
def settled (s : State) : State :=
  let r := settle (viewDies s) s.ms.mem s.ms.writes
  modMs s (fun m => { m with mem := r.1, writes := r.2 })

/-- R208: a write to some bytes enters the views of some dies: the WAITADDR words that watch one of them are to wake. -/
def markWatches (m : MemSys) (ds : List DieId) (cells : List Host.Cell) : MemSys :=
  { m with watches := m.watches.map (fun v =>
      if ds.contains v.die && cells.any (fun c => v.keys.contains c.1) then { v with hit := true } else v) }

/-! ### Packets (R24, R191, R345) -/

/-- R24, R345: packets enter the outbox of their source die, which gives them its incarnation. -/
def postAll (s : State) (d : DieId) (ps : List Payload) : State :=
  modDie s d (fun k => { k with outbox := k.outbox ++ ps.map (fun p => { p with src := d, incarnation := k.inc }) })

/-- One packet. -/
def post (s : State) (p : Payload) : State := postAll s p.src [p]

/-- R345: the number of a stream as a source agent. -/
def streamNo (g : Agent) : Nat :=
  6 * g.core.val + (if g.bank = .active then 0 else 3) + (match g.stream with
    | .l => 0
    | .x => 1
    | .s => 2)

/-- R345: the number of a stream engine of a bank. -/
def engineNo (c : CoreId) (b : BankId) (e : Nat) : Nat := 768 + 16 * c.val + (if b = .active then 0 else 8) + e

/-- R345: the number of an agent of a die: 0 to 7 its copy engines, 8 its migrator, 9 its collective engine, 10 the home of
its memories, 11 what else the die does. -/
def dieAgentNo (d : DieId) (i : Nat) : Nat := 2816 + 16 * d.val + i

/-- R345: the number of the agent that makes an atomic request. -/
def AtomicReq.sender (r : AtomicReq) : Nat :=
  match r.form with
  | .queue k => engineNo r.agent.core r.agent.bank k.val
  | .reg | .posted => streamNo r.agent

/-- The other dies to which a write of die d travels: those that have a view, by some route (R191, R352). -/
def writeTargets (s : State) (d : DieId) : List DieId :=
  (viewDies s).filter (fun e => e != d && routeUp s d.val e.val)

/-- The dies that need no packet of a write of die d. -/
def nearDies (s : State) (d : DieId) : List DieId := allDies.filter (fun e => !(writeTargets s d).contains e)

/-- R191, R345: the packets of a write, one for each die that it travels to. -/
def writePackets (s : State) (w : Write) : List Payload :=
  (writeTargets s w.src).map (fun e =>
    { src := w.src, dst := e, kind := .write w.id, ctx := w.origin.ctx, agent := w.origin.agent, stamp := w.stamp })

/-- R191: a plain write enters the view of die d, with what it comes from and the writes that R196 puts before it, and travels
to the other dies. -/
def enterAs (s : State) (d : DieId) (after : List (Nat × List DieId)) (o : Origin) (cells : List Host.Cell) : State :=
  if cells.isEmpty then s
  else
    let (s, id) := takeId s
    let s := modDie s d (fun k => { k with clock := vmod k.clock (Fin.castLE (by omega) d) (· + 1) })
    let w : Write := { id := id, src := d, stamp := some (getDie s d).clock, cells := cells, applied := [d]
                       reached := nearDies s d, origin := o, after := after }
    let s := postAll s d (writePackets s w)
    modMs s (fun m => { markWatches m [d] cells with unplaced := m.unplaced ++ [w] })

/-- R191: a plain write of the device or of the host enters the view of die d. -/
def enterView (s : State) (d : DieId) (cells : List Host.Cell) : State :=
  enterAs s d [] { agent := dieAgentNo d 11 } cells

/-- R193: an atomic's write at its home: last in coherence order, with its issuer and what R196 puts before it. -/
def enterAtomic (s : State) (home : DieId) (task : Option Word) (after : List (Nat × List DieId)) (o : Origin)
    (cells : List Host.Cell) : State :=
  let (s, id) := takeId s
  let w : Write := { id := id, src := home, stamp := none, cells := cells, applied := [home], reached := nearDies s home
                     origin := { o with agent := dieAgentNo home 10 }, task := task, after := after }
  let s := postAll s home (writePackets s w)
  settled (modMs s (fun m => { markWatches m [home] cells with writes := m.writes ++ [w] }))

/-- R223: a hardware update of a page-table entry at its home: last in coherence order. -/
def enterHome (s : State) (home : DieId) (cells : List Host.Cell) : State := enterAtomic s home none [] {} cells

/-- A write that every view holds at once: a hardware update whose invalidation is part of the same step (R218). -/
def enterAll (s : State) (home : DieId) (cells : List Host.Cell) : State :=
  let (s, id) := takeId s
  let w : Write := { id := id, src := home, stamp := none, cells := cells, applied := allDies, reached := allDies }
  settled (modMs s (fun m => { markWatches m allDies cells with writes := m.writes ++ [w] }))

/-- Is a die lost (R22): RESETTING, or ABSENT since? -/
def dieGone (s : State) (d : DieId) : Bool := (getDie s d).st == .resetting || (getDie s d).st == .absent

/-- Is a write performed with respect to die d (R192): does its view hold it, or is it already part of every view? -/
def performedAt (s : State) (id : Nat) (d : DieId) : Bool :=
  (s.ms.unplaced.all (fun w => w.id != id || w.src == d))
  && (s.ms.writes.all (fun w => w.id != id || w.applied.contains d))

/-- R196: are the writes that stand before an access performed at die d, as far as an acquire names that die? -/
def afterMet (s : State) (d : DieId) (after : List (Nat × List DieId)) : Bool :=
  after.all (fun p => !p.2.contains d || performedAt s p.1 d)

/-- R190, R191, R196, R349: may die d apply a placed write now? Its packet must have arrived, every write its stamp counts must
be applied, writes of lost dies apart, and every earlier write to its bytes, and what an acquire puts before it. -/
def canApply (s : State) (d : DieId) (before : List Write) (w : Write) : Bool :=
  !w.applied.contains d && w.reached.contains d
  && before.all (fun v => v.applied.contains d || !overlaps v.cells w.cells)
  && afterMet s d w.after
  && (match w.stamp with
      | none => true
      | some t => allDies.all (fun j =>
          let k := Fin.castLE (by omega) j
          let have_ := (getDie s d).clock.get k
          t.get k ≤ (if j == w.src then have_ + 1 else have_) || dieGone s j))

/-- Die d applies a placed write (R191). -/
def applyWrite (s : State) (d : DieId) (w : Write) : State :=
  let s := modMs s (fun m => { markWatches m [d] w.cells with
    writes := m.writes.map (fun v => if v.id = w.id then { v with applied := v.applied ++ [d] } else v) })
  let s := match w.stamp with
    | none => s
    | some _ => modDie s d (fun k => { k with clock := vmod k.clock (Fin.castLE (by omega) w.src) (· + 1) })
  settled s

/-- The next placed write that die d may apply, if there is one. -/
def nextApply (s : State) (d : DieId) : List Write → List Write → Option Write
  | _, [] => none
  | seen, w :: ws => if canApply s d seen w then some w else nextApply s d (seen ++ [w]) ws

/-- R190: a write that has not reached its home takes its place there, after its source's earlier writes to its bytes. -/
def placeWrite (s : State) (w : Write) : State :=
  settled (modMs s (fun m => { m with
    unplaced := m.unplaced.filter (fun v => v.id != w.id), writes := m.writes ++ [w] }))

/-- The packet of a write has arrived at a die, or need not arrive there any more (R349). -/
def reachWrite (s : State) (d : DieId) (id : Nat) : State :=
  let mark (w : Write) : Write := if w.id = id then { w with reached := w.reached ++ [d] } else w
  modMs s (fun m => { m with writes := m.writes.map mark, unplaced := m.unplaced.map mark })

/-- Is a write in flight that satisfies a test? -/
def writeInFlight (s : State) (p : Write → Bool) : Bool := s.ms.unplaced.any p || s.ms.writes.any p

/-- R196: the writes in flight that a bank's acquires have put before its later accesses. -/
def acquiredNow (s : State) (c : CoreId) (b : BankId) : List (Nat × List DieId) :=
  (getAux s c b).acquired.filter (fun p => p.2.any (fun d => !performedAt s p.1 d))

/-- R196: an acquire of a bank, of a scope that covers some dies, orders writes in flight before its later accesses. -/
def acquireWrites (s : State) (c : CoreId) (b : BankId) (ids : List Nat) (ds : List DieId) : State :=
  let new := (ids.filter (fun i => ds.any (fun d => !performedAt s i d))).map (fun i => (i, ds))
  if new.isEmpty then s else modAux s c b (fun x => { x with acquired := acquiredNow s c b ++ new })

/-- R194: of a write of several units of u bytes, the units that may be seen before the others: those that a free value
names. -/
def tornFirst (id u : Nat) (cells : List Host.Cell) : List Host.Cell := cells.filter (fun c => Config.tornUnit id (c.1 / u))

/-- R194: those others. -/
def tornRest (id u : Nat) (cells : List Host.Cell) : List Host.Cell := cells.filter (fun c => !Config.tornUnit id (c.1 / u))

/-- What a store of a bank comes from: its task, and the agent by its number; `eng` says that an engine makes it. -/
def bankOrigin (s : State) (c : CoreId) (b : BankId) (agent : Nat) (eng : Bool) : Origin :=
  match (getBank s c b).task with
  | some t => { ctx := some t.ctx, kinst := t.kinst, node := t.node, eng := eng, agent := agent }
  | none => { eng := eng, agent := agent }

/-- The number of a bank's stream S, which makes its stores. -/
def storeNo (c : CoreId) (b : BankId) : Nat := streamNo { core := c, bank := b, stream := .s }

/-- R189: a store that a bank performs in the view of its die, in units of u bytes (R194). -/
def engineStore (s : State) (c : CoreId) (b : BankId) (o : Origin) (u : Nat) (cells : List Host.Cell) : State :=
  let a := acquiredNow s c b
  enterAs (enterAs s (dieOf c) a o (tornFirst s.nextId u cells)) (dieOf c) a o (tornRest s.nextId u cells)

/-- R225: an operation of a die performs a store there, in units of u bytes (R194). -/
def dieStore (s : State) (d : DieId) (o : Origin) (u : Nat) (cells : List Host.Cell) : State :=
  enterAs (enterAs s d [] o (tornFirst s.nextId u cells)) d [] o (tornRest s.nextId u cells)

/-- The store at the head of a store buffer enters the die view (R189). -/
def drainOne (s : State) (c : CoreId) (b : BankId) : State :=
  match (getAux s c b).sb with
  | [] => s
  | w :: ws => enterAs (modAux s c b (fun x => { x with sb := ws })) (dieOf c) (acquiredNow s c b)
      (bankOrigin s c b (storeNo c b) false) w.cells

/-- Drain the buffer up to n stores. -/
def drainN (s : State) (c : CoreId) (b : BankId) : Nat → State
  | 0 => s
  | n + 1 => drainN (drainOne s c b) c b n

/-- Drain the whole buffer. -/
def drainAll (s : State) (c : CoreId) (b : BankId) : State := drainN s c b (getAux s c b).sb.length

/-- R189: a store of S enters the store buffer. -/
def bufferStore (s : State) (c : CoreId) (b : BankId) (cells : List Host.Cell) : State :=
  if cells.isEmpty then s
  else
    let (s, id) := takeId s
    modAux s c b (fun x => { x with sb := x.sb ++ [{ id := id, cells := cells }] })

/-- R189, R194: a store of S of several units of u bytes: other agents may see some of its units before the others. -/
def bufferUnits (s : State) (c : CoreId) (b : BankId) (u : Nat) (cells : List Host.Cell) : State :=
  bufferStore (bufferStore s c b (tornFirst s.nextId u cells)) c b (tornRest s.nextId u cells)

/-- Every write in flight takes its place and reaches every view at once: what a die that returns finds (assumption 64). -/
def publishAll (s : State) : State :=
  if s.ms.writes.isEmpty && s.ms.unplaced.isEmpty then s
  else
    let own (j : Fin 16) : Nat := match dieNo j.val with
      | some d => (getDie s d).clock.get j
      | none => 0
    let clk : Vector Nat 16 := Vector.ofFn own
    let s := { s with dies := s.dies.map (fun d => { d with clock := clk }) }
    let cells := (s.ms.writes ++ s.ms.unplaced).flatMap (fun w => w.cells)
    modMs s (fun m => { markWatches m allDies cells with mem := Mem.writeCells m.mem cells, writes := [], unplaced := [] })

/-- Read n bytes of a die's view at rising physical addresses. -/
def viewBytes (m : MemSys) (d : DieId) (a : Nat) : Nat → List Byte
  | 0 => []
  | n + 1 => viewByte m d a :: viewBytes m d (a + 1) n

/-- Host-physical address a, as a key of the module's memory: host memory stands above the 44-bit device space. -/
def hostKey (a : Nat) : Nat := 2 ^ 44 + a

end Sys2Proof.Machine
end

