-- ==== Sys2Proof/Machine/Calendar.lean ====
section
/-! DEFINITION. Slots, drain windows and issue cycles (R20, R322 to R328): where the calendar stands. -/

namespace Sys2Proof.Machine

/-- R324: the first period of the extended slot that covers a period, if one does. -/
def extOf (s : State) (p : Nat) : Option Nat :=
  (s.cal.extLast.toList ++ s.cal.extNext.toList).find? (fun e => e ≤ p && p < e + 4)

/-- R322, R324: does the current cycle lie inside a slot? -/
def inSlot (s : State) : Bool := (extOf s (period s)).isSome || phase s < 4096

/-- R322: does the current cycle lie inside a drain window: the last 512 cycles of a period? -/
def inDrain (s : State) : Bool := 65024 ≤ phase s

/-- The first cycle of the first slot that begins at or after a cycle. -/
def slotStartFrom (s : State) (c : Nat) : Nat :=
  let p := (c + 65535) / 65536
  match extOf s p with
  | some e => if e = p then 65536 * p else 65536 * (e + 4)
  | none => 65536 * p

/-- The first cycle after the slot that begins on a cycle. -/
def slotEndOf (s : State) (start : Nat) : Nat :=
  match extOf s (start / 65536) with
  | some e => 65536 * (e + 4)
  | none => start + 4096

/-- The first cycle after the slot that the current cycle lies in. -/
def slotEndNow (s : State) : Nat :=
  match extOf s (period s) with
  | some e => 65536 * (e + 4)
  | none => 65536 * period s + 4096

/-- The first period of the slot that the current cycle lies in, if it lies in one. -/
def slotFirst (s : State) : Nat := (extOf s (period s)).getD (period s)

/-- R323, R324: the cycles of a slot that serve self-tests, and in an extended slot retraining: those outside the refresh and
the sweep, and in its first 1,024 only where the slot makes no level change. -/
def serveWindow (s : State) : Bool :=
  let p := period s
  inSlot s && (3840 ≤ phase s || (phase s < 1024 && (slotFirst s != p
    || (!(s.cal.nextLevel.any (fun n => n.2 = p)) && s.cal.levelDone != p + 1 && s.cal.relock == 0))))

/-- R326: may a stream, copy, migrator or collective engine start an iteration? -/
def enginesRun (s : State) : Bool := !inSlot s && !inDrain s

/-- R20: is the n-th cycle of a group an issue cycle at cadence k/8? -/
def issueAt (k n : Nat) : Bool := n * k / 8 < (n + 1) * k / 8

/-- R20, R277: the cadence that the task of a core's running bank asks for. -/
def cadenceWanted (s : State) (c : CoreId) : Nat :=
  match (getCore s c).shadow.task, (getCore s c).active.task with
  | some t, _ => t.cadence
  | none, some t => t.cadence
  | none, none => 8

/-- R20, R314: the cadence of a core: what its task asked for at the last group boundary, under the cap the core has
taken. -/
def cadenceOf (s : State) (c : CoreId) : Nat := Nat.min (s.ctl.get c).cadence (s.ctl.get c).cap

/-- R20: is the current cycle the first of a group of eight of a core's die? -/
def atGroupStart (s : State) (c : CoreId) : Bool := (dieCycle s (dieOf c)).toNat % 8 = 0

/-- R20: at a group boundary the cadence that the core's task asks for takes effect. -/
def takeCadence (s : State) (c : CoreId) : State :=
  if atGroupStart s c && (s.ctl.get c).cadence != cadenceWanted s c
  then modCtl s c (fun k => { k with cadence := cadenceWanted s c }) else s

/-- R20: may the core advance on this cycle? -/
def issueNow (s : State) (c : CoreId) : Bool :=
  issueAt (cadenceOf s c) ((dieCycle s (dieOf c)).toNat % 8)

end Sys2Proof.Machine
end

