-- ==== Sys2Proof/Machine/Page.lean ====
section
/-! DEFINITION. Page-table entries (R210 to R215), translation and its caches (R222 to R224), and frames (R216, R379). -/

namespace Sys2Proof.Machine

/-! ### Entry fields (R211, R212) -/

/-- A page-table entry. -/
abbrev Pte := BitVec 128

/-- V. -/
def eV (e : Pte) : Bool := bit e 0
/-- LF. -/
def eLF (e : Pte) : Bool := bit e 1
/-- RD. -/
def eRD (e : Pte) : Bool := bit e 2
/-- WR. -/
def eWR (e : Pte) : Bool := bit e 3
/-- EX. -/
def eEX (e : Pte) : Bool := bit e 4
/-- PIN. -/
def ePIN (e : Pte) : Bool := bit e 5
/-- ZOP. -/
def eZOP (e : Pte) : Bool := bit e 6
/-- PSN. -/
def ePSN (e : Pte) : Bool := bit e 7
/-- OWN. -/
def eOWN (e : Pte) : Bool := bit e 8
/-- SHR: 0 device, 1 window, 2 flip. -/
def eSHR (e : Pte) : Nat := bits e 10 9
/-- TIER: 0 zero, 1 weight stack, 2 HBM4, 3 LPDDR6, 4 host. -/
def eTIER (e : Pte) : Nat := bits e 13 11
/-- HSH. -/
def eHSH (e : Pte) : Bool := bit e 14
/-- HOME. -/
def eHOME (e : Pte) : Nat := bits e 18 15
/-- FMT. -/
def eFMT (e : Pte) : Nat := bits e 22 19
/-- PSZ. -/
def ePSZ (e : Pte) : Nat := bits e 29 23
/-- MV: 0 settled, 1 moving, 2 repairing. -/
def eMV (e : Pte) : Nat := bits e 33 32
/-- DIR: true down. -/
def eDIR (e : Pte) : Bool := bit e 34
/-- FRAME, and NEXT of a pointer. -/
def eFRAME (e : Pte) : Nat := bits e 63 36
/-- CVA, as an address. -/
def eCVA (e : Pte) : Nat := bits e 107 64 * 256
/-- BH. -/
def eBH (e : Pte) : Nat := bits e 119 108

/-- The entry with bits [lo + w - 1 : lo] replaced. -/
def eSet (e : Pte) (lo w v : Nat) : Pte :=
  BitVec.ofNat 128 (e.toNat - bits e (lo + w - 1) lo * 2 ^ lo + (v % 2 ^ w) * 2 ^ lo)

/-- The entry with one bit replaced. -/
def eBit (e : Pte) (i : Nat) (v : Bool) : Pte := eSet e i 1 (if v then 1 else 0)

/-- R14, R213: does a home agree with a tier? R14 asks for a die that owns the tier, and not that the die is present
(assumption 61). -/
def homeOk (tier : Nat) (hsh : Bool) (home : Nat) : Bool :=
  match tier with
  | 1 => !hsh && home < 8
  | 2 => if hsh then home = 0 else home < 8
  | 3 => !hsh && (home = 8 || home = 9)
  | _ => true

/-- R213: the bit position of the first malformed field of a leaf, in the order of R212's table. The rule of a large page's
FRAME[11:0] is not asked of an entry whose TIER is zero, since its FRAME holds a target tier (DESIGN CHOICE, assumption 23). -/
def malformedAt (e : Pte) (large : Bool) : Option Nat :=
  let tier := eTIER e
  let shr := eSHR e
  let target := bits e 38 36
  if (shr = 0 || shr = 1) && eOWN e then some 8
  else if shr = 2 && eOWN e != (tier = 4) && tier ≠ 0 then some 8
  else if shr = 3 then some 9
  else if shr = 2 && large then some 9
  else if 5 ≤ tier then some 11
  else if shr = 0 && tier = 4 then some 11
  else if shr = 1 && tier ≠ 4 then some 11
  else if shr = 2 && tier ≠ 2 && tier ≠ 3 && tier ≠ 4 then some 11
  else if eHSH e && (if tier = 0 then target ≠ 2 else tier ≠ 2) then some 14
  else if eHSH e && shr = 2 && eOWN e then some 14
  else if tier ≠ 4 && !homeOk (if tier = 0 then target else tier) (eHSH e) (eHOME e) then some 15
  else if 12 ≤ eFMT e then some 19
  else if 65 ≤ ePSZ e then some 23
  else if bits e 31 30 ≠ 0 then some 30
  else if eMV e = 3 then some 32
  else if bit e 35 then some 35
  else if tier = 0 && (target = 0 || 4 ≤ target || bits e 63 39 ≠ 0) then some 36
  else if large && tier ≠ 0 && eFRAME e % 4096 ≠ 0 then some 36
  else if eBH e ≠ 0 && (eWR e || tier ≠ 3) then some 108
  else if bits e 127 120 ≠ 0 then some 120
  else none

/-! ### Walks (R210, R222) -/

/-- A leaf found: the entry, where it stands, the first address it maps and whether it is large. -/
structure Leaf where
  entry : Pte
  at_ : Nat
  base : Nat
  large : Bool
  deriving DecidableEq, Repr

/-- What a translation finds; `failed` is a walk read that cannot be made (R222): its fault's code and detail. -/
inductive Xlate
  | leaf (l : Leaf)
  | none
  | malformed (bitPos : Nat)
  | failed (code : Code) (detail : Nat)
  deriving DecidableEq, Repr

/-- The entry at a physical address, as a die sees it. -/
def readPte (m : MemSys) (d : DieId) (a : Nat) : Pte := BitVec.ofNat 128 (ofBytes (viewBytes m d a 16))

/-- The entry at a physical address, at its home. -/
def homePte (m : MemSys) (a : Nat) : Pte :=
  BitVec.ofNat 128 (ofBytes ((List.range 16).map (fun i => homeByte m (a + i))))

/-- A pointer entry is malformed when a reserved bit is set (R211). -/
def pointerBad (e : Pte) : Option Nat :=
  if bits e 35 2 ≠ 0 then some 2 else if bits e 127 64 ≠ 0 then some 64 else none

/-- R210: the index of a virtual address at a level, 1 to 3. -/
def vaIndex (va level : Nat) : Nat := (va / 2 ^ (52 - 12 * level)) % 4096

/-- The tier and the home of a frame by its number: the model's layout of R13's memories in the 44-bit physical space,
which the spec does not give (assumption 30). -/
def frameHome (f : Nat) : Option (Nat × Nat) :=
  if f < 8 * 1572864 then some (2, f / 1572864)
  else if 2 ^ 24 ≤ f && f < 2 ^ 24 + 2 ^ 20 then some (1, (f - 2 ^ 24) / 2 ^ 17)
  else if 2 ^ 25 ≤ f && f < 2 ^ 26 then some (3, 8 + (f - 2 ^ 25) / 2 ^ 24)
  else none

/-- R12: the die that owns a table page, if the frame is one of the module's memories. -/
def tableHome (table : Nat) : Option DieId := (frameHome (table / 65536)).bind (fun p => dieNo p.2)

/-- The table page in which an entry stands. -/
def tableOf (at_ : Nat) : Nat := at_ / 65536 * 65536

/-- R12, R222, R376: why the home of a table page cannot give it: the die is lost, or an error that the code cannot
correct. -/
def tableLost (s : State) (table : Nat) : Option Xlate :=
  match tableHome table with
  | none => none
  | some h =>
    if dieGone s h then some (.failed .dielost h.val)
    else if (s.ms.badTables ++ s.ms.latent).contains (table / 65536) then some (.failed .eccu table)
    else none

/-- R12, R222, R352: why a die cannot read a table page: its home cannot give it, or is out of reach. -/
def tableFails (s : State) (d : DieId) (table : Nat) : Option Xlate :=
  match tableLost s table, tableHome table with
  | some x, _ => some x
  | none, some h => if h != d && !routeUp s d.val h.val then some (.failed .linkdown (downDetail s d.val h.val)) else none
  | none, none => none

/-- R210, R222: a walk from a table page at a level; `fuel` bounds the levels, and `fails` names what stops the reading of
a table page. -/
def walkFrom (fails : Nat → Option Xlate) (read : Nat → Pte) (va : Nat) : (fuel level table : Nat) → Xlate
  | 0, _, _ => .none
  | fuel + 1, level, table =>
    match fails table with
    | some x => x
    | Option.none =>
      let at_ := table + 16 * vaIndex va level
      let e := read at_
      if !eV e then .none
      else if eLF e then
        (if level = 1 then .malformed 1
         else if level = 2 then .leaf { entry := e, at_ := at_, base := va / 2 ^ 28 * 2 ^ 28, large := true }
         else .leaf { entry := e, at_ := at_, base := va / 2 ^ 16 * 2 ^ 16, large := false })
      else if level = 3 then .malformed 1
      else match pointerBad e with
        | some p => .malformed p
        | Option.none => walkFrom fails read va fuel (level + 1) (eFRAME e * 65536)

/-- A whole walk of a context's table by a die. -/
def walk (s : State) (d : DieId) (x : CtxId) (va : Nat) : Xlate :=
  walkFrom (tableFails s d) (readPte s.ms d) va 3 1 (getCtx s x).root.toNat

/-- The table page that a context's walk reads at level 2 or 3, following pointers in a cache (R222). -/
def cachedAt (tlb : List TlbEntry) (x : CtxId) (va level : Nat) : Option TlbEntry :=
  tlb.find? (fun t => t.ctx == x && t.level == level && va / 2 ^ (52 - 12 * level) * 2 ^ (52 - 12 * level) == t.base)

/-- The leaf that a cached entry gives. -/
def TlbEntry.leaf (t : TlbEntry) : Leaf :=
  { entry := t.entry, at_ := t.at_, base := t.base, large := t.level == 2 }

/-- R222, R224: the translation that a cache holds for an address; of two sizes the small one is used. -/
def cachedLeaf (tlb : List TlbEntry) (x : CtxId) (va : Nat) : Option Leaf :=
  match cachedAt tlb x va 3 with
  | some t => if eLF t.entry then some t.leaf else none
  | none =>
    match cachedAt tlb x va 2 with
    | some t => if eLF t.entry then some t.leaf else none
    | none => none

/-- The size of a companion area of a 64 KiB page (R64, R67), in whole units of CVA: in a large page the areas of its
pages follow one another at this distance, so that R224 can give each split page its own CVA (assumption 61). -/
def companionSize (fmt : Nat) : Nat :=
  match fmt with
  | 4 | 5 => 2048
  | 6 => 2816
  | 7 => 4096
  | 10 => 2304
  | _ => 0

/-- The leaf of the i-th page of a large page (R212, R224). -/
def splitEntry (e : Pte) (i : Nat) : Pte :=
  let e := if eTIER e = 0 then e else eSet e 36 28 (eFRAME e + i)
  if eCVA e = 0 then e else eSet e 64 44 ((eCVA e + companionSize (eFMT e) * i) / 256)

/-- R224: do entries of two sizes both match and translate differently? PIN takes no part in translation (R229). -/
def multiHit (tlb : List TlbEntry) (x : CtxId) (va : Nat) : Bool :=
  match cachedAt tlb x va 3, cachedAt tlb x va 2 with
  | some a, some b => eLF a.entry && eLF b.entry
      && eBit a.entry 5 false != eBit (splitEntry b.entry (va / 65536 % 4096)) 5 false
  | _, _ => false

/-- R222: the caches that an access of a core, or of a die's engine, may use. -/
def tlbsOf (s : State) (d : DieId) (core : Option CoreId) : List TlbEntry :=
  (match core with
   | some c => (getCore s c).tlb
   | none => []) ++ (getDie s d).tlb

/-- R222, R223: a translation, from a cache if one holds it, else by a walk of the die's view, which may start at a
cached pointer. -/
def translate (s : State) (d : DieId) (core : Option CoreId) (x : CtxId) (va : Nat) : Xlate :=
  let tlb := tlbsOf s d core
  match cachedLeaf tlb x va with
  | some l => .leaf l
  | none =>
    match cachedAt tlb x va 2 with
    | some t => if eLF t.entry then .leaf t.leaf else walkFrom (tableFails s d) (readPte s.ms d) va 1 3 (eFRAME t.entry * 65536)
    | none =>
      match cachedAt tlb x va 1 with
      | some t => walkFrom (tableFails s d) (readPte s.ms d) va 2 2 (eFRAME t.entry * 65536)
      | none => walk s d x va

/-- The leaf of an address as its home holds the entry, by a walk of bridge die 8's view. -/
def homeLeaf (s : State) (x : CtxId) (va : Nat) : Xlate :=
  if 2 ^ 52 ≤ va then .none
  else match walkFrom (tableLost s) (readPte s.ms 8) va 3 1 (getCtx s x).root.toNat with
    | .leaf l => .leaf { l with entry := homePte s.ms l.at_ }
    | r => r

/-- R224: invalidation of an address range of a context in one cache, with the pointers above it. -/
def dropRange (tlb : List TlbEntry) (x : CtxId) (lo hi : Nat) : List TlbEntry :=
  tlb.filter (fun t => t.ctx != x || t.base + 2 ^ (52 - 12 * t.level) ≤ lo || hi ≤ t.base)

/-- R230: invalidation on a die: its L2 TLB and its cores' TLBs. -/
def invalidateDie (s : State) (x : CtxId) (lo hi : Nat) (d : DieId) : State :=
  let s := modDie s d (fun k => { k with tlb := dropRange k.tlb x lo hi })
  foldAll s (allCores.filter (fun c => dieOf c == d)) (fun s c =>
    if (getCore s c).tlb.isEmpty then s else modCore s c (fun k => { k with tlb := dropRange k.tlb x lo hi }))

/-- R218: invalidation on every die of the context's touched-dies mask. -/
def invalidateTouched (s : State) (x : CtxId) (lo hi : Nat) : State :=
  foldAll s (allDies.filter (fun d => (getCtx s x).touched.getLsbD d.val)) (fun s d => invalidateDie s x lo hi d)

/-! ### Every leaf of a context's tables -/

/-- The indexes of a table page at which memory holds anything. -/
def usedEntries (m : MemSys) (table : Nat) : List Nat :=
  let hit (cs : List Host.Cell) : List Nat :=
    (cs.filter (fun c => table ≤ c.1 && c.1 < table + 65536)).map (fun c => (c.1 - table) / 16)
  (hit m.mem ++ m.writes.flatMap (fun w => hit w.cells) ++ m.unplaced.flatMap (fun w => hit w.cells)).dedup

/-- The leaves under a table page of a level (R210), but for those under a table page that its home cannot give (R12,
R222). -/
def leavesUnder (lost : Nat → Bool) (m : MemSys) : (fuel level table base : Nat) → List Leaf
  | 0, _, _, _ => []
  | fuel + 1, level, table, base => if lost table then [] else (usedEntries m table).flatMap (fun i =>
    let at_ := table + 16 * i
    let e := homePte m at_
    let va := base + i * 2 ^ (52 - 12 * level)
    if !eV e then []
    else if eLF e then (if level = 1 then [] else [{ entry := e, at_ := at_, base := va, large := level = 2 }])
    else if level = 3 || (pointerBad e).isSome then []
    else leavesUnder lost m fuel (level + 1) (eFRAME e * 65536) va)

/-- The leaves of a context. -/
def leavesOf (s : State) (x : CtxId) : List Leaf :=
  if (getCtx s x).st = .free then [] else leavesUnder (fun t => (tableLost s t).isSome) s.ms 3 1 (getCtx s x).root.toNat 0

/-! ### Physical addresses and homes (R214, R215) -/

/-- The physical address of a byte of a page. -/
def leafPa (l : Leaf) (va : Nat) : Nat := eFRAME l.entry * 65536 + (va - l.base)

/-- The key of a byte in the module's memory; window and host-owned pages are host memory (R220). -/
def leafKey (l : Leaf) (va : Nat) : Nat := if eTIER l.entry = 4 then hostKey (leafPa l va) else leafPa l va

/-- R215: the index of a granule in the interleave table. -/
def granuleIndex (pa : Nat) : Nat :=
  let g := pa / 4096
  (g % 64) ^^^ (g / 64 % 64) ^^^ (g / 4096 % 64) ^^^ (g / 262144 % 64) ^^^ (g / 16777216 % 64) ^^^ (g / 1073741824 % 4)

/-- R214, R215: the die that serves a byte. -/
def homeOfByte (s : State) (l : Leaf) (va : Nat) : DieId :=
  if eTIER l.entry = 4 then 8
  else if eHSH l.entry then s.boot.itable.get (Fin.ofNat 64 (granuleIndex (leafPa l va)))
  else Fin.ofNat 10 (eHOME l.entry)

/-- R212, R215: the frames that hashed pages map, as ranges: the first of each and how many. -/
def hashedFrames (s : State) : List (Nat × Nat) :=
  allCtxs.flatMap (fun x => ((leavesOf s x).filter (fun l => eTIER l.entry == 2 && eHSH l.entry)).map (fun l =>
    (eFRAME l.entry, if l.large then 4096 else 1)))

/-- R12, R214, R215: the die that homes a byte of the module's memory, by the frames that hashed pages map. Host memory stands
behind bridge die 8. -/
def keyHome (s : State) (hashed : List (Nat × Nat)) (a : Nat) : DieId :=
  if 2 ^ 44 ≤ a then 8
  else if hashed.any (fun r => r.1 ≤ a / 65536 && a / 65536 < r.1 + r.2) then s.boot.itable.get (Fin.ofNat 64 (granuleIndex a))
  else match frameHome (a / 65536) with
    | some p => Fin.ofNat 10 p.2
    | none => 8

/-- The dies that home the bytes of a write. -/
def writeHomes (s : State) (w : Write) : List DieId := (w.cells.map (fun c => keyHome s (hashedFrames s) c.1)).dedup

/-- R190, R349: may an unplaced write take its place now? Its source's earlier writes to its bytes have theirs, and its packet
has arrived at the home, unless that die is lost. -/
def canPlace (s : State) (before : List Write) (w : Write) : Bool :=
  before.all (fun v => v.src != w.src || !overlaps v.cells w.cells)
    && (writeHomes s w).all (fun h => w.reached.contains h || dieGone s h)

/-- R352: the packet of a write to a die is lost: the bytes that the die homes are never placed. -/
def loseWrite (s : State) (d : DieId) (id : Nat) : State :=
  let hashed := hashedFrames s
  reachWrite (modMs s (fun m => { m with unplaced := m.unplaced.map (fun w => if w.id = id
    then { w with cells := w.cells.filter (fun c => keyHome s hashed c.1 != d) } else w) })) d id

/-! ### Frames (R216, R379) -/

/-- Does a free range suit a page of a tier with a home, or hashed? -/
def FrameRange.suits (r : FrameRange) (tier : Nat) (hsh : Bool) (home : Nat) : Bool :=
  r.tier == tier && 0 < r.count && (hsh || r.home.val == home)

/-- Take the first frame of the first suitable range. -/
def takeFrom (tier : Nat) (hsh : Bool) (home : Nat) : List FrameRange → Option (Nat × List FrameRange)
  | [] => none
  | r :: rs =>
    if r.suits tier hsh home then
      some (r.first, if r.count = 1 then rs else { r with first := r.first + 1, count := r.count - 1 } :: rs)
    else (takeFrom tier hsh home rs).map (fun p => (p.1, r :: p.2))

/-- R216: a zero-filled frame for a context, if the Capo's pool has one. -/
def takeFrame (s : State) (x : CtxId) (tier : Nat) (hsh : Bool) (home : Nat) : Option (State × Nat) :=
  match takeFrom tier hsh home s.ms.free with
  | none => none
  | some (f, rest) =>
    let s := modMs s (fun m => { m with
      free := rest, owners := (f, x) :: m.owners.filter (fun o => o.1 != f), badTables := m.badTables.filter (· != f), latent := m.latent.filter (· != f)
      mem := Mem.clear m.mem (f * 65536) 65536
      writes := m.writes.map (fun w => { w with cells := w.cells.filter (fun c => c.1 / 65536 != f) })
      unplaced := m.unplaced.map (fun w => { w with cells := w.cells.filter (fun c => c.1 / 65536 != f) }) })
    some (s, f)

/-- A frame that the Capo has given to a context returns to the pool; a withdrawn frame does not (R377). -/
def freeFrame (s : State) (x : CtxId) (f : Nat) : State :=
  if !s.ms.owners.contains (f, x) then s
  else
    let s := modMs s (fun m => { m with owners := m.owners.filter (fun o => o.1 != f) })
    match frameHome f with
    | none => s
    | some (tier, home) =>
      if s.ms.withdrawn.contains f then s
      else modMs s (fun m => { m with
        free := m.free ++ [{ tier := tier, home := Fin.ofNat 10 home, first := f, count := 1 }] })

/-- The ranges without one frame. -/
def withoutFrame (f : Nat) (rs : List FrameRange) : List FrameRange :=
  rs.flatMap (fun r => if r.first ≤ f && f < r.first + r.count
    then [{ r with count := f - r.first }, { r with first := f + 1, count := r.first + r.count - (f + 1) }].filter (fun q => 0 < q.count)
    else [r])

/-- R224: a frame of the Capo's pool for a table page: of LPDDR6, or else of HBM4 (DESIGN CHOICE, assumption 61). -/
def takeTable (s : State) (x : CtxId) : Option (State × Nat) :=
  match takeFrame s x 3 false 8 with
  | some r => some r
  | none => match takeFrame s x 3 false 9 with
    | some r => some r
    | none => takeFrame s x 2 true 0

/-- R379: does a frame belong to another context? -/
def frameForeign (s : State) (x : CtxId) (pa : Nat) : Bool :=
  s.ms.owners.any (fun o => o.1 == pa / 65536 && o.2 != x)

/-- R380: a record in a die's violation log, which keeps the last 256. -/
def logViolation (s : State) (d : DieId) (srcDie srcCore ctx kind paddr : Nat) : State :=
  modDie s d (fun k =>
    let n := (match k.viol.getLast? with
      | some v => v.seq
      | none => 0) + 1
    let v : Violation := { seq := n, srcDie := srcDie, srcCore := srcCore, ctx := ctx, kind := kind, paddr := paddr
                           cycle := k.cycle }
    { k with viol := (k.viol ++ [v]).drop (k.viol.length + 1 - 256) })

end Sys2Proof.Machine
end

