-- ==== Sys2Proof/Machine/Stops.lean ====
section
/-! DEFINITION. How a word or an engine's iteration stops, fault records (R371, R372), the page moves that accesses begin
(R216 to R218), and the device's own stores, event records among them (R216, R238). -/

namespace Sys2Proof.Machine

/-- Why a word or an engine iteration does not complete now. Both carry the state with what the attempt has begun (a page
move, R216, R217); nothing of the word itself has taken effect. -/
inductive Stop
  | stall (s : State) (why : StallStep)
  | fault (s : State) (f : FaultInfo)
  deriving DecidableEq, Repr

/-- What a word's steps 7 and 8 give. -/
abbrev Res (α : Type) := Except Stop α

/-- Stall at a step (R33). -/
def stall {α : Type} (s : State) (w : StallStep) : Res α := .error (.stall s w)

/-- Raise a fault (R369). -/
def raise {α : Type} (s : State) (f : FaultInfo) : Res α := .error (.fault s f)

/-- A fault by its code, address, detail and aux (R371, R372). -/
def flt (c : Code) (addr : Word := 0) (detail : Word := 0) (aux : Word := 0) : FaultInfo :=
  { code := c, addr := addr, detail := detail, aux := aux }

/-- A number as a 64-bit field. -/
def w64 (n : Nat) : Word := BitVec.ofNat 64 n

/-- The number of a fault code (R368). -/
def Code.num : Code → Nat
  | .ok => 0 | .illop => 0x01 | .priv => 0x02 | .align => 0x03 | .prot => 0x04 | .notmapped => 0x05 | .fmt => 0x06
  | .queue => 0x07 | .ring => 0x08 | .barrier => 0x09 | .mask => 0x0A | .yieldstate => 0x0B | .eccu => 0x10
  | .poison => 0x11 | .gated => 0x12 | .resx => 0x13 | .hostpage => 0x14 | .dielost => 0x18 | .linkdown => 0x19
  | .digest => 0x1A | .shed => 0x20 | .cancelled => 0x21 | .slotovr => 0x22 | .trapsw => 0x23

/-- The 64 bytes of a fault record (R371). -/
def FaultInfo.bytes (f : FaultInfo) : List Byte :=
  toBytes 1 f.code.num ++ toBytes 1 f.unit ++ toBytes 1 f.flags.toNat ++ toBytes 1 f.index ++ toBytes 2 f.coreid.toNat
    ++ toBytes 2 0 ++ toBytes 8 f.pc.toNat ++ toBytes 8 f.addr.toNat ++ toBytes 8 f.opnum.toNat
    ++ toBytes 8 f.pos.toNat ++ toBytes 8 f.detail.toNat ++ toBytes 8 f.cycle.toNat ++ toBytes 8 f.aux.toNat

/-! ### Page moves that accesses begin (R216 to R218) -/

/-- The die present as its number says. -/
def presentNo (s : State) (n : Nat) : Bool :=
  match dieNo n with
  | some d => present s d
  | none => false

/-- R12, R223: a hardware update of an entry at its home, with its invalidation in the same step, so that every view holds
it at once (assumption 6); a table page whose home cannot give it takes none. -/
def writePte (s : State) (at_ : Nat) (e : Pte) : State :=
  if (tableLost s (tableOf at_)).isSome then s else enterAll s 8 (cellsAt at_ (toBytes 16 e.toNat))

/-- R224: split a large page into 4,096 leaves with a table frame of the Capo's pool. -/
def splitLarge (s : State) (x : CtxId) (l : Leaf) : Option State :=
  match takeTable s x with
  | none => none
  | some (s, f) =>
    let s := enterAll s 8 ((List.range 4096).flatMap (fun i =>
      cellsAt (f * 65536 + 16 * i) (toBytes 16 (splitEntry l.entry i).toNat)))
    let p : Pte := BitVec.ofNat 128 (1 + f * 2 ^ 36)
    some (invalidateTouched (writePte s l.at_ p) x l.base (l.base + 2 ^ 28))

/-- R23: the die whose migrator makes a move, where the move names it; for the Capo's own moves, bridge die 8. -/
def moverDie (by_ : MoveBy) (home : Nat) : Option DieId :=
  match by_ with
  | .migr d _ _ => some d
  | .wsload _ _ => dieNo home
  | .capo | .host => some 8
  | .access => none

/-- R218 step 1: a move of a page begins. -/
def beginMove (s : State) (by_ : MoveBy) (x : CtxId) (l : Leaf) (down : Bool) (tier : Nat) (hsh : Bool) (home f : Nat)
    (own : Bool) : State :=
  let s := match moverDie by_ home with
    | some d => touch s x d
    | none => s
  let (s, id) := takeId s
  let e := eBit (eSet l.entry 32 2 1) 34 down
  let s := writePte s l.at_ e
  let s := invalidateTouched s x l.base (l.base + 65536)
  modMs s (fun m => { m with moves := m.moves ++ [{
    id := id, by_ := by_, ctx := x, va := l.base, at_ := l.at_, entry := e, tier := tier, hsh := hsh, home := home
    frame := BitVec.ofNat 28 f, own := own, since := period s }] })

/-- R217: is there a resident page of a tier that is not pinned, other than the pages that an access needs? -/
def evictable (s : State) (tier : Nat) (x : CtxId) (need : List Nat) : Bool :=
  allCtxs.any (fun y => (leavesOf s y).any (fun l =>
    eTIER l.entry == tier && !ePIN l.entry && !(y == x && need.any (fun a => l.base == a / 65536 * 65536))))

/-- R217: no frame of a tier is free: RESX if every resident page is pinned or needed, else the access waits for one. -/
def noFrame (s : State) (tier : Nat) (x : CtxId) (need : List Nat) (va : Nat) : Stop :=
  if evictable s tier x need then .stall s .queues else .fault s (flt .resx (w64 va))

/-- R12, R223: a leaf as its home holds it, if that agrees but for PIN with the translation that an access found. -/
def currentLeaf (s : State) (l : Leaf) : Option Leaf :=
  let e := homePte s.ms l.at_
  if (tableLost s (tableOf l.at_)).isNone && eBit e 5 false = eBit l.entry 5 false then some { l with entry := e } else none

/-- R223: an access whose translation the home no longer holds goes on with the new one. -/
def staleEntry (s : State) (d : DieId) (x : CtxId) (l : Leaf) : Stop :=
  .stall (takeId (invalidateDie s x l.base (l.base + 1) d)).1 .queues

/-- R216, R217: a store of die d reaches a zero page: a frame is taken and the page moves up to its target tier, or
RESX. -/
def allocZero (s : State) (d : DieId) (x : CtxId) (l : Leaf) (need : List Nat) (va : Nat) : Stop :=
  match currentLeaf s l with
  | none => staleEntry s d x l
  | some l =>
    if l.large then
      match splitLarge s x l with
      | some s => .stall s .queues
      | none => noFrame s 3 x need va
    else
      let tier := bits l.entry 38 36
      match takeFrame s x tier (eHSH l.entry) (eHOME l.entry) with
      | some (s, f) => .stall (beginMove s .access x l false tier (eHSH l.entry) (eHOME l.entry) f false) .queues
      | none => noFrame s tier x need va

/-- R217: a device access to a host-owned flip page raises HOSTPAGE and begins its move up into HBM4, or raises RESX. Its home is the
first present die with a free frame (DESIGN CHOICE, assumption 23). -/
def flipUp (s : State) (d : DieId) (x : CtxId) (l : Leaf) (need : List Nat) (va : Nat) : Stop :=
  let home := (List.range 8).find? (fun d => presentNo s d && (takeFrom 2 false d s.ms.free).isSome)
  match currentLeaf s l, home with
  | none, _ => staleEntry s d x l
  | some _, none => noFrame s 2 x need va
  | some l, some h =>
    match takeFrame s x 2 false h with
    | some (s, f) => .fault (beginMove s .access x l false 2 false h f false) (flt .hostpage (w64 va))
    | none => noFrame s 2 x need va

/-- R216: a zero page of the device's own store gets its frame in one step. -/
def takeZeroFrame (s : State) (x : CtxId) (l : Leaf) : Option State :=
  match currentLeaf s l with
  | none => none
  | some l =>
    let tier := bits l.entry 38 36
    match takeFrame s x tier (eHSH l.entry) (eHOME l.entry) with
    | none => none
    | some (s, f) =>
      let e := eSet (eSet l.entry 11 3 tier) 36 28 f
      some (invalidateTouched (writePte s l.at_ e) x l.base (l.base + 65536))

/-! ### Event log (R238) -/

/-- R216: a store of the device reaches a zero page: it takes a frame of its target tier, filled through zero flags, where
the Capo's pool has one. -/
def deviceFrame (s : State) (x : CtxId) (va : Nat) : State :=
  let zero (l : Leaf) : Bool :=
    (malformedAt l.entry l.large).isNone && eWR l.entry && eTIER l.entry = 0 && !ePSN l.entry && bits l.entry 38 36 != 1
  match homeLeaf s x va with
  | .leaf l =>
    if !zero l then s
    else
      let s := if l.large then (splitLarge s x l).getD s else s
      (match homeLeaf s x va with
       | .leaf l => if !zero l || l.large then s else (takeZeroFrame s x l).getD s
       | _ => s)
  | _ => s

/-- R135, R216, R238, R379: the physical key of a byte of a context's space, for a die's own stores, if its page takes them
now: a host-owned flip page takes none, nor does a frame of another context. -/
def deviceKey (s : State) (d : DieId) (x : CtxId) (va : Nat) : Option Nat :=
  match homeLeaf s x va with
  | .leaf l =>
    let h := homeOfByte s l va
    if (malformedAt l.entry l.large).isNone && eWR l.entry && eTIER l.entry != 0 && eTIER l.entry != 1 && !ePSN l.entry
        && !(eTIER l.entry == 4 && (s.disp.linkDown || eSHR l.entry == 2))
        && !(eTIER l.entry != 4 && frameForeign s x (leafPa l va))
        && !dieGone s h && (h == d || routeUp s d.val h.val)
      then some (leafKey l va) else none
  | _ => none

/-- R238: write an event of a context: EVSEQ advances; the record is lost when its page does not take stores or the host
link is down. Only a context in a state other than FREE has a log. -/
def logEvent (s : State) (x : CtxId) (kind die core arg : Nat) (kinst : Word) (detail : Nat) : State :=
  let c := getCtx s x
  let n := c.evseq.toNat + 1
  let s := modCtx s x (fun c => { c with evseq := w64 n })
  let va := c.evlog.toNat + 32 * ((n - 1) % 4096)
  let s := deviceFrame s x va
  match deviceKey s 8 x va with
  | none => s
  | some k => enterAll s 8 (cellsAt k (toBytes 8 n ++ toBytes 1 kind ++ toBytes 1 die ++ toBytes 2 core ++ toBytes 4 arg
      ++ toBytes 8 kinst.toNat ++ toBytes 8 detail))

/-- The number of a context state (R231). -/
def CtxSt.num : CtxSt → Nat
  | .free => 0 | .loading => 1 | .ready => 2 | .running => 3 | .parked => 4 | .quiesced => 5 | .faulted => 6 | .lost => 7

/-- R233: a context changes state and writes a STATE event. -/
def setCtxSt (s : State) (x : CtxId) (t : CtxSt) : State :=
  let old := (getCtx s x).st
  if old = t then s
  else logEvent (modCtx s x (fun c => { c with st := t })) x 0x01 0xFF 0xFFFF (old.num + 256 * t.num) 0 0

end Sys2Proof.Machine
end

