-- ==== Sys2Proof/Machine/Residency.lean ====
section
/-! DEFINITION. Page-table entries at their home (R223), moves in progress and how they end (R217, R218), and what an
uncorrectable error does to a page (R217, R219). -/

namespace Sys2Proof.Machine

/-! ### Entries at their home (R223) -/

/-- R213: is a leaf malformed? -/
def leafBad (l : Leaf) : Bool := (malformedAt l.entry l.large).isSome

/-- The addresses that a leaf maps. -/
def leafSize (l : Leaf) : Nat := if l.large then 2 ^ 28 else 65536

/-- A hardware update of an entry, and the invalidation that goes with it (R218). -/
def updateLeaf (s : State) (x : CtxId) (l : Leaf) (e : Pte) : State :=
  invalidateTouched (writePte s l.at_ e) x l.base (l.base + leafSize l)

/-- An entry settled: MV = 00. -/
def settledPte (e : Pte) : Pte := eSet e 32 3 0

/-- R217: the page becomes POISONED. -/
def poisonPte (e : Pte) : Pte := eBit (settledPte e) 7 true

/-! ### Moves in progress -/

/-- The state with a move removed. -/
def dropMove (s : State) (id : Nat) : State :=
  modMs s (fun m => { m with moves := m.moves.filter (fun v => v.id != id) })

/-- The move of a page, if one is in progress. -/
def moveOf (s : State) (x : CtxId) (va : Nat) : Option Move :=
  s.ms.moves.find? (fun m => m.ctx == x && m.va / 65536 == va / 65536)

/-- The key of the first byte of the frame that an entry names. -/
def frameKey (e : Pte) : Nat := if eTIER e = 4 then hostKey (eFRAME e * 65536) else eFRAME e * 65536

/-- The frame that an entry names returns to the pool, if it is one of the device (R217). -/
def freePteFrame (s : State) (x : CtxId) (e : Pte) : State :=
  match eTIER e with
  | 1 | 2 | 3 => freeFrame s x (eFRAME e)
  | _ => s

/-- R228: an engine's plain write of one status byte; a page that does not take it loses it. -/
def putStatus (s : State) (d : DieId) (x : CtxId) (array : Word) (idx code : Nat) : State :=
  if array = 0 then s
  else
    let s := deviceFrame s x (array.toNat + idx)
    match deviceKey s d x (array.toNat + idx) with
    | some k => enterAs s d [] { ctx := some x, eng := true, agent := dieAgentNo d 8 } [(k, BitVec.ofNat 8 code)]
    | none => s

/-- The operation of a die's migrator takes the status of its page and goes on to the next. -/
def migrDone (s : State) (d : DieId) (op idx code : Nat) : State :=
  match (getDie s d).mgOps.find? (fun o => o.id == op) with
  | none => s
  | some o =>
    let s := putStatus s d o.ctx o.status idx code
    modDie s d (fun k => { k with mgOps := k.mgOps.map (fun o =>
      if o.id = op then { o with next := idx + 1, waiting := false } else o) })

/-- R235: a page of a WSLOAD has its status. -/
def wsDone (s : State) (x : CtxId) (idx code : Nat) : State :=
  match (getCaux s x).ws with
  | [] => s
  | w :: rest =>
    let s := putStatus s 8 x w.status idx code
    modCaux s x (fun a => { a with ws := { w with next := idx + 1 } :: rest })

/-- R225: the Capo's eviction at work on bridge die 8's migrator has had its page. -/
def evictionDone (s : State) : State :=
  modDie s 8 (fun k => { k with mgOps := k.mgOps.map (fun o =>
    if o.capo && o.waiting then { o with next := 1, waiting := false } else o) })

/-- Whoever ordered a move learns how it ended. -/
def moveEnded (s : State) (m : Move) (code : Nat) : State :=
  match m.by_ with
  | .migr d op idx => migrDone s d op idx code
  | .wsload x idx => wsDone s x idx code
  | .capo => if m.repair then s else evictionDone s
  | .access | .host => s

/-- The leaf that a move works on, with an entry. -/
def Move.leaf (m : Move) (e : Pte) : Leaf := { entry := e, at_ := m.at_, base := m.va, large := false }

/-- R217: a move is abandoned: its new frame is freed, and the page settles where it was unless software has changed the
entry. -/
def abandonMove (s : State) (m : Move) (code : Nat) : State :=
  let e := homePte s.ms m.at_
  let s := if eBit e 5 false = eBit m.entry 5 false then writePte s m.at_ (settledPte e) else s
  let s := invalidateTouched s m.ctx m.va (m.va + 65536)
  let s := if m.repair || m.tier = 4 then s else freeFrame s m.ctx m.frame.toNat
  moveEnded (dropMove s m.id) m code

/-! ### Poison and repair (R217, R219) -/

/-- R219: a page becomes REPAIRING. -/
def beginRepair (s : State) (x : CtxId) (l : Leaf) (e : Pte) : State :=
  let (s, id) := takeId s
  let e' := eSet e 32 2 2
  let s := updateLeaf s x l e'
  modMs s (fun m => { m with moves := m.moves ++ [{
    id := id, by_ := .capo, ctx := x, va := l.base, at_ := l.at_, entry := e', tier := 3, hsh := false, home := eHOME e
    frame := 0, own := false, repair := true, since := period s }] })

/-- R217: an uncorrectable error of a page. A page that was moving takes the row of the state it came from. Of a large
page that has a backing, the page of the error is split off first (R224); with no table frame free the large page is
POISONED, for no frame of its size could take the refetched bytes (assumption 63). -/
def pageError (s : State) (x : CtxId) (va : Nat) : State :=
  match homeLeaf s x va with
  | .leaf l =>
    let s := match moveOf s x va with
      | some m => if m.repair then s else abandonMove s m 5
      | none => s
    let e := homePte s.ms l.at_
    if eTIER e = 0 || eTIER e = 4 || ePSN e || eMV e = 2 then s
    else if eTIER e = 3 && eBH e ≠ 0 then
      if !l.large then beginRepair s x l e
      else match splitLarge s x { l with entry := e } with
        | none => updateLeaf s x l (poisonPte e)
        | some s => (match homeLeaf s x va with
          | .leaf p => beginRepair s x p p.entry
          | .none | .malformed _ | .failed _ _ => s)
    else updateLeaf s x l (poisonPte e)
  | .none | .malformed _ | .failed _ _ => s

/-- The pages that map a frame. -/
def pagesOfFrame (s : State) (f : Nat) : List (CtxId × Nat) :=
  allCtxs.flatMap (fun x => (leavesOf s x).filterMap (fun l =>
    let n := if l.large then 4096 else 1
    if 1 ≤ eTIER l.entry && eTIER l.entry ≤ 3 && eFRAME l.entry ≤ f && f < eFRAME l.entry + n
    then some (x, l.base + 65536 * (f - eFRAME l.entry)) else none))

/-- R137, R217, R323, R376: an access meets the uncorrectable error that a frame holds: each page that maps the frame takes
its row of R217, the frame's rows are due for a self-test, and the access goes on with the page as it then is. -/
def meetError (s : State) (f : Nat) : State :=
  let s := modMs s (fun m => { m with latent := m.latent.filter (· != f), badTables := (m.badTables ++ [f]).dedup })
  let s := { s with care := { s.care with tests := s.care.tests ++ [(.frame (BitVec.ofNat 28 f), s.cal.cycle)] } }
  (takeId (foldAll s (pagesOfFrame s f) (fun s p => pageError s p.1 p.2))).1

end Sys2Proof.Machine
end

