-- ==== Sys2Proof/Machine/Ops.lean ====
section
/-! DEFINITION. The operations every family shares: checked accesses to memory (R134 to R137, R216 to R219) and to the
scratchpad (R98, R134). -/

namespace Sys2Proof.Machine

/-! ### Checked accesses (R134 to R137) -/

/-- A run of bytes of one page: where they start, how many, the translation. -/
structure Part where
  va : Nat
  len : Nat
  leaf : Leaf
  deriving DecidableEq, Repr

/-- An access: the context, the die and core it is made on, and whether it stores. -/
structure Req where
  ctx : CtxId
  die : DieId
  core : Option CoreId
  wr : Bool
  ex : Bool := false
  /-- X has no TLB of its core (R222). -/
  byX : Bool := false
  /-- The access is to the companion area of a page, with that page's permission (R141). -/
  asPage : Bool := false
  /-- An engine makes the access (R327, R380). -/
  eng : Bool := false
  kinst : Word := 0
  deriving DecidableEq, Repr

/-- R222: the core whose TLB a request may use. -/
def Req.cache (q : Req) : Option CoreId := if q.byX then none else q.core

/-- The pages that a range of addresses spans. -/
def pagesOf (va len : Nat) : List (Nat × Nat) :=
  let first := Nat.min len (65536 - va % 65536)
  (va, first) :: (if first < len then [(va + first, len - first)] else [])

/-- Check 1 of R135: the address range. -/
def checkRange (s : State) (va : Word) (len : Nat) : Res Unit :=
  if va.toNat < 2 ^ 52 then
    (if va.toNat + len ≤ 2 ^ 52 then .ok () else raise s (flt .notmapped (w64 (2 ^ 52))))
  else raise s (flt .notmapped va)

/-- Check 2 of R135: alignment. -/
def checkAlign (s : State) (va : Word) (align : Nat) : Res Unit :=
  if va.toNat % align = 0 then .ok () else raise s (flt .align va (w64 align))

/-- R222, R372: a walk read that cannot be made faults at the access. R376 has no structure code for DRAM: a free value. -/
def walkFault {α : Type} (s : State) (c : Code) (va detail : Nat) : Res α :=
  if c = .eccu then raise { s with fresh := s.fresh + 1 } (flt .eccu (w64 va) (Config.freeWord s.fresh) (w64 detail))
  else raise s (flt c (w64 va) (w64 detail))

/-- Check 3 of R135 for one page: a translation must exist and the device must own the page; with the host link down the
host's pages cannot be reached (R366). A malformed entry is reported with permission. -/
def checkXlate (s : State) (q : Req) (need : List Nat) (va len : Nat) : Res (Part × Option Nat) :=
  match translate s q.die q.cache q.ctx va with
  | .none => raise s (flt .notmapped (w64 va))
  | .failed c d => walkFault s c va d
  | .malformed p => .ok ({ va := va, len := len, leaf := { entry := 0, at_ := 0, base := va, large := false } }, some p)
  | .leaf l =>
    match malformedAt l.entry l.large with
    | some p => .ok ({ va := va, len := len, leaf := l }, some p)
    | none =>
      if eTIER l.entry = 4 && eSHR l.entry = 2 then
        let s := touch s q.ctx 8
        (if s.disp.linkDown then raise s (flt .linkdown (w64 va) 0x200)
         else if eMV l.entry = 1 then raise s (flt .hostpage (w64 va))
         else .error (flipUp s q.die q.ctx l need va))
      else .ok ({ va := va, len := len, leaf := l }, none)

/-- Check 4 of R135 for one page: permission. -/
def checkPerm (s : State) (q : Req) (p : Part × Option Nat) : Res Part :=
  match p.2 with
  | some b => raise s (flt .prot (w64 p.1.va) 3 (w64 b))
  | none =>
    let e := p.1.leaf.entry
    if q.ex then (if eEX e then .ok p.1 else raise s (flt .prot (w64 p.1.va) 1))
    else if q.wr then
      (if !eWR e && !q.asPage then raise s (flt .prot (w64 p.1.va) 1)
       else if eTIER e = 1 || (eTIER e = 0 && bits e 38 36 = 1) then raise s (flt .prot (w64 p.1.va) 2)
       else .ok p.1)
    else if eRD e || q.asPage then .ok p.1 else raise s (flt .prot (w64 p.1.va) 1)

/-- The bytes of a part, as keys of memory; a byte that reads zero without a memory read has none (R137). -/
def partKeys (p : Part) : List (Option Nat) :=
  if eTIER p.leaf.entry = 0 || (ePSN p.leaf.entry && eZOP p.leaf.entry) then List.replicate p.len none
  else (List.range p.len).map (fun i => some (leafKey p.leaf (p.va + i)))

/-- The dies that serve a part (R23, R214, R215). -/
def partHomes (s : State) (p : Part) : List DieId :=
  if eTIER p.leaf.entry = 0 then []
  else ((List.range (p.len / 4096 + 2)).map (fun i =>
    homeOfByte s p.leaf (Nat.min (p.va + 4096 * i) (p.va + p.len - 1)))).dedup

/-- R329: does an overrun of the memory that holds a page of a context, or of its DRAM interface, still run? -/
def pageOverrun (s : State) (x : CtxId) (p : Part) : Bool :=
  s.care.overruns.any (fun o => match o.2 with
    | .dram y a => y == x && a.toNat / 65536 == p.va / 65536
    | .frame f => 1 ≤ eTIER p.leaf.entry && eTIER p.leaf.entry ≤ 3 && leafPa p.leaf p.va / 65536 == f.toNat
    | .dramBus d => 1 ≤ eTIER p.leaf.entry && eTIER p.leaf.entry ≤ 3 && (partHomes s p).contains d
    | _ => false)

/-- R376: the frame of a part, if it holds an error that nothing has met yet. -/
def latentAt (s : State) (p : Part) : Option Nat :=
  let f := leafPa p.leaf p.va / 65536
  if 1 ≤ eTIER p.leaf.entry && eTIER p.leaf.entry ≤ 3 && s.ms.latent.contains f then some f else none

/-- R23, R25: the home of a part is touched. -/
def touchPart (s : State) (q : Req) (p : Part) : State := touchAll s q.ctx (partHomes s p)

/-- R327: does a slot hold an access of a word: one that needs DRAM or a die link which the housekeeping has not released? What
a cache serves, which goes on, no state of the spec holds: a free value (assumption 39). -/
def slotHolds (s : State) (q : Req) (p : Part) : Bool :=
  inSlot s && q.core.isSome && !q.eng && !q.ex && 1 ≤ eTIER p.leaf.entry && eTIER p.leaf.entry ≤ 3
    && !Config.servedInSlot s.cal.cycle q.die.val p.va

/-- Check 6 of R135 for one page: poison, repair and moves (R137, R217, R218), then whether a slot holds the access (R327),
whether the home can be reached (R23, R352, R366) and serves the context (R379). -/
def checkData (s : State) (q : Req) (need : List Nat) (p : Part) : Res Unit :=
  let e := p.leaf.entry
  if ePSN e then (if q.wr || !eZOP e then raise (touchPart s q p) (flt .poison (w64 p.va)) else .ok ())
  else if eMV e = 2 || pageOverrun s q.ctx p then stall s .op
  else if q.wr && eMV e = 1 then stall s .queues
  else if q.wr && eTIER e = 0 then .error (allocZero s q.die q.ctx p.leaf need p.va)
  else if eTIER e = 4 && s.disp.linkDown then raise s (flt .linkdown (w64 p.va) 0x200)
  else if slotHolds s q p then stall s .op
  else if let some f := latentAt s p then stall (meetError s f) .op
  else
    let homes := partHomes s p
    match homes.find? (dieGone s) with
    | some d => raise s (flt .dielost (w64 p.va) (w64 d.val))
    | none =>
      match homes.find? (fun d => d != q.die && !routeUp s q.die.val d.val) with
      | some d => raise s (flt .linkdown (w64 p.va) (w64 (downDetail s q.die.val d.val)))
      | none =>
        if eTIER e != 4 && eTIER e != 0 && frameForeign s q.ctx (leafPa p.leaf p.va) then
          let home := homeOfByte s p.leaf p.va
          let s := logViolation s home q.die.val (match q.core with
            | some c => if q.eng then 0xFF else c.val % 16
            | none => 0xFF) q.ctx.val 1 (leafPa p.leaf p.va)
          raise s (flt .prot (w64 p.va) 7)
        else .ok ()

/-- Run a check over every page of an access before the next check begins (R135). -/
def forPages {α β : Type} (f : α → Res β) : List α → Res (List β)
  | [] => .ok []
  | a :: as => match f a with
    | .error e => .error e
    | .ok b => match forPages f as with
      | .error e => .error e
      | .ok bs => .ok (b :: bs)

/-- A whole access by R135, with a format check between permission and data: its parts. The range and the alignment are
checked before. -/
def accessParts (s : State) (q : Req) (va len : Nat) (fmt : List Part → Res Unit) : Res (List Part) := do
  let pages := pagesOf va len
  let need := pages.map (·.1)
  let ps ← forPages (fun (p : Nat × Nat) => checkXlate s q need p.1 p.2) pages
  let ps ← forPages (checkPerm s q) ps
  fmt ps
  let _ ← forPages (checkData s q need) ps
  .ok ps

/-- No format check. -/
def noFmt (_ : List Part) : Res Unit := .ok ()

/-- R319: how many bytes of an access a die's memory serves. -/
def bytesAt (s : State) (d : DieId) (ps : List Part) : Nat :=
  (ps.map (fun p => if eTIER p.leaf.entry = 0 || eTIER p.leaf.entry = 4 then 0
    else ((List.range p.len).filter (fun i => homeOfByte s p.leaf (p.va + i) == d)).length)).sum

/-- R319: the bytes that a die serves for a context count in the period. -/
def countBytes (s : State) (d : DieId) (x : CtxId) (n : Nat) : State :=
  let old := s.bud.cur.bytes
  let new := if old.any (fun b => b.1 == (d, x)) then old.map (fun b => if b.1 == (d, x) then (b.1, b.2 + n) else b)
    else old ++ [((d, x), n)]
  { s with bud := { s.bud with cur := { s.bud.cur with bytes := new } } }

/-- R319: the bytes of an access count at each home. -/
def noteBytes (s : State) (q : Req) (ps : List Part) : State :=
  foldAll s ((ps.filter (fun p => eTIER p.leaf.entry != 4)).flatMap (partHomes s)).dedup (fun s d =>
    countBytes s d q.ctx (bytesAt s d ps))

/-- The state after an access is served: its homes are touched (R23), its bytes are counted (R319), and a MULTIHIT is logged
(R224). -/
def served (s : State) (q : Req) (ps : List Part) : State :=
  let s := noteBytes (touchAll s q.ctx (ps.flatMap (partHomes s)).dedup) q ps
  foldAll s ps (fun s p =>
    if multiHit (tlbsOf s q.die q.cache) q.ctx p.va
    then logEvent s q.ctx 0x05 q.die.val ((q.core.map (·.val)).getD 0xFFFF) 0 q.kinst p.va else s)

/-- The keys of an access, in address order. -/
def keysOf (ps : List Part) : List (Option Nat) := ps.flatMap partKeys

/-- An access in the order range, alignment, translation, permission, data. -/
def access (s : State) (q : Req) (va : Word) (len align : Nat) : Res (State × List (Option Nat)) := do
  checkRange s va len
  checkAlign s va align
  let ps ← accessParts s q va.toNat len noFmt
  .ok (served s q ps, keysOf ps)

/-- The bytes at keys, as a bank of a die sees them. -/
def readKeys (s : State) (sb : List BufStore) (d : DieId) (ks : List (Option Nat)) : List Byte :=
  ks.map (fun k => match k with
    | some a => bankByte s.ms sb d a
    | none => 0)

/-- Cells for bytes at keys. -/
def keyCells (ks : List (Option Nat)) (bs : List Byte) : List Host.Cell :=
  (List.zip ks bs).filterMap (fun p => p.1.map (fun a => (a, p.2)))

/-! ### Scratchpad accesses (R98, R134) -/

/-- Does a scratchpad range touch the reserved top 512 KiB (R98)? -/
def spadReserved (off len : Nat) : Bool := 0x380000 < off + len && 0 < len

/-- Does it lie wholly in it? -/
def spadAllReserved (off len : Nat) : Bool := 0x380000 ≤ off && off + len ≤ 0x400000

/-- R98: may a bank's work touch a scratchpad range? -/
def spadAllowed (s : State) (c : CoreId) (b : BankId) (off len : Nat) : Bool :=
  match b with
  | .shadow => len = 0 || spadAllReserved off len
  | .active => !((getCore s c).urgen && spadReserved off len)

/-- R98: may a bank's work touch a tile? Reserved tiles are those ACCRES names. -/
def tileAllowed (s : State) (c : CoreId) (b : BankId) (t : Nat) : Bool :=
  let r := (getCore s c).accres
  let inRes := bits r 5 0 ≤ t && t < bits r 5 0 + bits r 12 8
  match b with
  | .shadow => inRes
  | .active => !((getCore s c).urgen && inRes)

/-- R98, R293: may a bank's work use a named barrier? -/
def nbAllowed (s : State) (c : CoreId) (b : BankId) (n : Nat) : Bool :=
  match b with
  | .shadow => 28 ≤ n
  | .active => !((getCore s c).urgen && 28 ≤ n)

/-- R376: is a unit of 128 bytes in a range marked? -/
def unitsBad (marks : List Nat) (off len : Nat) : Option Nat :=
  marks.find? (fun u => 0 < len && u * 128 < off + len && off < u * 128 + 128)

/-- R376: a whole write of a unit clears its mark. -/
def unitsWritten (marks : List Nat) (off len : Nat) : List Nat :=
  marks.filter (fun u => !(off ≤ u * 128 && u * 128 + 128 ≤ off + len))

/-- Scratchpad bytes. -/
def spadLoad (s : State) (c : CoreId) (off len : Nat) : List Byte := Mem.load (getCore s c).spad off len

/-- Write scratchpad bytes. -/
def spadStore (s : State) (c : CoreId) (off : Nat) (bs : List Byte) : State :=
  modCore s c (fun k => { k with spad := Mem.store k.spad off bs, badSpad := unitsWritten k.badSpad off bs.length })

/-- R194: the state in which a write to bytes of a core's scratchpad, in units of u bytes, has begun to race. -/
def noteRacing (s : State) (c : CoreId) (by_ : Option Agent) (u : Nat) (as : List Nat) : State :=
  modCore { s with fresh := s.fresh + 1 } c (fun k => { k with
    racing := as.map (fun a => { by_ := by_, free := s.fresh, unit := u, cell := (a, Mem.read k.spad a) }) ++ k.racing })

/-- R194, R342: scratchpad bytes are written, in units of u bytes, of which racing readers may see some before the others. -/
def spadWrite (s : State) (c : CoreId) (by_ : Option Agent) (u off : Nat) (bs : List Byte) : State :=
  spadStore (noteRacing s c by_ u ((List.range bs.length).map (off + ·))) c off bs

/-- R194: may a racing reader still see a byte that a write has replaced? A free value for its unit. -/
def Race.seen (x : Race) : Bool := Config.tornUnit x.free (x.cell.1 / x.unit)

/-- R194, R342: scratchpad bytes as a stream reads them: what other writers replace on this cycle may be read old or new. -/
def spadSeen (s : State) (g : Agent) (off len : Nat) : List Byte :=
  let r := (getCore s g.core).racing.filter (fun x => x.by_ != some g)
  if r.isEmpty then spadLoad s g.core off len
  else (List.range len).map (fun i => ((r.find? (fun x => x.cell.1 == off + i && x.seen)).map (·.cell.2)).getD
    (Mem.read (getCore s g.core).spad (off + i)))

/-- R92, R110: writes of a scratchpad that race no more: those that a test names. -/
def settleSpad (s : State) (c : CoreId) (done_ : Option Agent → Bool) : State :=
  if (getCore s c).racing.any (fun x => done_ x.by_) then
    modCore s c (fun k => { k with racing := k.racing.filter (fun x => !done_ x.by_) })
  else s

/-- The checks of a scratchpad access by a word or an engine of a bank: range (R134), alignment, R98, and marked units
where it reads (R376). -/
def spadCheck (s : State) (c : CoreId) (b : BankId) (off : Word) (len align : Nat) (rd : Bool) : Res Unit := do
  if 2 ^ 22 ≤ off.toNat then raise s (flt .notmapped off)
  if 2 ^ 22 < off.toNat + len then raise s (flt .notmapped (w64 (2 ^ 22)))
  checkAlign s off align
  if !spadAllowed s c b off.toNat len then raise s (flt .prot off 4)
  if rd then
    match unitsBad (getCore s c).badSpad off.toNat len with
    | some u => raise s (flt .eccu off 6 (w64 (u * 128)))
    | none => .ok ()

end Sys2Proof.Machine
end

