-- ==== Sys2Proof/Machine/Budget.lean ====
section
/-! DEFINITION. Clock levels (R18, R269), facility time, curves (R307), the tracking window (R309, R310) and the budget
log (R321). -/

namespace Sys2Proof.Machine

/-- R269: twelfths of an F0 cycle that one package cycle at a level lasts; a third of it is a nanosecond. -/
def levelM : Fin 4 → Nat
  | 0 => 12
  | 1 => 15
  | 2 => 20
  | 3 => 30

/-- Facility time in ns, truncated, or 0 without one. -/
def facilityNs (s : State) : Nat :=
  match s.cal.time with
  | some t => t / 36
  | none => 0

/-- The last point of a curve at or before a time, and the point after it. -/
def pointsAt : List Point → Nat → Option (Point × Option Point)
  | [], _ => none
  | p :: ps, t =>
    if t < p.time then none
    else match pointsAt ps t with
      | some r => some r
      | none => some (p, ps.head?)

/-- R307: the power of a curve at a time, in mW. -/
def Curve.power (c : Curve) (t : Nat) : Rat :=
  match pointsAt c.points t with
  | none => 0
  | some (p, none) => p.power
  | some (p, some q) =>
    if q.time = p.time then p.power
    else (p.power : Rat) + ((q.power : Rat) - p.power) * ((t - p.time : Nat) : Rat) / ((q.time - p.time : Nat) : Rat)

/-- R307: the grade that a curve requires at a time. -/
def Curve.grade (c : Curve) (t : Nat) : Nat :=
  match pointsAt c.points t with
  | none => 0
  | some (p, _) => p.grade

/-- The curve in force at a facility time in 36ths of a nanosecond, if one is (R307): a pending curve from its START on, else
the current curve before its END. -/
def curveAt (b : Budget) (t : Nat) : Option Curve :=
  match b.pending.filter (fun c => 36 * c.start ≤ t) with
  | some c => some c
  | none => b.current.filter (fun c => t < 36 * c.end_)

/-- The curve in force now (R307): none while the Capo has no facility time. -/
def curveInForce (s : State) : Option Curve := s.cal.time.bind (curveAt s.bud)

/-- R307: the curve value now, in mW. -/
def powerNow (s : State) : Rat :=
  match curveInForce s with
  | some c => c.power (facilityNs s)
  | none => s.bud.pfloor

/-- R307: the required grade now. -/
def gradeNow (s : State) : Nat :=
  match curveInForce s with
  | some c => c.grade (facilityNs s)
  | none => s.bud.gfloor

/-- R312: the highest grade the Capo may enter on its own; with no curve in force the floor names none. -/
def maxGradeNow (s : State) : Nat :=
  match curveInForce s with
  | some c => c.maxGrade
  | none => 0

/-- The time a measured window lasts, in 36ths of a nanosecond. -/
def windowTime (ms : List Measured) : Nat := (ms.map (fun m => m.time)).sum

/-- R309: the measured average of a window, in mW. -/
def measuredAverage (ms : List Measured) : Rat :=
  if windowTime ms = 0 then 0
  else ((ms.map (fun m => m.energy)).sum : Rat) * 36000 / (windowTime ms : Rat)

/-- R309: the target average of a window, in mW; `target` is the integral of P over the period, in mW times 36ths of
a nanosecond. -/
def targetAverage (ms : List Measured) : Rat :=
  if windowTime ms = 0 then 0 else (ms.map (fun m => m.target)).sum / (windowTime ms : Rat)

/-- R309: the tracking error E, in mW, of the last 64 measured periods. -/
def errorNow (s : State) : Rat :=
  let w := s.bud.window.take 64
  measuredAverage w - targetAverage w

/-- R310: the band B of a target, in mW. -/
def bandOf (target : Rat) : Rat := max (target / 50) 20000

/-- The completed periods of the tracking window, measured or not yet, newest first (R309). -/
def completed (s : State) : List Measured := (s.bud.closed.reverse ++ s.bud.window).take 64

/-- R310: B of the tracking window now; of the curve value before a period has completed. -/
def bandNow (s : State) (power : Rat) : Rat :=
  bandOf (if (completed s).isEmpty then power else targetAverage (completed s))

/-- R321: a record in the budget log, which keeps the last 1,024. -/
def budgetLog (s : State) (kind new old : Nat) (value : Int) : State :=
  let n := (match s.bud.log.getLast? with
    | some r => r.seq
    | none => 0) + 1
  let r : BudgetRec := { seq := n, kind := kind, new := new, old := old, time := facilityNs s, value := value }
  { s with bud := { s.bud with log := (s.bud.log ++ [r]).drop (s.bud.log.length + 1 - 1024) } }

/-- R311, R314: the cadence cap that a rung sets. -/
def rungCap : Nat → Nat
  | 0 => 8
  | 1 => 6
  | 2 => 4
  | 3 => 2
  | _ => 1

/-- R314: the clock level that a rung sets. -/
def rungLevel : Nat → Fin 4
  | 0 => 0
  | 1 => 1
  | 2 => 2
  | _ => 3

/-- R313, R315, R318: may a task of an energy class be started under the grade in force? -/
def classAllowed (s : State) (eclass : Fin 4) : Bool :=
  if 2 ≤ s.bud.grade then eclass = 0 else true

/-- A clean-up of E2 and E3 under shed is due (R318). -/
def shedding (s : State) : Bool := s.bud.grade = 3

end Sys2Proof.Machine
end

