-- ==== Sys2Proof/Machine/Tasks.lean ====
section
/-! DEFINITION. Tasks, node instances and kernels: starting a task (R83), freeing a bank, freezing one (R85, R247, R274),
park images (R239 to R241), row selection (R270), cancellation (R275) and retirement (R268, R276). -/

namespace Sys2Proof.Machine

/-! ### Kernels and node instances -/

/-- A kernel instance by its handle. -/
def findKern (s : State) (k : Word) : Option Kernel := s.disp.kerns.find? (fun x => x.kinst == k)

/-- The state with a kernel instance changed. -/
def modKern (s : State) (k : Word) (f : Kernel → Kernel) : State :=
  modDisp s (fun d => { d with kerns := d.kerns.map (fun x => if x.kinst = k then f x else x) })

/-- A node record of a kernel. -/
def getNode (s : State) (k : Word) (n : Nat) : Option Node := (findKern s k).bind (fun x => x.graph.nodes[n]?)

/-- A node instance. -/
def getInst (s : State) (k : Word) (n : Nat) : Option NodeInst := (findKern s k).bind (fun x => x.insts[n]?)

/-- The list with the element at an index changed. -/
def modAt {α : Type} (l : List α) (i : Nat) (f : α → α) : List α :=
  match l, i with
  | [], _ => []
  | a :: as, 0 => f a :: as
  | a :: as, i + 1 => a :: modAt as i f

/-- The state with a node instance changed. -/
def modInst (s : State) (k : Word) (n : Nat) (f : NodeInst → NodeInst) : State :=
  modKern s k (fun x => { x with insts := modAt x.insts n f })

/-- The state with a kernel's counts changed. -/
def modStats (s : State) (k : Word) (f : KernStats → KernStats) : State :=
  modKern s k (fun x => { x with stats := f x.stats })

/-- R245: a task with the priority and the energy class of its node. -/
def nodeTask (s : State) (t : Task) : Task :=
  match getNode s t.kinst t.node with
  | some n => { t with prio := n.prio, eclass := n.eclass }
  | none => t

/-- Is a task one of a node instance? -/
def Task.isOf (t : Task) (k : Word) (n : Nat) : Bool := t.kinst == k && t.node == n

/-- The banks that hold a task, with it. -/
def bankTasks (s : State) : List (CoreId × BankId × Task) :=
  allBanks.filterMap (fun (c, b) => ((getBank s c b).task).map (fun t => (c, b, t)))

/-- The task of an entry of a continuation-ready queue. -/
def readyTask (s : State) (r : Ready) : Option Task :=
  match r.what with
  | .start q => some q.task
  | .slot x n => ((getCaux s x).conts.find? (fun c => c.slot == n)).map (·.task)

/-- The task or continuation that a swap of a core has taken from its queues. -/
def entering (s : State) (c : CoreId) : Option Task :=
  match (getCore s c).swap with
  | .toShadow _ (.start q) => some q.task
  | .toShadow _ (.slot x n) => ((getCaux s x).conts.find? (fun c => c.slot == n)).map (·.task)
  | _ => none

/-- The task of an entry that waits for room. -/
def waitTask (s : State) (w : WaitEntry) : Option Task :=
  match w.what with
  | .engine q => some q.task
  | .ready r => readyTask s r

/-- Is a thing with a task one of a node instance's? -/
def taskIs (k : Word) (n : Nat) (t : Option Task) : Bool := t.any (fun t => t.isOf k n)

/-- Tasks of a node instance that stand in work queues of a core, or that its swap has taken from them. -/
def queuedOn (s : State) (k : Word) (n : Nat) (c : CoreId) : Nat :=
  let w := (getCore s c).work
  (match entering s c with
   | some t => if t.isOf k n then 1 else 0
   | none => 0) +
  ((w.tile ++ w.engine).filter (fun q => q.task.isOf k n)).length
    + (w.ready.filter (fun r => match readyTask s r with
        | some t => t.isOf k n
        | none => false)).length

/-- Tasks of a node instance that a core runs. -/
def runningOn (s : State) (k : Word) (n : Nat) (c : CoreId) : Nat :=
  ([BankId.active, .shadow].filter (fun b => match (getBank s c b).task with
    | some t => t.isOf k n
    | none => false)).length

/-- Every task of a node instance that has not ended, pool and queues included (R247). -/
def liveTasks (s : State) (k : Word) (n : Nat) : Nat :=
  (match getInst s k n with
   | some i => i.pool.length
   | none => 0)
  + (allCores.map (fun c => queuedOn s k n c + runningOn s k n c)).sum
  + (s.disp.waits.filter (fun w => taskIs k n (waitTask s w))).length
  + (match findKern s k with
     | some x => ((getCaux s x.ctx).conts.filter (fun c => c.task.isOf k n && !c.queued)).length
         + ((getCaux s x.ctx).images.filter (fun i => match i.bank.task with
             | some t => t.isOf k n
             | none => false)).length
     | none => 0)

/-! ### Placement (R271) -/

/-- R271: is a core eligible for an affinity? -/
def eligible (s : State) (affinity : BitVec 16) (c : CoreId) : Bool :=
  affinity.getLsbD (dieOf c).val && (getDie s (dieOf c)).st == .up && !(s.ctl.get c).fenced

/-- The first element that a score makes largest. -/
def argMax {α : Type} (score : α → Nat) : List α → Option α
  | [] => none
  | a :: as => match argMax score as with
    | none => some a
    | some b => if score a < score b then some b else some a

/-- The first element that a score makes smallest. -/
def argMin {α : Type} (score : α → Nat) : List α → Option α
  | [] => none
  | a :: as => match argMin score as with
    | none => some a
    | some b => if score b < score a then some b else some a

/-- Tasks of an instance on a die, queued or running. -/
def onDie (s : State) (k : Word) (n : Nat) (d : DieId) : Nat :=
  ((allCores.filter (fun c => dieOf c == d)).map (fun c => queuedOn s k n c + runningOn s k n c)).sum

/-- R271: the core that a task of an instance takes among those with room. -/
def placeCore (s : State) (k : Word) (n : Nat) (affinity : BitVec 16) (room : CoreId → Bool) : Option CoreId :=
  let ok := allCores.filter (fun c => eligible s affinity c && room c)
  match argMax (onDie s k n) ((ok.map dieOf).dedup) with
  | none => none
  | some d => argMin (fun c => (getCore s c).work.tile.length) (ok.filter (fun c => dieOf c == d))

/-! ### Interrupts, statuses, records for the host -/

/-- Raise an MSI-X vector. -/
def msix (s : State) (v : Nat) : State := modDisp s (fun d => { d with msix := v :: d.msix })

/-- R259: write a command's status at a host-physical address and raise the ring's interrupt if asked. -/
def writeStatus (s : State) (ring : Fin 16) (seq : BitVec 32) (statva : Word) (irq : Bool) (code : Nat) (result : Word) :
    State :=
  let s := if statva = 0 || s.disp.linkDown then s
    else enterAll s 8 (cellsAt (hostKey statva.toNat) (toBytes 4 seq.toNat ++ toBytes 1 code ++ toBytes 3 0
      ++ toBytes 8 result.toNat))
  if irq then msix s ring.val else s

/-- Plain stores of the device into a context's space, by die 8; a page that does not take stores loses them. -/
def deviceStore (s : State) (x : CtxId) (va : Nat) : List Byte → State
  | [] => s
  | b :: bs =>
    let s := deviceFrame s x va
    let s := match deviceKey s 8 x va with
      | some k => enterAll s 8 [(k, b)]
      | none => s
    deviceStore s x (va + 1) bs

/-! ### Starting a task (R83, R167, R277) -/

/-- Registers set from a list. -/
def setRegs (v : Vector Word 32) : List (Nat × Word) → Vector Word 32
  | [] => v
  | (i, x) :: l => setRegs (vset v (Fin.ofNat 32 i) x) l

/-- R83: a stream at the start of a task. -/
def freshStream (pc : Word) : StreamSt := { run := .running, pc := pc.setWidth 52 }

/-- R83: a bank at the start of a task; its timeline counters keep their values. -/
def freshBank (old : Bank) (t : Task) (st : Start) : Bank :=
  { task := some t
    l := freshStream st.pc, x := freshStream st.pc, s := freshStream st.pc
    a := { l := setRegs (Vector.replicate 32 0) st.la, s := setRegs (Vector.replicate 32 0) st.sa }
    vec := { v := (Vector.replicate 32 0).set 0 st.v0 }
    sregs := { srseed := t.seed }
    eng := { tl := old.eng.tl, issued := old.eng.issued }
    pk := { seed := t.seed } }

/-- R256: a bank that resumes from a continuation record; `views` are the bank's view offsets by R243. -/
def contBank (old : Bank) (c : Cont) (views : List Word) : Bank :=
  let b := freshBank old c.task { pc := c.pcL }
  let lv := (List.range 32).filter (fun i => c.live.getLsbD i)
  let named := List.zip lv c.vecs
  let v := named.foldl (fun (v : Vector Vec 32) p => if p.1 < 16 then vset v (Fin.ofNat 32 p.1) p.2 else v) b.vec.v
  let h := named.foldl (fun (h : Vector Entry 16) p =>
    if 16 ≤ p.1 then vset h (Fin.ofNat 16 (p.1 - 16)) { val := p.2 } else h) b.vec.h
  let regs (l : List Word) := setRegs (Vector.replicate 32 0) (List.zip (List.range 8) l)
  let lc (k : Nat) := Vector.ofFn (fun (i : Fin 4) => (c.lc[4 * k + i.val]?).getD 0)
  { b with
    l := freshStream c.pcL, x := freshStream c.pcX, s := freshStream c.pcS
    lr := { b.lr with lc := lc 0 }, xr := { b.xr with lc := lc 1 }, sr := { b.sr with lc := lc 2 }
    a := { b.a with l := regs c.aL, s := regs c.aS }
    vec := { b.vec with v := v, h := h }
    eng := { b.eng with view := Vector.ofFn (fun (i : Fin 10) => (views[i.val]?).getD 0) } }

/-- R98: the part of a store of tiles that is reserved, or the part that is not. -/
def tilePart (accres : BitVec 13) (reserved : Bool) (m : Mem) : Mem :=
  let lo := 65536 * bits accres 5 0
  let hi := lo + 65536 * bits accres 12 8
  m.filter (fun c => (lo ≤ c.1 && c.1 < hi) == reserved)

/-- The part of a scratchpad that is reserved, or the part that is not (R98). -/
def spadPart (reserved : Bool) (m : Mem) : Mem := m.filter (fun c => (0x380000 ≤ c.1) == reserved)

/-- R98: does a 128-byte unit of the store of tiles lie in the reserved tiles? -/
def unitReserved (accres : BitVec 13) (u : Nat) : Bool :=
  let lo := 65536 * bits accres 5 0
  lo ≤ u * 128 && u * 128 < lo + 65536 * bits accres 12 8

/-- R98, R167, R293: what is not reserved of a core's stores and barriers is made zero. -/
def zeroActive (k : Core) : Core :=
  { k with
    spad := spadPart true k.spad, acc := tilePart k.accres true k.acc
    badSpad := k.badSpad.filter (fun u => 0x380000 ≤ u * 128), badAcc := k.badAcc.filter (unitReserved k.accres)
    nb := Vector.ofFn (fun (i : Fin 32) => if 28 ≤ i.val then k.nb.get i else {}) }

/-- R167, R293: the core passes to another context: tiles, scratchpad and named barriers are cleared, but for what an
urgent task that runs there has reserved (R98, R242). -/
def passContext (s : State) (c : CoreId) (x : CtxId) : State :=
  let me := (x, (getCaux s x).epoch)
  if (s.ctl.get c).owner = some me then s
  else
    let s := modCtl s c (fun k => { k with owner := some me })
    modCore s c (fun k => if k.urgen then zeroActive k else { k with
      spad := [], acc := [], badSpad := [], badAcc := [], nb := Vector.replicate 32 {} })

/-- The trace record kind of a task (R277). -/
def TaskKind.num : TaskKind → Nat
  | .member => 0 | .spawned => 1 | .renq => 2 | .cont => 3 | .handler _ => 4

/-- A record of a dispatch trace (R277). -/
structure TraceRec where
  seq : Nat
  node : Nat
  core : Nat
  row : Nat
  kind : Nat
  rank : Nat
  deriving DecidableEq, Repr

/-- R278: does a trace bind the kernel's dispatch? -/
def Kernel.bound (k : Kernel) : Bool := k.graph.tmode = 2 && !k.stats.unbound

/-- The bytes of the trace record with a given index, as the dispatcher's die sees them. -/
def traceBytes (s : State) (k : Kernel) (n : Nat) : List Byte :=
  (List.range 32).map (fun i => match translate s 8 none k.ctx (k.graph.trace.toNat + 32 * n + i) with
    | .leaf l => if eTIER l.entry = 0 then 0 else viewByte s.ms 8 (leafKey l (k.graph.trace.toNat + 32 * n + i))
    | _ => 0)

/-- R277: the records of a trace from an index on, up to the first whose SEQ is not its own. -/
def traceRecs (s : State) (k : Kernel) : (fuel n : Nat) → List TraceRec
  | 0, _ => []
  | fuel + 1, n =>
    let bs := traceBytes s k n
    let field (i len : Nat) := ofBytes ((bs.drop i).take len)
    if field 0 8 = n + 1 then
      { seq := n + 1, node := field 8 2, core := field 10 2, row := field 12 1, kind := field 13 1, rank := field 16 4 }
        :: traceRecs s k fuel (n + 1)
    else []

/-- R278: the core that serves a core's list: itself, or the same core of the next eligible die. -/
def replayCore (s : State) (k : Kernel) (r : TraceRec) : Option CoreId :=
  let aff := ((k.graph.nodes[r.node]?).map (·.affinity)).getD 0
  ((List.range 8).filterMap (fun i => coreNo (16 * ((r.core / 16 + i) % 8) + r.core % 16))).find? (eligible s aff)

/-- The records that no start has consumed. -/
def openRecs (s : State) (k : Kernel) : List TraceRec :=
  (traceRecs s k k.graph.tcap 0).filter (fun r => !k.replayed.contains r.seq)

/-- R278: does a start match a record: in node, kind and class? -/
def TraceRec.fits (r : TraceRec) (k : Kernel) (t : Task) (kind : Nat) : Bool :=
  let cls (i : Nat) := ((k.graph.nodes[t.node]?).bind (fun n => n.rows[i]?)).map (·.cls)
  r.node == t.node && r.kind == kind && cls r.row == cls t.row

/-- R278: the open record of a start: the one of its rank, or, where none has it, the first that matches. -/
def recordOf (recs : List TraceRec) (k : Kernel) (t : Task) (kind : Nat) : Option TraceRec :=
  let ms := recs.filter (fun r => r.fits k t kind)
  match ms.find? (fun r => r.rank == t.rank) with
  | some r => some r
  | none => ms.head?

/-- R278: the open record of a start on a core: of those that the core serves. -/
def recordAt (s : State) (k : Kernel) (c : CoreId) (t : Task) (cont : Bool) : Option TraceRec :=
  recordOf ((openRecs s k).filter (fun r => replayCore s k r == some c)) k t (if cont then 3 else t.kind.num)

/-- R278: the core that a bound trace gives a start, if the trace has a record of it: `some none` where none serves it. -/
def replayPlace (s : State) (t : Task) (cont : Bool) : Option (Option CoreId) :=
  match findKern s t.kinst with
  | none => none
  | some k => if k.bound then (recordOf (openRecs s k) k t (if cont then 3 else t.kind.num)).map (replayCore s k) else none

/-- R278: may a core start a task of a kernel now? It starts the tasks recorded for it in ascending SEQ. A start without a
record is free, and unbinds the rest. -/
def replayAllows (s : State) (c : CoreId) (t : Task) (cont : Bool) : Bool :=
  match findKern s t.kinst with
  | none => true
  | some k =>
    if !k.bound then true
    else match recordAt s k c t cont with
      | none => true
      | some r => (openRecs s k).all (fun q => r.seq ≤ q.seq || replayCore s k q != some c)

/-- R277, R278: a task start is recorded or consumes a record. -/
def traceStart (s : State) (c : CoreId) (t : Task) (cont : Bool) : State :=
  match findKern s t.kinst with
  | none => s
  | some k =>
    let n := k.stats.traceN
    if k.graph.tmode = 1 then
      if n < k.graph.tcap then
        let s := deviceStore s k.ctx (k.graph.trace.toNat + 32 * n)
          (toBytes 8 (n + 1) ++ toBytes 2 t.node ++ toBytes 2 c.val ++ toBytes 1 t.row
            ++ toBytes 1 (if cont then 3 else t.kind.num) ++ toBytes 2 0 ++ toBytes 4 t.rank ++ toBytes 12 0)
        modStats s t.kinst (fun x => { x with traceN := n + 1 })
      else modStats s t.kinst (fun x => { x with truncated := true })
    else if k.bound then
      match recordAt s k c t cont with
      | some r => modKern s t.kinst (fun y => { y with
          replayed := r.seq :: y.replayed, stats := { y.stats with traceN := n + 1 } })
      | none => modStats s t.kinst (fun x => { x with unbound := true })
    else s

/-- R292: a forwarded task runs in the active bank of a core now. -/
def forwardTo (s : State) (x : CtxId) (task : Word) (c : CoreId) : State :=
  if (getCaux s x).fwd.any (fun f => f.task == task) then
    modCaux s x (fun a => { a with fwd := a.fwd.map (fun f => if f.task = task then { f with to_ := some c } else f) })
  else s

/-- What every start of a task in a bank does beside the bank: the trace, the counts, the touched die, the context's
state (R23, R233, R276). -/
def noteStart (s : State) (c : CoreId) (t : Task) (cont : Bool) : State :=
  let s := settleSpad (traceStart s c t cont) c (fun _ => true)
  let s := forwardTo s t.ctx t.key c
  let s := touch s t.ctx (dieOf c)
  let s := if (getCtx s t.ctx).st = .parked then setCtxSt s t.ctx .running else s
  if cont || t.kind = .cont then s
  else
    let s := modInst s t.kinst t.node (fun i => { i with started := i.started + 1 })
    modStats s t.kinst (fun x => { x with tasks := x.tasks + 1 })

/-- R98, R293: the reserved tiles and scratchpad of a core are made zero, and its reserved barriers UNINIT. -/
def zeroReserved (s : State) (c : CoreId) : State :=
  modCore s c (fun k =>
    let lo := 65536 * bits k.accres 5 0
    let hi := lo + 65536 * bits k.accres 12 8
    { k with
      spad := k.spad.filter (fun x => x.1 < 0x380000)
      acc := k.acc.filter (fun x => !(lo ≤ x.1 && x.1 < hi))
      badSpad := k.badSpad.filter (fun u => u * 128 < 0x380000)
      badAcc := k.badAcc.filter (fun u => !(lo ≤ u * 128 && u * 128 < hi))
      nb := Vector.ofFn (fun (i : Fin 32) => if 28 ≤ i.val then {} else k.nb.get i) })

/-- R98, R167, R237: the reserved resources pass to another context's urgent task. -/
def passShadow (s : State) (c : CoreId) (x : CtxId) : State :=
  let me := (x, (getCaux s x).epoch)
  if (s.ctl.get c).sOwner = some me then s
  else zeroReserved (modCtl s c (fun k => { k with sOwner := some me })) c

/-- What a bank's new task finds of the core's stores and barriers. -/
def passBank (s : State) (c : CoreId) (b : BankId) (x : CtxId) : State :=
  match b with
  | .active => passContext s c x
  | .shadow => passShadow s c x

/-- What stands beside a bank when a task enters or leaves it. -/
def cleanAux (a : BankAux) : BankAux :=
  { a with freeze := none, ktrig := false, gang := false, hold := none, acquired := [] }

/-- R83: a new task starts in a bank. -/
def startTask (s : State) (c : CoreId) (b : BankId) (q : QTask) : State :=
  let s := passBank s c b q.task.ctx
  let s := modBank s c b (fun k => freshBank k q.task q.start)
  noteStart (modAux s c b cleanAux) c q.task false

/-- A counter of a die, in the order cp0 to cp7, mg, co (R45). -/
def dieCounter (s : State) (d : DieId) (i : Fin 10) : Word :=
  if h : i.val < 8 then ((getDie s d).cp.get ⟨i.val, h⟩).count
  else if i.val = 8 then (getDie s d).mg else (getDie s d).co

/-- R243: the view offsets that keep V at a new die. -/
def viewOffsets (s : State) (d : DieId) (vs : List Word) : List Word :=
  (List.range 10).map (fun i => (vs[i]?).getD 0 - dieCounter s d (Fin.ofNat 10 i))

/-- R254, R256: a continuation starts in a bank, and its slot is freed. -/
def startCont (s : State) (c : CoreId) (b : BankId) (x : CtxId) (k : Cont) : State :=
  let s := passBank s c b x
  let s := modBank s c b (fun old => contBank old k (viewOffsets s (dieOf c) k.viewV))
  let s := modCaux s x (fun a => { a with conts := a.conts.filter (fun y => y.slot != k.slot) })
  noteStart (modAux s c b cleanAux) c k.task true

/-! ### Freeing a bank (R84, R99, R174) -/

/-- A bank that holds no task; its timeline counters stay. -/
def emptyBank (old : Bank) : Bank := { eng := { tl := old.eng.tl, issued := old.eng.issued } }

/-- The bank is freed; when it was the running shadow bank, the swap back begins (R99). -/
def freeBank (s : State) (c : CoreId) (b : BankId) : State :=
  let s := modBank s c b emptyBank
  let s := modAux s c b (fun a => { cleanAux a with hold := a.hold })
  if b = .shadow && (getCore s c).swap = .urgent
  then modCore s c (fun k => { k with swap := .toActive (s.cal.cycle + 64) }) else s

/-- R174: every accepted record and stream-engine operation of the bank is discarded and its counter takes its number. -/
def discardOps (k : Bank) : Bank := { k with eng := { k.eng with recs := [], ops := Vector.replicate 8 [], tl := k.eng.issued } }

/-- R225, R251: the copy, migrator and collective operations of a task are discarded but for what has begun, and so are its
atomics that wait for a decision about their fault. -/
def discardDieOps (s : State) (task : Word) : State :=
  let s := modMs s (fun m => { m with atomics := m.atomics.filter (fun r => r.task != task || !r.faulted) })
  { s with dies := s.dies.map (fun d => { d with
      cp := d.cp.map (fun k => { k with ops := k.ops.map (fun o => if o.task = task then { o with discarded := true } else o) })
      mgOps := d.mgOps.map (fun o => if o.task = task then { o with discarded := true } else o)
      coOps := d.coOps.map (fun o => if o.task = task then { o with discarded := true, aborts := true } else o) }) }

/-- R292: the task's forwarding entry is removed. -/
def dropForward (s : State) (x : CtxId) (task : Word) : State :=
  modCaux s x (fun a => { a with fwd := a.fwd.filter (fun f => f.task != task) })

/-- R373: a task that was frozen is frozen no more. -/
def dropFrozen (s : State) (x : CtxId) (task : Word) : State :=
  modCaux s x (fun a => { a with frozen := a.frozen.filter (fun f => f.1 != task) })

/-! ### Park images (R239 to R241) -/

/-- The number of a counter of the bank, in R45's order. -/
def bankTl (k : Bank) : List Word := k.eng.tl.toList

/-- R243: V for each die counter. -/
def viewV (s : State) (d : DieId) (k : Bank) : List Word :=
  (List.range 10).map (fun i =>
    let j := Fin.ofNat 10 i
    let v := dieCounter s d j + k.eng.view.get j
    let l := k.eng.lastDie.get j
    if l = 0 then v else (let m := l + k.eng.view.get j; if v.toNat < m.toNat then m else v))

/-- The bytes of a register file. -/
def wordsBytes (l : List Word) : List Byte := l.flatMap (fun w => toBytes 8 w.toNat)

/-- R240: which 128-byte lines of a store read zero whole. -/
def zeroLines (m : Mem) (lines : Nat) : List Bool :=
  let used := (m.map (fun c => c.1 / 128)).dedup
  (List.range lines).map (fun i => !used.contains i)

/-- R240: the bytes of a store's lines that are not zero, each line whole, at another base. -/
def storeCells (m : Mem) (base : Nat) : List Host.Cell :=
  ((m.map (fun c => c.1 / 128)).dedup).flatMap (fun l => cellsAt (base + 128 * l) (Mem.load m (128 * l) 128))

/-- Bytes from bits, bit 0 of byte 0 first. -/
def bitBytes : List Bool → List Byte
  | b0 :: b1 :: b2 :: b3 :: b4 :: b5 :: b6 :: b7 :: l =>
    BitVec.ofNat 8 ((if b0 then 1 else 0) + (if b1 then 2 else 0) + (if b2 then 4 else 0) + (if b3 then 8 else 0)
      + (if b4 then 16 else 0) + (if b5 then 32 else 0) + (if b6 then 64 else 0) + (if b7 then 128 else 0)) :: bitBytes l
  | _ => []

/-- R240: the parts of an image that VERSION lays out: free values, since only the device reads them. The model keeps what
they hold beside the bytes. -/
def imageHidden (n base : Nat) : List Host.Cell :=
  [(0x1128, 0x2D8), (0x1528, 0x2D8), (0x1868, 0x398), (0x13000, 0x1000)].flatMap (fun p =>
    (List.range p.2).map (fun i => (base + p.1 + i, Config.imageRest n (p.1 + i))))

/-- R240, R241: the bytes of an image, at a slot's address. -/
def imageCells (n : Nat) (img : ParkImg) (base : Nat) : List Host.Cell :=
  let k := img.bank
  let t := k.task
  let vec (v : Vec) := vecBytes v
  let qd (n : Nat) := if n < 12 then 16 else 8
  let hdr := toBytes 2 1 ++ toBytes 1 (if img.shadow then 1 else 0) ++ toBytes 1 0 ++ toBytes 4 img.core.val
    ++ toBytes 8 ((t.map (fun t => t.handle.toNat)).getD 0) ++ toBytes 8 ((t.map (fun t => t.kinst.toNat)).getD 0)
    ++ toBytes 4 ((t.map (fun t => t.node)).getD 0) ++ toBytes 4 0 ++ toBytes 8 img.pseq.toNat
    ++ wordsBytes (bankTl k) ++ wordsBytes img.viewV ++ wordsBytes img.last
  cellsAt base (hdr ++ List.replicate (4096 - hdr.length) 0)
  ++ imageHidden n base
  ++ cellsAt (base + 0x14000) (List.replicate 0xC000 0)
  ++ cellsAt (base + 0x1000) (toBytes 8 k.l.pc.toNat ++ wordsBytes k.a.l.toList ++ wordsBytes k.lr.lc.toList)
  ++ cellsAt (base + 0x1400) (toBytes 8 k.s.pc.toNat ++ wordsBytes k.a.s.toList ++ wordsBytes k.sr.lc.toList)
  ++ cellsAt (base + 0x1800) (toBytes 8 k.x.pc.toNat ++ wordsBytes k.xr.lc.toList ++ wordsBytes k.vec.m.toList)
  ++ cellsAt (base + 0x1C00) (k.vec.v.toList.flatMap vec)
  ++ cellsAt (base + 0x3C00) (k.vec.h.toList.flatMap (fun e => vec e.val))
  ++ cellsAt (base + 0x5000) ((List.range 16).flatMap (fun n =>
      let es := (k.q.get (Fin.ofNat 16 n)).items.map (fun e => e.val)
      (es ++ List.replicate (qd n - es.length) 0).flatMap vec))
  ++ storeCells img.acc (base + 0x20000)
  ++ storeCells img.spad (base + 0x320000)
  ++ cellsAt (base + 0x720000) (bitBytes (zeroLines img.acc 24576 ++ zeroLines img.spad 32768))

/-- R253: the continuation area of a context: one of 64 below the park areas of bridge die 8 (assumption 30). -/
def contArea (x : CtxId) : Nat :=
  65536 * (2 ^ 25 + 2 ^ 24 - 2 ^ 21 - 2 ^ 16) + 2 ^ 26 * ((Config.parkFirst + x.val) % 64)

/-- R253: the bytes of a continuation record, in its slot of the context's area. -/
def contCells (r : Cont) : List Host.Cell :=
  cellsAt (contArea r.task.ctx + 8192 * r.slot)
    (wordsBytes ([r.pcL, r.pcX, r.pcS] ++ r.lc ++ r.aL ++ r.aS ++ [r.task.handle]) ++ r.vecs.flatMap vecBytes)

/-- The lowest free park slot of a context, if it has one (R240). -/
def freeSlot (a : CtxAux) : Option Nat := (List.range 256).find? (fun i => a.images.all (fun m => m.slot != i))

/-- R233: RUNNING becomes PARKED when no task of the context runs while images of it are held. -/
def settleParked (s : State) (x : CtxId) : State :=
  if (getCtx s x).st = .running && !(getCaux s x).images.isEmpty && (bankTasks s).all (fun t => t.2.2.ctx != x)
  then setCtxSt s x .parked else s

/-- R239 steps 4 and 5: the bank is imaged and freed, TPARK rises and a PARK event is written. While no slot is free the bank
waits (DESIGN CHOICE, assumption 67). -/
def parkBank (s : State) (c : CoreId) (b : BankId) : State :=
  let gang := (getAux s c b).gang
  let core := getCore s c
  let k := core.bank b
  match k.task, k.task.bind (fun t => freeSlot (getCaux s t.ctx)) with
  | none, _ | some _, none => s
  | some t, some slot =>
    let x := t.ctx
    let accFull := core.acc
    let acc := match b with
      | .shadow => tilePart core.accres true accFull
      | .active => if core.urgen then tilePart core.accres false accFull else accFull
    let spad := match b with
      | .shadow => spadPart true core.spad
      | .active => if core.urgen then spadPart false core.spad else core.spad
    let nb := match b with
      | .shadow => core.nb.toList.drop 28
      | .active => if core.urgen then core.nb.toList.take 28 else core.nb.toList
    let s := drainAll s c b
    let s := logEvent s x 0x03 (dieOf c).val c.val slot t.kinst t.handle.toNat
    let img : ParkImg := {
      slot := slot, shadow := b == .shadow, core := c, bank := k
      aux := { core.aux b with sb := [], hold := none, datapathBad := false }, acc := acc, spad := spad
      badAcc := core.badAcc, badSpad := core.badSpad, nb := nb, pseq := (getCtx s x).evseq
      viewV := viewV s (dieOf c) k, last := k.eng.lastDie.toList, gang := gang }
    let base := (getCtx s x).park.toNat + 0x800000 * slot
    let s := enterAs { s with fresh := s.fresh + 1 } (dieOf c) []
      { ctx := some x, eng := true, agent := dieAgentNo (dieOf c) 11 } (imageCells s.fresh img base)
    let s := modCaux s x (fun a => { a with
      images := a.images ++ [img]
      fwd := if b = .shadow then a.fwd
        else if a.fwd.any (fun f => f.task == t.key)
        then a.fwd.map (fun f => if f.task = t.key then { f with to_ := none } else f)
        else a.fwd ++ [{ core := c, task := t.key, kinst := t.kinst, node := t.node, to_ := none }] })
    let s := modStats s t.kinst (fun y => { y with parks := y.parks + 1 })
    let s := if gang
      then modInst s t.kinst t.node (fun i => { i with gang := if i.gang = .none then .none else .pending i.opened })
      else s
    settleParked (freeBank s c b) x

/-! ### Row selection (R269, R270) -/

/-- R269: the need of a row, in twelfths of an F0 cycle, exactly. -/
def rowNeed (s : State) (r : Row) : Rat :=
  let cap := if 1 ≤ s.bud.grade then rungCap s.bud.rung else 8
  (r.cycles * levelM s.cal.level * r.cadence : Nat) / (Nat.min r.cadence cap : Nat)

/-- The first index whose score is least. -/
def leastBy (score : Nat → Rat) : List Nat → Option Nat
  | [] => none
  | i :: is => match leastBy score is with
    | none => some i
    | some j => if score j < score i then some j else some i

/-- R278: the row of a node's first trace record, if the replay is bound. -/
def replayRow (s : State) (k : Kernel) (n : Nat) : Option Nat :=
  if k.bound then ((traceRecs s k k.graph.tcap 0).find? (fun r => r.node == n)).map (·.row) else none

/-- R270: the row chosen for a node, and the DEADLINE event's detail when none fits. -/
def chooseRow (s : State) (k : Kernel) (n : Nat) (node : Node) : Nat × Option Nat :=
  match replayRow s k n with
  | some r => (r, none)
  | none =>
    let row (i : Nat) : Row := (node.rows[i]?).getD
      { entry := 0, view := 0, energy := 1, tiles := 1, cadence := 8, cls := 0, cycles := 1 }
    let det := (getCtx s k.ctx).attr.getLsbD 0
    let cands := (List.range node.rows.length).filter (fun i => !det || (row i).cls = (row 0).cls)
    let rem : Rat := (12 * node.deadline : Nat) - (k.counter : Nat)
    let fit := if node.deadline = 0 then cands else cands.filter (fun i => rowNeed s (row i) ≤ rem)
    if fit.isEmpty then
      let r := (leastBy (fun i => rowNeed s (row i)) cands).getD 0
      (r, some (((rowNeed s (row r) - rem) / 12).ceil.toNat))
    else if 0 < s.bud.error then
      ((leastBy (fun i => ((row i).energy : Rat) / rowNeed s (row i)) fit).getD 0, none)
    else ((leastBy (fun i => rowNeed s (row i)) fit).getD 0, none)

/-! ### Opening, closing and retiring node instances (R247, R266, R268, R275, R276) -/

/-- A fresh task handle. -/
def takeHandle (s : State) : State × Word :=
  (modDisp s (fun d => { d with nextHandle := d.nextHandle + 1 }), w64 s.disp.nextHandle)

/-- A fresh arrival number. -/
def takeOrder (s : State) : State × Nat := (modDisp s (fun d => { d with order := d.order + 1 }), s.disp.order)

/-- R268: the group tasks of ranks i to G - 1 enter the pool. -/
def addMembers (s : State) (k : Kernel) (n : Nat) (node : Node) (ri : Nat) (row : Row) (g : Nat) : Nat → State
  | 0 => s
  | m + 1 =>
    let (s, h) := takeHandle s
    let (s, o) := takeOrder s
    let t : Task := {
      handle := h, ctx := k.ctx, kinst := k.kinst, node := n, kind := .member, rank := g - (m + 1), gsize := g, row := ri
      view := row.view, argp := k.argp, seed := k.seed, prio := node.prio, eclass := node.eclass
      cadence := row.cadence, entry := row.entry }
    let q : QTask := { task := t, start := { pc := row.entry }, order := o }
    addMembers (modInst s k.kinst n (fun i => { i with pool := i.pool ++ [q] })) k n node ri row g m

/-- R268: a node instance opens. -/
def openNode (s : State) (kinst : Word) (n : Nat) : State :=
  match findKern s kinst with
  | none => s
  | some k =>
    match k.graph.nodes[n]? with
    | none => s
    | some node =>
      let (ri, late) := chooseRow s k n node
      let s := match late with
        | none => s
        | some d => logEvent (modStats s kinst (fun x => { x with misses := x.misses + 1 }))
            k.ctx 0x07 0xFF 0xFFFF n kinst d
      match node.rows[ri]? with
      | none => s
      | some row =>
        let s := modInst s kinst n (fun i => { i with
          st := .open_, row := ri, g := row.tiles, opened := s.disp.order
          gang := if node.gang && 1 < row.tiles then .pending s.disp.order else .none })
        addMembers s k n node ri row row.tiles row.tiles

/-- The predecessors of a node. -/
def preds (g : Graph) (n : Nat) : List Nat := (g.edges.filter (fun e => e.2 = n)).map (·.1)

/-- Every transitive successor of a node, by `fuel` passes over the edges. -/
def successors (g : Graph) : (fuel : Nat) → List Nat → List Nat
  | 0, l => l
  | fuel + 1, l => successors g fuel ((l ++ (g.edges.filter (fun e => l.contains e.1)).map (·.2)).dedup)

/-- R276: the status of a retiring kernel. -/
def finalStatus (x : KernStats) : Code :=
  match x.lost with
  | some .dielost => .dielost
  | some c => c
  | none => if x.shedHit then .shed else if x.cancelled then .cancelled else .ok

/-- R276: the completion record. -/
def completionBytes (k : Kernel) (status : Code) : List Byte :=
  let x := k.stats
  toBytes 1 status.num
    ++ toBytes 1 ((if x.detbreak then 1 else 0) + (if k.graph.tmode = 1 then 2 else 0) + (if x.truncated then 4 else 0)
        + (if k.graph.tmode = 2 then 8 else 0) + (if x.unbound then 16 else 0))
    ++ toBytes 2 0 ++ toBytes 4 x.misses ++ toBytes 8 k.kinst.toNat ++ toBytes 8 (x.energy / 1000)
    ++ toBytes 8 (ceilDiv k.counter 12) ++ toBytes 4 x.tasks ++ toBytes 4 x.parks ++ toBytes 4 x.sheds
    ++ toBytes 4 x.faults ++ toBytes 8 x.traceN ++ toBytes 4 x.nodesOk ++ toBytes 3 0 ++ toBytes 1 1

/-- R265: a kernel's status is kept among the last 4,096. -/
def keepStatus (s : State) (k : Kernel) (status : Code) (fired : Bool) : State :=
  let s := modCaux s k.ctx (fun a => { a with retired := ((k.kinst, status, fired) :: a.retired).take 4096 })
  modDisp s (fun d => { d with kerns := d.kerns.filter (fun y => y.kinst != k.kinst) })

/-- R259: the status of a launch from a host ring. -/
def launchStatus (s : State) (k : Kernel) (code : Nat) : State :=
  match k.ring with
  | some (r, seq, va, irq) => writeStatus s r seq va irq code k.kinst
  | none => s

/-- R276: write a kernel's completion record and raise its interrupt. -/
def writeCompletion (s : State) (k : Kernel) (status : Code) : State :=
  let s := deviceStore s k.ctx k.cpl.toNat (completionBytes k status)
  if k.noirq then s else msix s k.cvec

/-- R233: RUNNING becomes READY when KRUN reaches 0 and TPARK is 0. -/
def settleCtx (s : State) (x : CtxId) : State :=
  if (getCtx s x).st = .running && (getCtx s x).krun = 0 && (getCaux s x).images.isEmpty
  then setCtxSt s x .ready else s

/-- R276: an admitted kernel retires. -/
def retireKernel (s : State) (kinst : Word) (status : Code) : State :=
  match findKern s kinst with
  | none => s
  | some k =>
    let fired := k.st == .triggered || status == .ok
    let s := writeCompletion s k status
    let s := modCtx s k.ctx (fun c => { c with krun := c.krun - 1 })
    settleCtx (keepStatus s k status fired) k.ctx

/-- R259, R266, R276: an instance that was never admitted retires, as CANCELLED or malformed, with a record whose counts
are zero. -/
def retireHeld (s : State) (k : Kernel) (status : Code) : State :=
  let k' := { k with stats := {}, counter := 0, graph := {} }
  let s := keepStatus (writeCompletion s k' status) k status false
  launchStatus s k (if status = .cancelled then 5 else 2)

/-- R268, R276: is a write of a kernel's tasks or operations still on its way to a home or a view, or a posted atomic of them
to be performed? -/
def kernFlying (s : State) (kinst : Word) : Bool :=
  writeInFlight s (fun w => w.origin.kinst == kinst)
    || s.ms.atomics.any (fun r => r.form == .posted && !r.faulted && r.kinst == kinst)

/-- R276: a kernel retires once the writes of its tasks and operations are performed: DONE is a release at system scope. -/
def endKernel (s : State) (kinst : Word) (status : Code) : State :=
  match findKern s kinst with
  | none => s
  | some k =>
    if k.ending.isSome then s
    else if kernFlying s kinst then modKern s kinst (fun k => { k with ending := some status })
    else retireKernel s kinst status

/-- R268, R275: nodes whose predecessors have all retired open, or retire as CANCELLED when the token has reached them;
`fuel` passes. The kernel retires with its sink, once every node has. -/
def settleNodes (s : State) (kinst : Word) : (fuel : Nat) → State
  | 0 => s
  | fuel + 1 =>
    match findKern s kinst with
    | none => s
    | some k =>
      match (List.range k.insts.length).find? (fun n =>
          (match k.insts[n]? with
           | some i => i.st == .waiting && i.retired.isNone
           | none => false)
          && (preds k.graph n).all (fun p => match k.insts[p]? with
              | some i => i.retired.isSome
              | none => true)) with
      | none =>
        (if k.insts.all (fun i => i.retired.isSome) then endKernel s kinst (finalStatus k.stats) else s)
      | some n =>
        match k.insts[n]? with
        | none => s
        | some i =>
          if i.token then
            settleNodes (modInst s kinst n (fun i => { i with st := .closed, retired := some false })) kinst fuel
          else settleNodes (openNode s kinst n) kinst fuel

/-- The number of passes that settling a kernel's nodes can need. -/
def nodeFuel (s : State) (kinst : Word) : Nat :=
  match findKern s kinst with
  | some k => k.insts.length + 1
  | none => 0

/-- R268: does an access or operation that tasks of an instance issued still run: a write on its way, a posted atomic, or an
operation of a die's engines? A posted atomic that has faulted, and so is held, does not count. -/
def instBusy (s : State) (kinst : Word) (n : Nat) : Bool :=
  writeInFlight s (fun w => w.origin.kinst == kinst && w.origin.node == n)
  || s.ms.atomics.any (fun r => r.form == .posted && !r.faulted && r.kinst == kinst && r.node == n)
  || s.dies.toList.any (fun d =>
      d.cp.toList.any (fun c => c.ops.any (fun o => o.kinst == kinst && o.node == n))
      || d.mgOps.any (fun o => o.kinst == kinst && o.node == n) || d.coOps.any (fun o => o.kinst == kinst && o.node == n))

/-- R247, R268: an OPEN node instance with nothing left is CLOSED and retires OK: a release at device scope, since all that its
tasks did and issued is performed. -/
def closeIfDone (s : State) (kinst : Word) (n : Nat) : State :=
  match getInst s kinst n with
  | none => s
  | some i =>
    if i.st = .open_ && liveTasks s kinst n = 0 && !instBusy s kinst n then
      let s := modInst s kinst n (fun i => { i with st := .closed, retired := some true })
      let s := modStats s kinst (fun x => { x with nodesOk := x.nodesOk + 1 })
      settleNodes s kinst (nodeFuel s kinst)
    else s

/-- R247, R268: the first node instance whose last access or operation has ended closes. -/
def nodesDone (s : State) : Host.Outcome State Fault Refusal :=
  match (s.disp.kerns.flatMap (fun k => (List.range k.insts.length).map (fun n => (k.kinst, n)))).find? (fun p =>
      (getInst s p.1 p.2).any (fun i => i.st == .open_) && liveTasks s p.1 p.2 == 0 && !instBusy s p.1 p.2) with
  | some p => .next (closeIfDone s p.1 p.2)
  | none => .fault .notEnabled

/-- R276: the first kernel that has ended and whose writes are performed retires. -/
def kernelsDone (s : State) : Host.Outcome State Fault Refusal :=
  match s.disp.kerns.findSome? (fun k => k.ending.bind (fun c => if kernFlying s k.kinst then none else some (k.kinst, c))) with
  | some p => .next (retireKernel s p.1 p.2)
  | none => .fault .notEnabled

/-- R297: a group barrier bound to an instance that is cancelled becomes FREE. -/
def freeGbars (s : State) (x : CtxId) (kinst : Word) (n : Nat) : State :=
  modCaux s x (fun a => { a with gb := a.gb.map (fun g =>
    if g.owner = some (kinst, n) then { g with arrivals := 0, owner := none } else g) })

/-- Remove a node instance's entries from the work queues of every core, and those that wait for room. -/
def dropQueued (s : State) (kinst : Word) (n : Nat) : State :=
  let s := modDisp s (fun d => { d with waits := d.waits.filter (fun w => !taskIs kinst n (waitTask s w)) })
  foldAll s allCores (fun s c =>
    if queuedOn s kinst n c = 0 then s
    else modCore s c (fun k => { k with work := {
      tile := k.work.tile.filter (fun q => !q.task.isOf kinst n)
      engine := k.work.engine.filter (fun q => !q.task.isOf kinst n)
      ready := k.work.ready.filter (fun r => match readyTask s r with
        | some t => !t.isOf kinst n
        | none => true) } }))

/-- End a running bank's task by cancellation or shed (R174, R225): stores that its words have committed drain. -/
def cancelBank (s : State) (c : CoreId) (b : BankId) : State :=
  match (getBank s c b).task with
  | none => s
  | some t =>
    let s := dropFrozen (discardDieOps (drainAll s c b) t.key) t.ctx t.key
    freeBank (modBank s c b discardOps) c b

/-- R275, R297: arrivals of tasks that end by cancellation which the dispatcher has not counted are never counted, and their
payloads on their way are not delivered. -/
def dropDeliveries (s : State) (mine : Task → Bool) : State :=
  modMs s (fun m => { m with
    gbars := m.gbars.filter (fun r => !mine r.task), sends := m.sends.filter (fun r => !mine r.task) })

/-- R275: a node instance is cancelled, or ends by shed; the token passes to its successors. -/
def cancelNode (s : State) (kinst : Word) (n : Nat) (shed : Bool) : State :=
  match findKern s kinst with
  | none => s
  | some k =>
    let banks := (bankTasks s).filter (fun t => t.2.2.isOf kinst n)
    let imgs := (getCaux s k.ctx).images.filter (fun i => match i.bank.task with
      | some t => t.isOf kinst n
      | none => false)
    let conts := (getCaux s k.ctx).conts.filter (fun c => c.task.isOf kinst n)
    let ended := banks.length + imgs.length + conts.length
    let s := dropQueued s kinst n
    let s := foldAll s banks (fun s t => cancelBank s t.1 t.2.1)
    let s := foldAll s imgs (fun s i => match i.bank.task with
      | some t => dropFrozen (discardDieOps s t.key) k.ctx t.key
      | none => s)
    let s := dropDeliveries s (fun t => t.isOf kinst n)
    let s := modCaux s k.ctx (fun a => { a with
      images := a.images.filter (fun i => match i.bank.task with
        | some t => !t.isOf kinst n
        | none => true)
      conts := a.conts.filter (fun c => !c.task.isOf kinst n)
      fwd := a.fwd.filter (fun f => f.kinst != kinst || f.node != n) })
    let s := freeGbars s k.ctx kinst n
    let s := modInst s kinst n (fun i => { i with st := .closed, pool := [], retired := some false, gang := .none })
    let s := modStats s kinst (fun x =>
      if shed then { x with shedHit := true, sheds := x.sheds + ended } else { x with cancelled := true })
    let succ := (successors k.graph k.graph.nodes.length [n]).filter (· != n)
    let s := foldAll s succ (fun s m => modInst s kinst m (fun i => { i with token := true }))
    settleNodes s kinst (nodeFuel s kinst)

/-! ### Freezing (R85, R247, R274, R373) -/

/-- R247: an instance becomes FROZEN; its tile-queue entries return to the head of its pool in their order. -/
def freezeNode (s : State) (kinst : Word) (n : Nat) : State :=
  let back := (allCores.flatMap (fun c => (getCore s c).work.tile)).filter (fun q => q.task.isOf kinst n)
  let s := foldAll s allCores (fun s c =>
    if (getCore s c).work.tile.any (fun q => q.task.isOf kinst n) then
      modCore s c (fun k => { k with work := { k.work with tile := k.work.tile.filter (fun q => !q.task.isOf kinst n) } })
    else s)
  modInst s kinst n (fun i => { i with
    st := .frozen, pool := back.mergeSort (fun a b => a.arrived ≤ b.arrived) ++ i.pool })

/-- R274: the registers of a handler task. -/
def handlerStart (entry : Word) (task : Word) (record : List Byte) : Start :=
  let words := (List.range 8).map (fun i => (i + 2, BitVec.ofNat 64 (ofBytes ((record.drop (8 * i)).take 8))))
  { pc := entry, la := (0, task) :: words, sa := (0, task) :: words, v0 := bytesVec record }

/-- R245, R271, R278: the core whose engine queue an entry enters: the one it is directed to, or that of its record in a
bound trace, or one that R271 chooses. -/
def engineCore (s : State) (at_ : Option CoreId) (t : Task) : Option CoreId :=
  let room (c : CoreId) : Bool := (getCore s c).work.engine.length < 16
  match at_ with
  | some c => if room c then some c else none
  | none => match replayPlace s t false with
    | some c => c.bind (fun c => if room c then some c else none)
    | none => (getNode s t.kinst t.node).bind (fun n => placeCore s t.kinst t.node n.affinity room)

/-- R245, R271: an entry enters an engine queue, or waits with the dispatcher for room. -/
def enterEngine (s : State) (at_ : Option CoreId) (q : QTask) : State :=
  match engineCore s at_ q.task with
  | some c => modCore s c (fun k => { k with work := { k.work with engine := k.work.engine ++ [q] } })
  | none => modDisp s (fun d => { d with waits := d.waits ++ [{ core := at_, what := .engine q }] })

/-- R274: the freeze of a task, in its bank or its image, has a handler task. -/
def noteHandler (s : State) (t : Task) (h : Word) : State :=
  let mark (k : Bank) (a : BankAux) : BankAux :=
    if k.task.any (fun u => u.key == t.key) then { a with freeze := a.freeze.map (fun z => { z with handler := h }) } else a
  let s := foldAll s ((bankTasks s).filter (fun u => u.2.2.key == t.key)) (fun s u =>
    modAux s u.1 u.2.1 (mark (getBank s u.1 u.2.1)))
  modCaux s t.ctx (fun a => { a with images := a.images.map (fun i => { i with aux := mark i.bank i.aux }) })

/-- R274: a handler task for a frozen bank enters the engine queue of a core that R271 chooses. -/
def spawnHandler (s : State) (t : Task) (f : FaultInfo) (node : Node) : State :=
  let (s, h) := takeHandle s
  let (s, o) := takeOrder s
  let ht : Task := { t with
    handle := h, kind := .handler t.handle, rank := 0, gsize := 1, prio := 1, eclass := 0, entry := node.handler
    own := 0 }
  enterEngine (noteHandler s t h) none { task := ht, start := handlerStart node.handler t.handle f.bytes, order := o }

/-- R85, R86: a stream stops; a word at which it stalled counts as one that has not begun, and stays past steps 1 and 2. -/
def stopHere (x : StreamSt) : StreamSt :=
  { x with run := .stopped, passed := 2, wait := none, arrived := false, watching := none, stalledFor := 0 }

/-- R233, R370: a stream of a context that stops is stopped at once, unless its word has passed step 8: that one completes
first. -/
def stopStream (x : StreamSt) : StreamSt :=
  match x.run with
  | .running | .stalled _ => if x.pending.isSome then x else stopHere x
  | .free | .halted | .stopped => x

/-- Has the context of a number stopped for good (R233)? -/
def ctxStopped (s : State) (x : CtxId) : Bool :=
  match (getCtx s x).st with
  | .faulted | .lost => true
  | .free | .loading | .ready | .running | .parked | .quiesced => false

/-- R373: a bank or an image of a context is frozen: a context that has stopped counts it, and keeps the first record. -/
def noteFrozen (s : State) (x : CtxId) (task : Word) (f : FaultInfo) : State :=
  let stop := ctxStopped s x
  modCaux s x (fun a => { a with
    frozen := a.frozen ++ [(task, f)]
    kept := if stop then some (a.kept.getD f) else a.kept
    frozenN := if stop then a.frozenN + 1 else a.frozenN })

/-- R373: what a context keeps as it enters FAULTED or LOST. -/
def keepFrozen (s : State) (x : CtxId) : State :=
  modCaux s x (fun a => { a with kept := a.kept.or (a.frozen.head?.map (·.2)), frozenN := a.frozen.length })

/-- R233, R276, R373: a bank of a context that has stopped is frozen and counted; a shadow bank is imaged and freed
(R99). -/
def freezeStopped (s : State) (c : CoreId) (b : BankId) (z : Freeze) (t : Task) : State :=
  let info := { z.info with flags := z.info.flags ||| (if z.second then 1 else 0) }
  let s := modAux s c b (fun a => { a with freeze := some { z with done := true, info := info } })
  let s := modStats s t.kinst (fun y => { y with faults := y.faults + 1 })
  let s := noteFrozen s t.ctx t.key info
  if b = .shadow then parkBank s c b else s

/-- Does a stream still move (R85 step 4)? -/
def StreamSt.moves (x : StreamSt) : Bool :=
  match x.run with
  | .running | .stalled _ => true
  | .free | .halted | .stopped => false

/-- Does a stream of a bank still move? -/
def Bank.moves (k : Bank) : Bool := k.l.moves || k.x.moves || k.s.moves

/-- R233: a bank of a context that stops: its streams stop, and it is frozen unless words past step 8 have yet to complete. -/
def stopBank (s : State) (f : FaultInfo) (c : CoreId) (b : BankId) (t : Task) : State :=
  let s := modBank s c b (fun k => { k with l := stopStream k.l, x := stopStream k.x, s := stopStream k.s })
  let old := (getAux s c b).freeze
  if old.any (·.done) then s
  else
    let z := { old.getD { info := f, src := .word, stream := .l, since := s.cal.cycle } with stopping := true }
    if (getBank s c b).moves then modAux s c b (fun a => { a with freeze := some z }) else freezeStopped s c b z t

/-- R233, R370: every bank of a context stops and freezes, each counted (R373). -/
def stopContext (s : State) (x : CtxId) (f : FaultInfo) : State :=
  foldAll s ((bankTasks s).filter (fun t => t.2.2.ctx == x)) (fun s t => stopBank s f t.1 t.2.1 t.2.2)

/-- R233: the context becomes FAULTED. -/
def faultContext (s : State) (x : CtxId) (f : FaultInfo) : State :=
  match (getCtx s x).st with
  | .running | .parked =>
    let s := keepFrozen (setCtxSt s x .faulted) x
    let s := msix (stopContext s x f) (getCtx s x).fvec
    foldAll s (s.disp.kerns.filter (fun k => k.ctx == x && k.st == .held)) (fun s k => retireHeld s k .cancelled)
  | _ => s

/-- R23, R233, R352, R370, R373: a context trap: the context becomes LOST and its admitted kernels retire. -/
def trapContext (s : State) (x : CtxId) (code : Code) (detail aux : Word) : State :=
  match (getCtx s x).st with
  | .ready | .running | .parked | .quiesced | .faulted =>
    let f : FaultInfo := { code := code, unit := 10, detail := detail, aux := aux, cycle := dieCycle s 8 }
    let s := if ctxStopped s x then s else keepFrozen s x
    let s := modCaux s x (fun a => { a with kept := some (a.kept.getD f) })
    let s := setCtxSt s x .lost
    let s := stopContext s x f
    let s := msix s (getCtx s x).fvec
    let s := if code = .dielost then logEvent s x 0x06 detail.toNat 0xFFFF 0 0 0 else s
    let ks := s.disp.kerns.filter (fun k => k.ctx == x)
    foldAll s ks (fun s k => if k.st = .held then retireHeld s k .cancelled else endKernel s k.kinst code)
  | _ => s

/-- R85 step 4, R247, R274, R373, R375: the bank is frozen: its record is built, the node queue freezes, and a handler
is spawned or the context becomes FAULTED. An urgent bank's image is written out and the shadow bank freed (R99). -/
def freezeBank (s : State) (c : CoreId) (b : BankId) : State :=
  match (getAux s c b).freeze, (getBank s c b).task with
  | some z, some t =>
    if z.stopping then freezeStopped s c b z t else
    let info := { z.info with flags := z.info.flags ||| (if z.second then 1 else 0) }
    let hold := (getCaux s t.ctx).dbgHold && info.flags.getLsbD 2 && info.code = .trapsw
    let s := modAux s c b (fun a => { a with freeze := some { z with done := true, info := info, held := hold } })
    let s := modStats s t.kinst (fun x => { x with faults := x.faults + 1 })
    let s := noteFrozen s t.ctx t.key info
    let s := freezeNode s t.kinst t.node
    let s := if hold then s
      else
        match t.kind, getNode s t.kinst t.node with
        | .handler _, _ => faultContext s t.ctx info
        | _, some node => if node.handler = 0 then faultContext s t.ctx info else spawnHandler s t info node
        | _, none => faultContext s t.ctx info
    if b = .shadow then parkBank s c b else s
  | _, _ => s

/-- R85 step 4: freeze the bank if no stream of it is RUNNING or STALLED. -/
def freezeIfStill (s : State) (c : CoreId) (b : BankId) : State :=
  match (getAux s c b).freeze with
  | some z => if !z.done && !(getBank s c b).moves then freezeBank s c b else s
  | none => s

/-- R247: the node queue opens again when no bank and no image of the instance is frozen. -/
def thawNode (s : State) (kinst : Word) (n : Nat) : State :=
  let inBank := (bankTasks s).any (fun t => t.2.2.isOf kinst n && (match (getAux s t.1 t.2.1).freeze with
    | some z => z.done
    | none => false))
  let inImage := match findKern s kinst with
    | none => false
    | some k => (getCaux s k.ctx).images.any (fun i => (match i.bank.task with
        | some t => t.isOf kinst n
        | none => false) && i.aux.freeze.isSome)
  match getInst s kinst n with
  | none => s
  | some i => if i.st = .frozen && !inBank && !inImage
      then modInst s kinst n (fun i => { i with st := .open_ }) else s

end Sys2Proof.Machine
end

