-- ==== Sys2Proof/Machine/Operands.lean ====
section
/-! DEFINITION. Operands: queues and their visibility (R89 to R91, R106, R146), tokens (R36, R93), sources and
destinations (R37, R39 to R42, R87, R88, R94, R102), die-mask registers (R43, R187) and counters as a bank sees them
(R45, R97, R243). -/

namespace Sys2Proof.Machine

/-! ### Queues (R89 to R91) -/

/-- R89: the depth of a queue. -/
def queueDepth (q : Fin 16) : Nat := if q.val < 12 then 16 else 8

/-- R89: the stream that writes a queue. -/
def queueWriter (q : Fin 16) : Stream :=
  if q.val < 8 then .l else if q.val < 14 then .x else if q.val = 14 then .l else .s

/-- R89: the stream that reads a queue. -/
def queueReader (q : Fin 16) : Stream :=
  if q.val < 8 then .x else if q.val < 12 then .s else if q.val < 14 then .l else if q.val = 14 then .s else .l

/-- R91: the entries that the reader sees on a cycle: those pushed before it. -/
def Fifo.seen {α : Type} (f : Fifo α) (now : Nat) : Nat := f.items.length - (if f.pushAt = now then f.pushN else 0)

/-- R91: the entries that count against the writer's room on a cycle: pops of the same cycle have made no room. -/
def Fifo.held {α : Type} (f : Fifo α) (now : Nat) : Nat := f.items.length + (if f.popAt = now then f.popN else 0)

/-- Push values on a cycle. -/
def Fifo.push {α : Type} (f : Fifo α) (now : Nat) (xs : List α) : Fifo α :=
  if xs.isEmpty then f
  else { f with items := f.items ++ xs, pushAt := now
                pushN := (if f.pushAt = now then f.pushN else 0) + xs.length }

/-- Pop n values on a cycle. -/
def Fifo.pop {α : Type} (f : Fifo α) (now n : Nat) : Fifo α :=
  if n = 0 then f
  else { f with items := f.items.drop n, popAt := now, popN := (if f.popAt = now then f.popN else 0) + n }

/-- The current package cycle. -/
def now (s : State) : Nat := s.cal.cycle

/-- The room that the writer of a queue has (R91). -/
def queueRoom (k : Bank) (q : Fin 16) (t : Nat) : Nat := queueDepth q - (k.q.get q).held t

/-- The bank with entries pushed to a queue. -/
def pushQ (k : Bank) (q : Fin 16) (t : Nat) (es : List Entry) : Bank :=
  { k with q := vmod k.q q (fun f => f.push t es) }

/-- The bank with n entries popped from a queue. -/
def popQ (k : Bank) (q : Fin 16) (t n : Nat) : Bank := { k with q := vmod k.q q (fun f => f.pop t n) }

/-- The queue that an operation of a stream engine uses, if any. -/
def EngOp.queue? (o : EngOp) : Option (Fin 16) :=
  match o.form with
  | .strm | .drn | .rfillg | .qatomic => some (Fin.ofNat 16 o.q)
  | .rfill | .rdrain => none

/-- R177, R182: the queue that an accepted record uses until its last step, if any. -/
def MatRec.queue? (r : MatRec) : Option (Fin 16) :=
  if r.finished && r.out.isEmpty then none
  else match r.form with
    | .mscl => some (Fin.ofNat 16 r.rf.ringA.val)
    | .msta => if r.rf.mod.getLsbD 3 then some (Fin.ofNat 16 (8 + r.rf.ringB.val % 4)) else none
    | .mma | .mmas | .mhad | .mclr | .mlda | .madda | .mxp => none

/-- R146: the stream engine of the bank that a queue is bound to. -/
def engBound (k : Bank) (q : Fin 16) : Option (Fin 8) :=
  ((List.range 8).map (Fin.ofNat 8)).find? (fun e => (k.eng.ops.get e).any (fun o => o.queue? == some q))

/-- R176: is a queue bound to the matrix sequencer? -/
def matBound (k : Bank) (q : Fin 16) : Bool := k.eng.recs.any (fun r => r.queue? == some q)

/-- R146, R176: is a queue bound by operations of the stream that would use it? -/
def boundFor (k : Bank) (q : Fin 16) (t : Stream) : Bool :=
  (match engBound k q with
   | some e => (if e.val < 4 then Stream.l else Stream.s) == t
   | none => false)
  || (t == .x && matBound k q)

/-! ### Tokens (R36, R93) -/

/-- R36: the FIFO from one stream to another: 0 L to X, 1 X to L, 2 X to S, 3 S to X, 4 S to L, 5 L to S. -/
def tkIndex : Stream → Bool → Fin 6
  | .l, true => 0
  | .x, false => 1
  | .x, true => 2
  | .s, false => 3
  | .s, true => 4
  | .l, false => 5

/-- The FIFO that a stream pushes to its left or right neighbour. -/
def tkOut (t : Stream) (right : Bool) : Fin 6 := tkIndex t right

/-- The FIFO that a stream pops from its left or right neighbour. -/
def tkIn (t : Stream) (right : Bool) : Fin 6 :=
  match t, right with
  | .l, true => 1
  | .l, false => 4
  | .x, true => 3
  | .x, false => 0
  | .s, true => 5
  | .s, false => 2

/-- The tokens that a word pops from and pushes to each side, its token bits and TKPUSH or TKPOP together (R93). -/
structure Tokens where
  popL : Nat
  popR : Nat
  pushL : Nat
  pushR : Nat
  deriving DecidableEq, Repr

/-- What a word's form adds to its token bits: 0 nothing, 1 the n tokens of TKPUSH, 2 those of TKPOP (R107). -/
def tokensOf (pbl pbr pal par : Bool) (form n : Nat) (right : Bool) : Tokens :=
  let f (b : Bool) := if b then 1 else 0
  { popL := f pbl + (if form = 2 && !right then n else 0), popR := f pbr + (if form = 2 && right then n else 0)
    pushL := f pal + (if form = 1 && !right then n else 0), pushR := f par + (if form = 1 && right then n else 0) }

/-- R33 step 5, R93: the FIFOs hold, and have room for, a word's tokens. -/
def tokensReady (k : Bank) (t : Stream) (n : Nat) (x : Tokens) : Bool :=
  let seen (r : Bool) := (k.tk.get (tkIn t r)).seen n
  let room (r : Bool) := 8 - (k.tk.get (tkOut t r)).held n
  x.popL ≤ seen false && x.popR ≤ seen true && x.pushL ≤ room false && x.pushR ≤ room true

/-- R376: does a token that the word pops carry a mark? -/
def tokensBad (k : Bank) (t : Stream) (x : Tokens) : Bool :=
  ((k.tk.get (tkIn t false)).items.take x.popL).any id || ((k.tk.get (tkIn t true)).items.take x.popR).any id

/-- A word's tokens take effect at its commit (R33 step 9). -/
def moveTokens (k : Bank) (t : Stream) (n : Nat) (x : Tokens) : Bank :=
  let pop (k : Bank) (r : Bool) (c : Nat) := { k with tk := vmod k.tk (tkIn t r) (fun f => f.pop n c) }
  let push (k : Bank) (r : Bool) (c : Nat) :=
    { k with tk := vmod k.tk (tkOut t r) (fun f => f.push n (List.replicate c false)) }
  push (push (pop (pop k false x.popL) true x.popR) false x.pushL) true x.pushR

/-! ### Sources (R39 to R42, R87, R88, R90) -/

/-- The queue that an operand pops, if it pops one. -/
def Operand.popped : Operand → Option (Fin 16)
  | .queue q false => some q
  | _ => none

/-- The queue that an operand uses, popped or peeked. -/
def Operand.queue? : Operand → Option (Fin 16)
  | .queue q _ => some q
  | _ => none

/-- The queues that sources pop, in order (R41). -/
def popsOf (srcs : List Operand) : List (Fin 16) := srcs.filterMap Operand.popped

/-- R41: how many entries of its queue the i-th source finds popped before it. -/
def popsBefore (srcs : List Operand) (i : Nat) (q : Fin 16) : Nat := ((popsOf (srcs.take i)).filter (· == q)).length

/-- A scalar file of L or S. -/
def Bank.areg (k : Bank) (t : Stream) (n : Fin 32) : Word :=
  match t with
  | .s => k.a.s.get n
  | _ => k.a.l.get n

/-- The entry that source i takes (R41), with its mark; registers, age operands and masks likewise. -/
def rawSource (k : Bank) (t : Stream) (srcs : List Operand) (i : Nat) : Entry :=
  match srcs[i]? with
  | none => {}
  | some o =>
    match o with
    | .reg n =>
      (match t with
       | .x => { val := k.vec.v.get n, bad := k.vec.badV.getLsbD n.val }
       | .l => { val := (k.a.l.get n).setWidth 2048, bad := k.a.badL.getLsbD n.val }
       | .s => { val := (k.a.s.get n).setWidth 2048, bad := k.a.badS.getLsbD n.val })
    | .age n => k.vec.h.get n
    | .mlc n =>
      (match t with
       | .x => { val := (k.vec.m.get n).setWidth 2048, bad := k.vec.badM.getLsbD n.val }
       | _ => { val := ((k.regs t).lc.get (Fin.ofNat 4 n.val)).setWidth 2048
                bad := (k.regs t).badLc.getLsbD n.val })
    | .queue q _ => ((k.q.get q).items[popsBefore srcs i q]?).getD {}
    | .short v => { val := (v.signExtend 64).setWidth 2048 }
    | .lit v => { val := v.setWidth 2048 }
    | .ring _ | .nb _ | .tl _ => {}

/-- A scalar source: bits [63:0] (R88, R90); a literal is extended by R42, in X always with its sign (R88). -/
def scal (s : State) (g : Agent) (w : WordF) (srcs : List Operand) (i : Nat) : Word :=
  match srcs[i]? with
  | some (.lit v) => if g.stream != .x && w.mod.getLsbD 3 then v.setWidth 64 else v.signExtend 64
  | _ => (rawSource (bankOf s g) g.stream srcs i).val.setWidth 64

/-- A queue entry, a vector register or an age operand taken whole. -/
def whole (s : State) (g : Agent) (srcs : List Operand) (i : Nat) : Vec := (rawSource (bankOf s g) g.stream srcs i).val

/-- R376: the mark of a register, a queue entry or a wait table read by a word: ECCU with structure code 5 and the
number of what was read. -/
def eccRegs (n : Nat) : FaultInfo := flt .eccu 0 5 (w64 n)

/-- The number that an operand's ECCU record gives. -/
def Operand.number : Operand → Nat
  | .reg n => n.val
  | .age n => n.val
  | .mlc n => n.val
  | .queue q _ => q.val
  | _ => 0

/-- Does source i carry a mark? -/
def sourceBad (k : Bank) (t : Stream) (srcs : List Operand) (i : Nat) : Bool := (rawSource k t srcs i).bad

/-- R33 step 7: the entries that the sources need are there (R41), in queues the stream reads. -/
def sourcesReady (k : Bank) (t : Stream) (n : Nat) (srcs : List Operand) : Bool :=
  (List.range srcs.length).all (fun i =>
    match (srcs[i]?).bind Operand.queue? with
    | some q => queueReader q != t || boundFor k q t || popsBefore srcs i q < (k.q.get q).seen n
    | none => true)

/-- R40, R146: the first queue used against its direction or its binding, sources before the destination. -/
def queueMisuse (k : Bank) (t : Stream) (srcs : List Operand) (dst : List (Fin 16 × Nat)) : Option (Fin 16) :=
  match (srcs.filterMap Operand.queue?).find? (fun q => queueReader q != t || boundFor k q t) with
  | some q => some q
  | none => (dst.map (·.1)).find? (fun q => queueWriter q != t || boundFor k q t)

/-- R33 steps 7 and 8, up to the form's own checks: entries and room, then direction and binding, then marks. `pushes`
lists the queues that the word pushes and how many entries. -/
def takeSources (s : State) (g : Agent) (srcs : List Operand) (pushes : List (Fin 16 × Nat)) : Res Unit :=
  let k := bankOf s g
  let t := g.stream
  if !(sourcesReady k t (now s) srcs
      && pushes.all (fun p => queueWriter p.1 != t || boundFor k p.1 t || p.2 ≤ queueRoom k p.1 (now s)))
  then stall s .queues
  else
    match queueMisuse k t srcs pushes with
    | some q => raise s (flt .queue 0 (w64 q.val))
    | none =>
      match (List.range srcs.length).find? (sourceBad k t srcs) with
      | some i => raise s (eccRegs (((srcs[i]?).map Operand.number).getD 0))
      | none => .ok ()

/-! ### Destinations (R37, R87, R88, R90, R94) -/

/-- The queue that a destination pushes one entry to. -/
def dstPush (o : Operand) : List (Fin 16 × Nat) :=
  match o with
  | .queue q _ => [(q, 1)]
  | _ => []

/-- R41, R94: the age queue takes a result. -/
def agePush (v : VecRegs) (e : Vec) : VecRegs :=
  { v with h := Vector.ofFn (fun (i : Fin 16) =>
      if h : i.val = 0 then { val := e } else v.h.get ⟨i.val - 1, by omega⟩) }

/-- A register of L's or S's file is written; its mark is cleared. -/
def setA (k : Bank) (t : Stream) (n : Fin 32) (v : Word) : Bank :=
  let clear (b : BitVec 32) := b &&& ~~~((1 : BitVec 32) <<< n.val)
  match t with
  | .s => { k with a := { k.a with s := vset k.a.s n v, badS := clear k.a.badS } }
  | _ => { k with a := { k.a with l := vset k.a.l n v, badL := clear k.a.badL } }

/-- A loop counter is written. -/
def setLc (k : Bank) (t : Stream) (n : Fin 4) (v : Word) : Bank :=
  k.modRegs t (fun r => { r with lc := vset r.lc n v, badLc := r.badLc &&& ~~~((1 : BitVec 4) <<< n.val) })

/-- A vector register is written whole. -/
def setV (k : Bank) (n : Fin 32) (v : Vec) : Bank :=
  { k with vec := { k.vec with v := vset k.vec.v n v, badV := k.vec.badV &&& ~~~((1 : BitVec 32) <<< n.val) } }

/-- A mask register is written; m0 ignores writes (R40, R87). -/
def setM (k : Bank) (n : Fin 8) (v : Word) : Bank :=
  if n = 0 then k
  else { k with vec := { k.vec with m := vset k.vec.m n v, badM := k.vec.badM &&& ~~~((1 : BitVec 8) <<< n.val) } }

/-- A scalar result goes to its destination (R87, R88, R90, R102). -/
def writeScalar (s : State) (g : Agent) (o : Operand) (v : Word) : State :=
  let t := now s
  modBankOf s g (fun k =>
    match o with
    | .reg n => (match g.stream with
        | .x => setV k n (v.setWidth 2048)
        | st => setA k st n v)
    | .mlc n => (match g.stream with
        | .x => k
        | st => setLc k st (Fin.ofNat 4 n.val) v)
    | .age _ => { k with vec := agePush k.vec (v.setWidth 2048) }
    | .queue q _ => pushQ k q t [{ val := v.setWidth 2048 }]
    | .short _ | .lit _ | .ring _ | .nb _ | .tl _ => k)

/-- A vector result goes to its destination under a selection of bits: unselected bits of a register keep their value,
those of a queue entry or of the age queue are zero (R37, R94). -/
def writeVec (s : State) (g : Agent) (o : Operand) (sel : Vec) (v : Vec) : State :=
  let t := now s
  modBankOf s g (fun k =>
    match o with
    | .reg n => setV k n ((v &&& sel) ||| (k.vec.v.get n &&& ~~~sel))
    | .age _ => { k with vec := agePush k.vec (v &&& sel) }
    | .queue q _ => pushQ k q t [{ val := v &&& sel }]
    | .mlc _ | .short _ | .lit _ | .ring _ | .nb _ | .tl _ => k)

/-- A mask result goes to its destination under a selection of mask bits (R37, R116). -/
def writeMask (s : State) (g : Agent) (o : Operand) (sel v : Word) : State :=
  modBankOf s g (fun k =>
    match o with
    | .mlc n => setM k n ((v &&& sel) ||| (k.vec.m.get n &&& ~~~sel))
    | .reg _ | .age _ | .queue _ _ | .short _ | .lit _ | .ring _ | .nb _ | .tl _ => k)

/-! ### Predicates (R37) -/

/-- R37: the lane mask of X. -/
def laneMask (k : Bank) (w : WordF) : Word :=
  if w.pidx = 0 then BitVec.allOnes 64 else if w.pneg then ~~~(k.vec.m.get w.pidx) else k.vec.m.get w.pidx

/-- R37: the predicate of a word that has one truth value: aN in L and S, bit 0 of the mask in X. -/
def predicate (k : Bank) (t : Stream) (pidx : Fin 8) (pneg : Bool) : Bool :=
  if pidx = 0 then true
  else match t with
    | .x => (k.vec.m.get pidx).getLsbD 0 != pneg
    | _ => (k.areg t (Fin.castLE (by omega) pidx) != 0) != pneg

/-- R376: is the register that a predicate reads marked? -/
def predicateBad (k : Bank) (t : Stream) (pidx : Fin 8) : Bool :=
  pidx != 0 && (match t with
    | .x => k.vec.badM.getLsbD pidx.val
    | .l => k.a.badL.getLsbD pidx.val
    | .s => k.a.badS.getLsbD pidx.val)

/-! ### Descriptor registers (R145) -/

/-- The number of the register that names a block. -/
def regNo (o : Operand) : Fin 32 :=
  match o with
  | .reg n => n
  | _ => 0

/-- Register i of a block of the executing stream's own file. -/
def descReg (s : State) (g : Agent) (o : Operand) (i : Nat) : Word :=
  (bankOf s g).areg g.stream (Fin.ofNat 32 ((regNo o).val + i))

/-- Is one of the k registers of a block marked (R376)? -/
def descBad (s : State) (g : Agent) (o : Operand) (k : Nat) : Option Nat :=
  let b := bankOf s g
  let marks := if g.stream = .s then b.a.badS else b.a.badL
  (List.range k).find? (fun i => marks.getLsbD (((regNo o).val + i) % 32)) |>.map (fun i => (regNo o).val + i)

/-- A block is read at step 8. -/
def checkDesc (s : State) (g : Agent) (o : Operand) (k : Nat) : Res Unit :=
  match descBad s g o k with
  | some n => raise s (eccRegs n)
  | none => .ok ()

/-! ### Scopes and die masks (R43, R186, R187) -/

/-- R43, R187: a die-mask register's value, checked; MASK holds the value. -/
def checkDieMask (s : State) (v : Word) : Res Unit :=
  if v.toNat < 1024 && allDies.all (fun d => !v.getLsbD d.val || present s d) then .ok ()
  else raise s (flt .mask 0 v)

/-- The dies whose agents a scope covers (R186), for an access made on die d with a mask. -/
def scopeDies (s : State) (scope : Scope) (d : DieId) (mask : Word) : List DieId :=
  match scope with
  | .core => []
  | .die => [d]
  | .mask => allDies.filter (fun e => e == d || mask.getLsbD e.val)
  | .device | .system => allDies.filter (fun e => present s e)

/-- The die-mask register of an L or S word: srcC with scope mask (R43). -/
def wordMask (s : State) (g : Agent) (w : WordF) : Word :=
  if w.scope = .mask then (bankOf s g).areg g.stream (regNo w.srcC) else 0

/-- The checks of a scope at step 8: the mask register, read and legal. -/
def checkScope (s : State) (g : Agent) (w : WordF) : Res Unit :=
  if w.scope = .mask then do
    checkDesc s g w.srcC 1
    checkDieMask s (wordMask s g w)
  else .ok ()

/-! ### Timeline counters in the bank's view (R45, R97, R243) -/

/-- The index of a die counter: cp0 to cp7, mg, co. -/
def Tl.die? : Tl → Option (Fin 10)
  | .cp k => some ⟨k.val, by omega⟩
  | .mg => some 8
  | .co => some 9
  | _ => none

/-- The index of a bank counter: m, l0 to l3, s0 to s3. -/
def Tl.bank? : Tl → Option (Fin 9)
  | .m => some 0
  | .l k => some ⟨1 + k.val, by omega⟩
  | .s k => some ⟨5 + k.val, by omega⟩
  | _ => none

/-- TL of a counter as a bank of a core sees it (R97, R243). -/
def tlValue (s : State) (c : CoreId) (b : BankId) (t : Tl) : Word :=
  let k := getBank s c b
  match Tl.bank? t, Tl.die? t with
  | some i, _ => k.eng.tl.get i
  | none, some i => dieCounter s (dieOf c) i + k.eng.view.get i
  | none, none => 0

/-- The counter of a 5-bit identifier of a wait-table entry; the identifiers of R45 are 0 to 18. -/
def Tl.ofId (n : Nat) : Tl :=
  if n = 0 then .m
  else if n < 5 then .l (Fin.ofNat 4 (n - 1))
  else if n < 9 then .s (Fin.ofNat 4 (n - 5))
  else if n < 17 then .cp (Fin.ofNat 8 (n - 9))
  else if n = 17 then .mg else .co

/-- The identifier of a counter (R45). -/
def Tl.id : Tl → Nat
  | .m => 0 | .l k => 1 + k.val | .s k => 5 + k.val | .cp k => 9 + k.val | .mg => 17 | .co => 18

/-! ### Named barriers (R293, R294) -/

/-- R294: a stream's condition on a named barrier. -/
def nbCond (s : State) (g : Agent) (n : Fin 32) : Bool :=
  let v := (regsOf s g).nb.get n
  !v.arrived || (((getCore s g.core).nb.get n).phase != v.last)

/-- R293: the use of a barrier by a bank. -/
def checkNb (s : State) (g : Agent) (n : Fin 32) : Res Unit :=
  if nbAllowed s g.core g.bank n.val then .ok () else raise s (flt .prot 0 4)

end Sys2Proof.Machine
end

