-- ==== Sys2Proof/Machine/Pipeline.lean ====
section
/-! DEFINITION. The evaluation of a word (R33 to R38): taking a fault (R85, R369 to R371), stalling, steps 3 to 7 and the
commit, for the words of L, X and S, for matrix records and for B words. -/

namespace Sys2Proof.Machine

/-- One step of the model. -/
abbrev Out := Host.Outcome State Fault Refusal

/-- What a word's steps 7 and 8 end in: the commit, with the queues it pops and the address it moves to, or a wait for a
result from outside the stream (R33, R96). -/
inductive Done
  | commit (s : State) (pops : List (Fin 16)) (next : Option VAddr)
  | pend (s : State) (kind : PendKind) (sent : Nat)
  deriving DecidableEq, Repr

/-- Commit with nothing popped and the PC advancing. -/
def done (s : State) : Res Done := .ok (.commit s [] none)
/-- Commit, popping the queues that sources name. -/
def donePop (s : State) (srcs : List Operand) : Res Done := .ok (.commit s (popsOf srcs) none)

/-! ### Taking a fault -/

/-- R371: UNIT of a word's fault. -/
def unitOf : Stream → Nat
  | .l => 0
  | .x => 1
  | .s => 2

/-- A stream that halts: its PC stays on the word, which has not begun. -/
def haltStream (x : StreamSt) : StreamSt :=
  { x with run := .halted, passed := 2, wait := none, arrived := false, watching := none, stalledFor := 0
           pending := none, thaw := false, latch := none }

/-- R85: does a fault that a stream takes now stand before the one that its bank's record reports? Of two on one cycle
the order L, X, S decides. -/
def faultFirst (s : State) (g : Agent) (y : Freeze) : Bool :=
  y.since = s.cal.cycle && unitOf g.stream < unitOf y.stream

/-- R85: a fault that the record no longer reports is raised again after the task resumes: a deferred one goes back to
its stream, the word of any other executes again. -/
def giveBack (s : State) (g : Agent) (y : Freeze) : State :=
  if y.src = .word then s
  else modStOf s { g with stream := y.stream } (fun x => { x with deferred := { info := y.info, src := y.src } :: x.deferred })

/-- R85, R371: a fault is taken by a stream (by all three at a B word past its rendezvous). The record keeps the earlier
of two faults, and of two on one cycle the one of the first stream in the order L, X, S. -/
def takeFault (s : State) (g : Agent) (f : FaultInfo) (src : FaultSrc) (all : Bool) : State :=
  let f := { f with coreid := coreId g.core, pc := (stOf s g).pc.setWidth 64 }
  let z : Freeze := { info := f, src := src, stream := g.stream, since := s.cal.cycle }
  let old := (getAux s g.core g.bank).freeze
  let s := if all
    then modBankOf s g (fun k => { k with l := haltStream k.l, x := haltStream k.x, s := haltStream k.s })
    else modStOf s g haltStream
  let s := match old with
    | none => modAux s g.core g.bank (fun a => { a with freeze := some z })
    | some y =>
      if faultFirst s g y
      then giveBack (modAux s g.core g.bank (fun a => { a with freeze := some { z with second := true } })) g y
      else modAux s g.core g.bank (fun a => { a with freeze := some { y with second := true } })
  freezeIfStill s g.core g.bank

/-- A fault that a word raises at its stream (R369): it is stamped with the stream or B unit and the die's count. -/
def wordFault (s : State) (g : Agent) (f : FaultInfo) (bword all : Bool) : State :=
  takeFault s g { f with unit := if f.unit = 0 then (if bword then 3 else unitOf g.stream) else f.unit
                         cycle := dieCycle s (agentDie g) } .word all

/-- R370: the deferred fault at the head of a stream's list is taken at the word it evaluates. One that R85 holds behind
another fault stays to be raised again. -/
def takeDeferred (s : State) (g : Agent) (d : Deferred) (rest : List Deferred) : State :=
  let held := match (getAux s g.core g.bank).freeze with
    | none => false
    | some y => !faultFirst s g y
  let s := if held then s else modStOf s g (fun x => { x with deferred := rest })
  takeFault s g { d.info with flags := d.info.flags ||| 2 } d.src false

/-- A deferred fault is given to a stream (R147, R173, R204, R226). -/
def deferFault (s : State) (g : Agent) (f : FaultInfo) (src : FaultSrc) : State :=
  modStOf s g (fun x => { x with deferred := x.deferred ++ [{
    info := { f with cycle := dieCycle s (agentDie g) }, src := src }] })

/-! ### Stalling and committing -/

/-- The stream stalls at a step of R33, with the steps before it passed (R84). -/
def stallAt (s : State) (g : Agent) (why : StallStep) (passed : Nat) : State :=
  modStOf s g (fun x => { x with run := .stalled why, passed := passed })

/-- R34, R95: the count of the words that a stream has traversed, with those it completed while SUSPENDED. -/
def slipCount (x : StreamSt) : Nat := x.slipDue.getD x.slip

/-- A word's stream moves on: PC, slip count and counters (R33, R34, R109). The count of a SUSPENDED stream does not
change before the swap back (R95). -/
def advance (x : StreamSt) (next : VAddr) (slip : Nat) : StreamSt :=
  { x with run := .running, pc := next, slip := if x.suspended then x.slip else slip
           slipDue := if x.suspended then some slip else none, passed := 2, wait := none, arrived := false, thaw := false
           watching := none, stalledFor := 0, pending := none, latch := none }

/-- PERF 0 counts a word executed, PERF 1 a word skipped (R109). -/
def countPerf (r : StreamRegs) (i : Fin 8) : StreamRegs := { r with perf := vmod r.perf i (· + 1) }

/-- Entries leave the queues that a word pops, one for each naming (R41). -/
def popAll (k : Bank) (t : Nat) : List (Fin 16) → Bank
  | [] => k
  | q :: qs => popAll (popQ k q t 1) t qs

/-- R33 step 9: tokens, pops, the PC and the slip count. PERF 0 counts a matrix record once (DEDUCED, assumption 66). -/
def commitWord (s : State) (g : Agent) (toks : Tokens) (pops : List (Fin 16)) (next : Option VAddr) (words : Nat) :
    State :=
  let t := s.cal.cycle
  modBankOf s g (fun k =>
    let k := moveTokens (popAll k t pops) g.stream t toks
    let x := k.st g.stream
    let k := k.setSt g.stream (advance x (next.getD (x.pc + BitVec.ofNat 52 (16 * words))) (slipCount x + words))
    k.modRegs g.stream (fun r => countPerf r 0))

/-- R38: the three streams commit a B word together; every slip count returns to zero (R34). -/
def commitB (s : State) (g : Agent) : State :=
  modBankOf s g (fun k =>
    let f (k : Bank) (t : Stream) :=
      (k.modSt t (fun x => advance x (x.pc + 16) 0)).modRegs t (fun r => countPerf r 0)
    f (f (f k .l) .x) .s)

/-- The stream waits past step 8 (R33, R96). -/
def pendWord (s : State) (g : Agent) (kind : PendKind) (sent : Nat) (w : WordF) : State :=
  modStOf s g (fun x => { x with run := .running, pending := some { kind := kind, sent := sent, word := w } })

/-! ### Steps 3 to 6 -/

/-- R34: the lowest slip count of the bank. -/
def slipFloor (k : Bank) : Nat := Nat.min k.l.slip (Nat.min k.x.slip k.s.slip)

/-- R34: may the stream pass step 3? -/
def slipOk (k : Bank) (t : Stream) : Bool := (k.st t).slip ≤ slipFloor k + k.sregs.slipw.toNat

/-- R35: a wait begins. -/
def beginWait (s : State) (g : Agent) (v : BitVec 6) : State :=
  let e := (regsOf s g).wt.get (Fin.ofNat 8 (v.toNat - 33))
  modStOf s g (fun x => if x.wait.isSome then x else
    { x with wait := some { value := v, start := s.cal.cycle, entry := if 33 ≤ v.toNat && v.toNat ≤ 40 then e else {} } })

/-- R35: the condition that ends a wait. -/
def waitHolds (s : State) (g : Agent) (x : WaitSt) : Bool :=
  let v := x.value.toNat
  if v = 0 then true
  else if v ≤ 32 then nbCond s g (Fin.ofNat 32 (v - 1))
  else if v ≤ 40 then x.entry.target.toNat ≤ (tlValue s g.core g.bank (Tl.ofId x.entry.ctr.toNat)).toNat
  else if v = 41 then (List.range 19).all (fun i =>
    ((regsOf s g).last.get (Fin.ofNat 19 i)).toNat ≤ (tlValue s g.core g.bank (Tl.ofId i)).toNat)
  else slotEndOf s (slotStartFrom s x.start) ≤ s.cal.cycle

/-- R293, R376: the checks that a wait makes: the use of a barrier, and a marked wait-table entry. -/
def checkWait (s : State) (g : Agent) (v : BitVec 6) : Res Unit :=
  let n := v.toNat
  if 1 ≤ n && n ≤ 32 then checkNb s g (Fin.ofNat 32 (n - 1))
  else if 33 ≤ n && n ≤ 40 && (regsOf s g).badWt.getLsbD (n - 33) then raise s (eccRegs (n - 33))
  else .ok ()

/-- Steps 3 and 4 of R33: none when they hold, with the wait begun; else the state that stalls or faults there. -/
def passSlipWait (s : State) (g : Agent) (v : BitVec 6) (bword : Bool) : Except State State :=
  let x := stOf s g
  if x.passed < 3 && !slipOk (bankOf s g) g.stream then .error (stallAt s g .slip 2)
  else if 4 ≤ x.passed || v = 0 then .ok s
  else
    match checkWait s g v with
    | .error (.fault s f) => .error (wordFault s g f bword false)
    | .error (.stall s why) => .error (stallAt s g why 3)
    | .ok () =>
      let s := beginWait s g v
      match (stOf s g).wait with
      | some y => if waitHolds s g y then .ok s else .error (stallAt s g .wait 3)
      | none => .ok s

/-- R239, R315, R378: does the park grade in force, or the fence of its core, strike the task of a bank? No new word of
it begins. -/
def struck (s : State) (c : CoreId) (b : BankId) : Bool :=
  match (getBank s c b).task with
  | some t => (2 ≤ s.bud.grade && t.eclass != 0) || (s.ctl.get c).fenced
  | none => false

/-- R233: does the bank of an agent stop with its context? -/
def bankStops (s : State) (g : Agent) : Bool := (getAux s g.core g.bank).freeze.any (·.stopping)

/-- R204: does a posted atomic that KRETRY has performed again hold its stream? -/
def redoHolds (s : State) (g : Agent) : Bool :=
  s.ms.atomics.any (fun r => r.redo != .no && r.form == .posted && r.agent == g)

/-- May the stream of an agent evaluate a word now (R19, R84, R204, R233, R239)? On a period's first cycle the boundary comes
before the words (R330). -/
def mayEvaluate (s : State) (g : Agent) : Bool :=
  let x := stOf s g
  x.run == .running && !x.suspended && x.pending.isNone && (bankOf s g).task.isSome && !struck s g.core g.bank
    && !bankStops s g && !redoHolds s g && s.cal.relock == 0 && period s ≤ s.cal.boundary

/-- The step of R33 that a word which stalls has passed. -/
def passedAt : StallStep → Nat
  | .slip => 2
  | .wait => 3
  | .tokens => 4
  | .rendezvous => 4
  | .queues => 6
  | .op => 7

/-- Steps 7 to 9 of a word. A body that has freed the bank (R283) leaves nothing to commit. -/
def finishWord (g : Agent) (w : WordF) (toks : Tokens) (words : Nat) (r : Res Done) : State :=
  match r with
  | .ok (.commit s pops next) => if (bankOf s g).task.isNone then s else commitWord s g toks pops next words
  | .ok (.pend s kind n) => pendWord s g kind n w
  | .error (.stall s why) => stallAt s g why (passedAt why)
  | .error (.fault s f) => wordFault s g f false false

/-- Steps 3 to 9 of R33 for a word of L, X or S that begins with a header of R30: `words` is 1 for a word and 4 for a
record, `perLane` says that an X word has a lane mask in place of a predicate (R37). A false predicate commits the token
moves, the n tokens of a TKPUSH or TKPOP among them (R33 step 6; DEDUCED, assumption 65). -/
def evalWord (pbl pbr pal par : Bool) (wait : BitVec 6) (pidx : Fin 8) (pneg perLane : Bool) (words : Nat) (w : WordF)
    (form n : Nat) (right : Bool) (body : State → Agent → Res Done) (s : State) : Out :=
  let g := s.cur
  if !mayEvaluate s g then .fault .notEnabled
  else
    match (stOf s g).deferred with
    | d :: rest => .next (takeDeferred s g d rest)
    | [] =>
      match passSlipWait s g wait false with
      | .error s => .next s
      | .ok s =>
        let k := bankOf s g
        let toks := tokensOf pbl pbr pal par form n right
        if !tokensReady k g.stream s.cal.cycle toks then .next (stallAt s g .tokens 4)
        else if tokensBad k g.stream toks then .next (wordFault s g (eccRegs 0) false false)
        else if (stOf s g).thaw then .next (commitWord s g toks [] none words)
        else if predicateBad k g.stream pidx then .next (wordFault s g (eccRegs pidx.val) false false)
        else if !(perLane && g.stream == .x) && !predicate k g.stream pidx pneg
        then .next (commitWord s g toks [] none words)
        else .next (finishWord g w toks words (body s g))

/-- A word of L, X or S. -/
def runWord (w : WordF) (perLane : Bool) (body : State → Agent → Res Done) (s : State) : Out :=
  evalWord w.pbl w.pbr w.pal w.par w.wait w.pidx w.pneg perLane 1 w 0 0 false body s

/-- A TKPUSH (form 1) or TKPOP (form 2) of n tokens (R107). -/
def runTokens (w : WordF) (form : Nat) (s : State) : Out :=
  evalWord w.pbl w.pbr w.pal w.par w.wait w.pidx w.pneg false 1 w form (shortNat w.srcA) (w.mod.getLsbD 0)
    (fun s _ => done s) s

/-- A matrix record (R48): one word at steps 3 to 9, its predicate bit 0 of the mask. -/
def runRec (r : RecF) (body : State → Agent → Res Done) (s : State) : Out :=
  evalWord r.pbl r.pbr r.pal r.par r.wait r.pidx r.pneg false 4 {} 0 0 false body s

/-! ### B words (R38) -/

/-- R38: has a stream reached the B word at an address and taken its steps 1 to 4? -/
def hasArrived (x : StreamSt) (pc : VAddr) : Bool := x.arrived && x.pc == pc && !x.suspended

/-- The three streams of a bank wait past step 8. -/
def pendAll (s : State) (g : Agent) (kind : PendKind) (n : Nat) (w : WordF) : State :=
  let p : Pending := { kind := kind, sent := n, word := w }
  let f (x : StreamSt) : StreamSt := { x with run := .running, pending := some p }
  modBankOf s g (fun k => { k with l := f k.l, x := f k.x, s := f k.s })

/-- The three streams of a bank stall at a step. -/
def stallAll (s : State) (g : Agent) (why : StallStep) : State :=
  let f (x : StreamSt) : StreamSt := { x with run := .stalled why, passed := passedAt why }
  modBankOf s g (fun k => { k with l := f k.l, x := f k.x, s := f k.s })

/-- R38: the operation of a B word executes once, and the three streams commit on one cycle. A body that has freed the
bank (R252, R285) leaves nothing to commit. -/
def finishB (g : Agent) (w : WordF) (r : Res Done) : State :=
  match r with
  | .ok (.commit s _ _) => if (bankOf s g).task.isNone then s else commitB s g
  | .ok (.pend s kind n) => pendAll s g kind n w
  | .error (.stall s why) => stallAll s g why
  | .error (.fault s f) => wordFault s g f true true

/-- A B word: steps 3 and 4 by each stream, the rendezvous, then the operation. -/
def runB (w : WordF) (body : State → Agent → Res Done) (s : State) : Out :=
  let g := s.cur
  if !mayEvaluate s g then .fault .notEnabled
  else
    match (stOf s g).deferred with
    | d :: rest => .next (takeDeferred s g d rest)
    | [] =>
      match passSlipWait s g w.wait true with
      | .error s => .next s
      | .ok s =>
        let s := modStOf s g (fun x => { x with arrived := true })
        let k := bankOf s g
        let pc := (stOf s g).pc
        if hasArrived k.l pc && hasArrived k.x pc && hasArrived k.s pc then
          (if k.l.thaw || k.x.thaw || k.s.thaw then .next (commitB s g)
           else .next (finishB g w (body s g)))
        else .next (stallAt s g .rendezvous 4)

/-! ### Scalar forms (R88, R102) -/

/-- A form that computes one scalar of scalar sources and writes it to a scalar destination. -/
def scalarForm (w : WordF) (srcs : List Operand) (f : State → Agent → Word) (s : State) : Out :=
  runWord w false (fun s g => do
    takeSources s g srcs (dstPush w.dst)
    donePop (writeScalar s g w.dst (f s g)) srcs) s

end Sys2Proof.Machine
end

