-- ==== Sys2Proof/Machine/Fetch.lean ====
section
/-! DEFINITION. Fetching and decoding the word at a stream's PC (R28, R29, R31, R32, R48), and putting an instruction where
the next fetch reads it. -/

namespace Sys2Proof.Machine

/-- The request of a fetch; X has no TLB (R222). -/
def fetchReq (s : State) (g : Agent) : Req :=
  { ctx := (bankCtx (bankOf s g)).getD 0, die := agentDie g, core := some g.core, wr := false, ex := true, byX := g.stream == .x
    kinst := ((bankOf s g).task.map (·.kinst)).getD 0 }

/-- R29: n bytes of text at an address: a translation with execute permission, then data by R137. -/
def fetchParts (s : State) (g : Agent) (va : Word) (n : Nat) : Res (List Part) := do
  checkRange s va n
  accessParts s (fetchReq s g) va.toNat n noFmt

/-- The bytes of such a fetch. -/
def fetchBytes (s : State) (g : Agent) (va : Word) (n : Nat) : Res (List Byte) := do
  let ps ← fetchParts s g va n
  .ok (readKeys s [] (agentDie g) (keysOf ps))

/-- R23, R224: the state after a fetch of n bytes, if it is served. -/
def fetchServed (s : State) (g : Agent) (va : Word) (n : Nat) : State :=
  match fetchParts s g va n with
  | .ok ps => served s (fetchReq s g) ps
  | .error _ => s

/-- R31: does a stream execute a word of a tag code, skip it, or find it reserved? -/
inductive Fate
  | execute | skip | reserved
  deriving DecidableEq, Repr

/-- R31. -/
def fateOf (t : Stream) (tag : Nat) : Fate :=
  match t, tag with
  | _, 4 => .execute
  | .l, 0 => .execute
  | .x, 1 => .execute
  | .x, 3 => .execute
  | .s, 2 => .execute
  | _, 0 => .skip
  | _, 1 => .skip
  | _, 2 => .skip
  | _, 3 => .skip
  | _, _ => .reserved

/-- What a stream finds at its PC. -/
inductive Fetched
  | skip
  | instr (i : Instr)
  | stop (x : Stop)
  deriving DecidableEq, Repr

/-- R31, R32, R371, R372: ILLOP, with the word's bits; UNIT 3 for a B word. -/
def illop (s : State) (raw : Nat) : Stop :=
  .fault s { flt .illop 0 (w64 (raw / 2 ^ 64 % 2 ^ 64)) (w64 (raw % 2 ^ 64)) with
    unit := if raw / 2 ^ 125 % 8 = 4 then 3 else 0 }

/-- R29, R31, R32, R48: the word, or the record, at a stream's PC. -/
def fetchInstr (s : State) (g : Agent) : Fetched :=
  let pc := (stOf s g).pc
  match fetchBytes s g (pc.setWidth 64) 16 with
  | .error x => .stop x
  | .ok bs =>
    let raw := ofBytes bs
    match fateOf g.stream (raw / 2 ^ 125 % 8) with
    | .skip => .skip
    | .reserved => .stop (illop s raw)
    | .execute =>
      if raw / 2 ^ 125 % 8 = 3 then
        match fetchBytes s g (pc.setWidth 64 + 16) 48 with
        | .error x => .stop x
        | .ok more =>
          match decode (bs ++ more) with
          | .ok (i, _) => .instr i
          | .error _ => .stop (illop s raw)
      else
        match decode bs with
        | .ok (i, _) => .instr i
        | .error _ => .stop (illop s raw)

/-- R23: the state once the word at a stream's PC has been fetched, with the rest of its record for a stream that executes
one: the homes of its text are touched. -/
def textServed (s : State) (g : Agent) : State :=
  let pc := (stOf s g).pc.setWidth 64
  match fetchBytes s g pc 16 with
    | .error _ => s
    | .ok bs =>
      let s := fetchServed s g pc 16
      if ofBytes bs / 2 ^ 125 % 8 = 3 && g.stream == .x then fetchServed s g (pc + 16) 48 else s

/-- R33 step 1, R34, R109: a stream skips a word. -/
def skipWord (s : State) (g : Agent) : State :=
  modBankOf s g (fun k =>
    (k.modSt g.stream (fun x => advance x (x.pc + 16) (x.slip + 1))).modRegs g.stream (fun r => countPerf r 1))

/-- A fetch or decode that stops: a fault of the stream (R29, R31, R32), or a stall on a page that is being repaired. -/
def fetchStop (g : Agent) (x : Stop) : State :=
  match x with
  | .stall s _ => stallAt s g .op 2
  | .fault s f => wordFault s g f false false

/-! ### Placing an instruction -/

/-- The stream that executes a word of a tag code (R31). -/
def streamOf (tag : Nat) : Stream :=
  match tag with
  | 1 => .x
  | 2 => .s
  | 3 => .x
  | _ => .l

/-- The task that a placed instruction runs in: context 0, node 0 of no kernel. -/
def placedTask : Task :=
  { handle := 1, ctx := 0, kinst := 0, node := 0, kind := .member, rank := 0, gsize := 1, row := 0 }

/-- The address at which a placed instruction stands. -/
def placedPc : Nat := 0x10000

/-- A page-table pointer to a frame (R211). -/
def pointerTo (f : Nat) : Pte := BitVec.ofNat 128 (1 + f * 2 ^ 36)

/-- A leaf for one frame of HBM4 on die 0 with read and execute permission (R212). -/
def textLeaf (f : Nat) : Pte := BitVec.ofNat 128 (1 + 2 + 4 + 16 + 2 * 2 ^ 11 + f * 2 ^ 36)

/-- The cells of the page tables of context 0, whose root is frame 1, and of a text page in frame 4. -/
def placedCells (bs : List Byte) : List Host.Cell :=
  cellsAt 0x10000 (toBytes 16 (pointerTo 2).toNat) ++ cellsAt 0x20000 (toBytes 16 (pointerTo 3).toNat)
    ++ cellsAt 0x30010 (toBytes 16 (textLeaf 4).toNat) ++ cellsAt 0x40000 bs

/-- Does a write in flight touch frames 1 to 4? -/
def touchesPlaced (w : Write) : Bool := w.cells.any (fun c => 0x10000 ≤ c.1 && c.1 < 0x50000)

/-- The state in which the next step evaluates, as the first word of a fresh task in the active bank of core 0, the
instruction whose bytes are given; at a B word the other two streams have arrived (R38). -/
def placeInstr (s : State) (bs : List Byte) : State :=
  let tag := ofBytes (bs.take 16) / 2 ^ 125 % 8
  let t := streamOf tag
  let x : StreamSt := { run := .running, pc := BitVec.ofNat 52 placedPc }
  let w : StreamSt := if tag = 4 then { x with run := .stalled .rendezvous, passed := 4, arrived := true } else x
  let s := modMs s (fun m => { m with
    mem := Mem.writeCells m.mem (placedCells bs)
    writes := m.writes.filter (fun v => !touchesPlaced v)
    unplaced := m.unplaced.filter (fun v => !touchesPlaced v)
    owners := m.owners.filter (fun o => o.1 < 1 || 4 < o.1) })
  let s := modDie s 0 (fun d => { d with st := .up, tlb := d.tlb.filter (fun e => e.ctx != 0) })
  let s := modCtx s 0 (fun c => { c with st := .running, root := 0x10000 })
  let s := modCore s 0 (fun k => { k with tlb := k.tlb.filter (fun e => e.ctx != 0), urgen := false, aAux := {} })
  let s := modBank s 0 .active (fun k =>
    ({ freshBank k placedTask { pc := w64 placedPc } with l := w, x := w, s := w }).setSt t x)
  { s with cal := { s.cal with relock := 0, boundary := Nat.max s.cal.boundary (period s) }, agenda := .word { core := 0, bank := .active, stream := t } :: s.agenda }

end Sys2Proof.Machine
end

