-- ==== Sys2Proof/Machine/Flags.lean ====
section
/-! DEFINITION. The status flags of FPSTAT and MSTAT (R74, R75). -/

namespace Sys2Proof.Machine

/-- R74: a set of flags, as bits [6:0]. -/
abbrev Flagset := BitVec 7

/-- NV: a NaN was created from operands that held none. -/
def fNV : Flagset := 1
/-- DZ: division of a finite nonzero value by zero. -/
def fDZ : Flagset := 2
/-- OF: overflow. -/
def fOF : Flagset := 4
/-- UF: the result is nonzero, below the smallest normal, and inexact. -/
def fUF : Flagset := 8
/-- NX: a rounding changed a value. -/
def fNX : Flagset := 16
/-- SATF: a result was saturated or clamped. -/
def fSATF : Flagset := 32
/-- SCNAN: an E8M0 scale of 0xFF was decoded. -/
def fSCNAN : Flagset := 64

/-- Flags where a condition holds. -/
def flagIf (b : Bool) (f : Flagset) : Flagset := if b then f else 0

/-- R74: the bits of FPSTAT and MSTAT that a write reaches. -/
def statMask (v : Word) : Word := v &&& 0x7F

/-- R75: X's flags are set when its word commits. -/
def setFp (s : State) (g : Agent) (f : Flagset) : State :=
  modBankOf s g (fun k => { k with sregs := { k.sregs with fpstat := k.sregs.fpstat ||| f.setWidth 64 } })

/-- R75: the sequencer's flags are set when a step completes. -/
def setMstat (s : State) (c : CoreId) (b : BankId) (f : Flagset) : State :=
  modBank s c b (fun k => { k with sregs := { k.sregs with mstat := k.sregs.mstat ||| f.setWidth 64 } })

end Sys2Proof.Machine
end

