-- ==== Sys2Proof/Machine/Numbers.lean ====
section
/-! DEFINITION. Number formats and rounding (R6, R58 to R73, R119), exact arithmetic with zeros, infinities and NaN
(R59, R78, R119 to R121), and conversions (R71 to R73, R125). -/

namespace Sys2Proof.Machine

/-! ### Values -/

/-- An exact value: NaN, an infinity, a signed zero, or a nonzero rational. -/
inductive Val
  | nan
  | inf (neg : Bool)
  | zero (neg : Bool)
  | num (q : Rat)
  deriving DecidableEq, Repr

/-- 2^k, exactly. -/
def two (k : Int) : Rat := if 0 ≤ k then ((2 ^ k.toNat : Nat) : Rat) else mkRat 1 (2 ^ (-k).toNat)

/-- A rational as a value; 0 is +0. -/
def ofRat (q : Rat) : Val := if q = 0 then .zero false else .num q

/-- The sign of a value. -/
def Val.neg : Val → Bool
  | .nan => false
  | .inf n => n
  | .zero n => n
  | .num q => q < 0

/-- The value with its sign flipped. -/
def Val.flip : Val → Val
  | .nan => .nan
  | .inf n => .inf (!n)
  | .zero n => .zero (!n)
  | .num q => .num (-q)

/-- The value with its sign cleared. -/
def Val.abs : Val → Val
  | .nan => .nan
  | .inf _ => .inf false
  | .zero _ => .zero false
  | .num q => .num (if q < 0 then -q else q)

/-- The rational of a finite value, 0 for the others. -/
def Val.rat : Val → Rat
  | .num q => q
  | _ => 0

/-- Is it NaN? -/
def Val.isNan : Val → Bool
  | .nan => true
  | _ => false

/-- Is it NaN or an infinity? -/
def Val.special : Val → Bool
  | .nan | .inf _ => true
  | _ => false

/-- Is it a zero? -/
def Val.isZero : Val → Bool
  | .zero _ => true
  | _ => false

/-- floor(log2 q) for q > 0. -/
def floorLog2 (q : Rat) : Int :=
  let n := q.num.natAbs
  let d := q.den
  let k : Int := (Nat.log2 n : Int) - (Nat.log2 d : Int)
  let lo := if 0 ≤ k then d * 2 ^ k.toNat ≤ n else d ≤ n * 2 ^ (-k).toNat
  if lo then k else k - 1

/-! ### Floating-point formats (R58) -/

/-- The parameters of a floating-point element format: the special encodings are those of IEEE 754 (0), of e4m3 (1), or
none (2). -/
structure FloatFmt where
  ebits : Nat
  fbits : Nat
  bias : Nat
  special : Nat
  /-- The magnitude bits of the largest finite value. -/
  maxBits : Nat
  /-- The canonical NaN. -/
  nan : Nat
  deriving DecidableEq, Repr

/-- R58. -/
def ffF32 : FloatFmt := { ebits := 8, fbits := 23, bias := 127, special := 0, maxBits := 0x7F7FFFFF, nan := 0x7FC00000 }
/-- R58. -/
def ffBf16 : FloatFmt := { ebits := 8, fbits := 7, bias := 127, special := 0, maxBits := 0x7F7F, nan := 0x7FC0 }
/-- R58. -/
def ffF16 : FloatFmt := { ebits := 5, fbits := 10, bias := 15, special := 0, maxBits := 0x7BFF, nan := 0x7E00 }
/-- R58. -/
def ffE5m2 : FloatFmt := { ebits := 5, fbits := 2, bias := 15, special := 0, maxBits := 0x7B, nan := 0x7E }
/-- R58. -/
def ffE4m3 : FloatFmt := { ebits := 4, fbits := 3, bias := 7, special := 1, maxBits := 0x7E, nan := 0x7F }
/-- R58. -/
def ffE3m2 : FloatFmt := { ebits := 3, fbits := 2, bias := 3, special := 2, maxBits := 0x1F, nan := 0 }
/-- R58. -/
def ffE2m1 : FloatFmt := { ebits := 2, fbits := 1, bias := 1, special := 2, maxBits := 0x7, nan := 0 }

/-- The floating-point format of an element type. -/
def EType.float? : EType → Option FloatFmt
  | .f32 => some ffF32
  | .bf16 => some ffBf16
  | .f16 => some ffF16
  | .e5m2 => some ffE5m2
  | .e4m3 => some ffE4m3
  | .e3m2 => some ffE3m2
  | .e2m1 => some ffE2m1
  | _ => none

/-- The bit that holds the sign. -/
def FloatFmt.signBit (f : FloatFmt) : Nat := 2 ^ (f.ebits + f.fbits)

/-- The exponent of the smallest subnormal. -/
def FloatFmt.tiny (f : FloatFmt) : Int := 1 - (f.bias : Int) - (f.fbits : Int)

/-- The exact value of an encoding (R58, R59). -/
def decodeF (f : FloatFmt) (v : Nat) : Val :=
  let neg := v / f.signBit % 2 = 1
  let e := v / 2 ^ f.fbits % 2 ^ f.ebits
  let m := v % 2 ^ f.fbits
  let top := 2 ^ f.ebits - 1
  if f.special = 0 ∧ e = top then (if m = 0 then .inf neg else .nan)
  else if f.special = 1 ∧ e = top ∧ m = 2 ^ f.fbits - 1 then .nan
  else if e = 0 ∧ m = 0 then .zero neg
  else
    let q : Rat := if e = 0 then (m : Rat) * two f.tiny
      else ((2 ^ f.fbits + m : Nat) : Rat) * two ((e : Int) - f.bias - f.fbits)
    .num (if neg then -q else q)

/-! ### Rounding (R6, R68, R71) -/

/-- The rounding modes: to nearest even, toward zero, and stochastic with u = n × 2⁻²⁴. -/
inductive Rnd
  | rne
  | rz
  | sr (n : Nat)
  deriving DecidableEq, Repr

/-- R6: should a value that lies r/d of the way from n to n + 1 units in magnitude take n + 1? -/
def roundUp (m : Rnd) (neg : Bool) (n r d : Nat) : Bool :=
  match m with
  | .rne => d < 2 * r || (2 * r = d && n % 2 = 1)
  | .rz => false
  | .sr u => if neg then !(u * d < (d - r) * 2 ^ 24) && 0 < r else u * d < r * 2 ^ 24

/-- A magnitude in units of 2^q: the whole units, the remainder and its denominator. -/
def inUnits (x : Rat) (q : Int) : Nat × Nat × Nat :=
  let a := x.num.natAbs
  let b := x.den
  let a := if q < 0 then a * 2 ^ (-q).toNat else a
  let b := if 0 ≤ q then b * 2 ^ q.toNat else b
  (a / b, a % b, b)

/-- R71: the result of a finite overflow. -/
def overflowF (f : FloatFmt) (sat neg : Bool) : Nat × Flagset :=
  let sign := if neg then f.signBit else 0
  if sat || f.special = 2 then (sign + f.maxBits, fOF ||| fNX ||| fSATF)
  else if f.special = 1 then (f.nan, fOF ||| fNX ||| fNV)
  else (sign + (2 ^ f.ebits - 1) * 2 ^ f.fbits, fOF ||| fNX)

/-- R6, R71, R74: a nonzero rational rounded to a format. `irr` says that the exact value is irrational and the rational
stands for it: it never is representable. -/
def roundRat (f : FloatFmt) (m : Rnd) (sat irr : Bool) (x : Rat) : Nat × Flagset :=
  let neg := decide (x < 0)
  let e := floorLog2 (if x < 0 then -x else x)
  let q := max (e - f.fbits) f.tiny
  let (n, r, d) := inUnits x q
  let base := (q - f.tiny).toNat * 2 ^ f.fbits
  let floorBits := base + n
  let inexact := irr || r != 0
  let bits := if roundUp m neg n r d then floorBits + 1 else floorBits
  let big : Bool := match m with
    | .rne => f.maxBits < bits
    | .rz => false
    | .sr _ => f.maxBits < floorBits || (floorBits = f.maxBits && r != 0)
  if big then overflowF f sat neg
  else
    let kept := if f.maxBits < bits then f.maxBits else bits
    let under := inexact && 0 < kept && kept < 2 ^ f.fbits
    ((if neg then f.signBit else 0) + kept,
      flagIf (inexact || f.maxBits < bits) fNX ||| flagIf under fUF)

/-- R71: a value rounded to a format. -/
def roundF (f : FloatFmt) (m : Rnd) (sat irr : Bool) (v : Val) : Nat × Flagset :=
  match v with
  | .nan => if f.special = 2 then (0, fNV) else (f.nan, 0)
  | .inf neg =>
    let sign := if neg then f.signBit else 0
    if sat || f.special = 2 then (sign + f.maxBits, fSATF)
    else if f.special = 1 then (f.nan, fNV)
    else (sign + (2 ^ f.ebits - 1) * 2 ^ f.fbits, 0)
  | .zero neg => ((if neg then f.signBit else 0), 0)
  | .num q => roundRat f m sat irr q

/-- RN32 of an exact value (R6): its bits and its flags. -/
def rn32 (v : Val) : Nat × Flagset := roundF ffF32 .rne false false v

/-- RN32, as a value again. -/
def rn32v (v : Val) : Val × Flagset :=
  let r := rn32 v
  (decodeF ffF32 r.1, r.2)

/-! ### Exact operations (R78, R119, R120) -/

/-- The exact product; NV when zero meets infinity. -/
def mulV (a b : Val) : Val × Flagset :=
  let neg := a.neg != b.neg
  match a, b with
  | .nan, _ => (.nan, 0)
  | _, .nan => (.nan, 0)
  | .inf _, .zero _ => (.nan, fNV)
  | .zero _, .inf _ => (.nan, fNV)
  | .inf _, _ => (.inf neg, 0)
  | _, .inf _ => (.inf neg, 0)
  | .zero _, _ => (.zero neg, 0)
  | _, .zero _ => (.zero neg, 0)
  | .num x, .num y => (.num (x * y), 0)

/-- R78: the exact sum of terms. -/
def sumV (ts : List Val) : Val × Flagset :=
  if ts.any Val.isNan then (.nan, 0)
  else
    let pos := ts.any (fun t => t = .inf false)
    let neg := ts.any (fun t => t = .inf true)
    if pos && neg then (.nan, fNV)
    else if pos then (.inf false, 0)
    else if neg then (.inf true, 0)
    else if ts.all Val.isZero then (.zero (!ts.isEmpty && ts.all Val.neg), 0)
    else (ofRat ((ts.map Val.rat).sum), 0)

/-- The exact sum of two values. -/
def addV (a b : Val) : Val × Flagset := sumV [a, b]

/-- R120: A × B + C, exact; 0 × Inf sets NV whatever C holds. -/
def fmaV (a b c : Val) : Val × Flagset :=
  let p := mulV a b
  let r := addV p.1 c
  (r.1, p.2 ||| r.2)

/-- R121: the exact quotient. -/
def divV (a b : Val) : Val × Flagset :=
  let neg := a.neg != b.neg
  match a, b with
  | .nan, _ => (.nan, 0)
  | _, .nan => (.nan, 0)
  | .inf _, .inf _ => (.nan, fNV)
  | .zero _, .zero _ => (.nan, fNV)
  | .inf _, _ => (.inf neg, 0)
  | _, .inf _ => (.zero neg, 0)
  | .zero _, _ => (.zero neg, 0)
  | .num _, .zero _ => (.inf neg, fDZ)
  | .num x, .num y => (.num (x / y), 0)

/-- Is one value below another, neither NaN, with −0 below +0 (R120)? -/
def ltV (a b : Val) : Bool :=
  match a, b with
  | .nan, _ => false
  | _, .nan => false
  | .inf true, .inf true => false
  | .inf true, _ => true
  | _, .inf true => false
  | .inf false, _ => false
  | _, .inf false => true
  | .zero x, .zero y => x && !y
  | x, y => x.rat < y.rat

/-- Are two values equal, with −0 equal to +0 (R123)? -/
def eqV (a b : Val) : Bool :=
  match a, b with
  | .nan, _ => false
  | _, .nan => false
  | .zero _, .zero _ => true
  | x, y => x == y

/-- R120: FMIN. -/
def minV (a b : Val) : Val := if a.isNan then b else if b.isNan then a else if ltV b a then b else a
/-- R120: FMAX. -/
def maxV (a b : Val) : Val := if a.isNan then b else if b.isNan then a else if ltV a b then b else a

/-! ### Integers (R61, R72) -/

/-- The value of an integer element: two's-complement or unsigned. -/
def intOf (signed : Bool) (w v : Nat) : Int := if signed then toSigned w v else (v % 2 ^ w : Nat)

/-- The least and the greatest value of an integer type. -/
def intMin (signed : Bool) (w : Nat) : Int := if signed then -((2 ^ (w - 1) : Nat) : Int) else 0
/-- The greatest value. -/
def intMax (signed : Bool) (w : Nat) : Int := if signed then ((2 ^ (w - 1) : Nat) : Int) - 1 else ((2 ^ w : Nat) : Int) - 1

/-- A value clamped to a range, and whether that changed it. -/
def clampTo (lo hi x : Int) : Int × Bool := if x < lo then (lo, true) else if hi < x then (hi, true) else (x, false)

/-- A rational rounded to an integer by a mode (R6), and whether that changed it. -/
def roundInt (m : Rnd) (x : Rat) : Int × Bool :=
  let (n, r, d) := inUnits x 0
  let neg := decide (x < 0)
  let k := if roundUp m neg n r d then n + 1 else n
  (if neg then -(k : Int) else (k : Int), r != 0)

/-- R72: floating point to integer. The flags are those that R72 names for it: a rounding sets no NX, as FPSTAT stays 0 over
the CVT of R398 (DEDUCED, assumption 77). -/
def floatToInt (signed : Bool) (w : Nat) (m : Rnd) (v : Val) : Nat × Flagset :=
  match v with
  | .nan => (0, fNV)
  | .inf neg => (ofSigned w (if neg then intMin signed w else intMax signed w), fNV)
  | .zero _ => (0, 0)
  | .num q =>
    let (k, cl) := clampTo (intMin signed w) (intMax signed w) (roundInt m q).1
    (ofSigned w k, flagIf cl (fSATF ||| fNV))

/-- R72: integer to integer. -/
def intToInt (signed : Bool) (w : Nat) (sat : Bool) (k : Int) : Nat × Flagset :=
  if intMin signed w ≤ k ∧ k ≤ intMax signed w then (ofSigned w k, 0)
  else if sat then (ofSigned w (clampTo (intMin signed w) (intMax signed w) k).1, fSATF)
  else (ofSigned w k, 0)

/-- R73: conversion to e8m0. -/
def toE8m0 (v : Val) : Nat × Flagset :=
  match v with
  | .nan | .inf _ => (0xFF, fNV)
  | .zero _ => (0, fNX)
  | .num q =>
    let a := if q < 0 then -q else q
    let e := floorLog2 a
    let (k, cl) := clampTo (-127) 127 e
    ((k + 127).toNat, flagIf cl fSATF ||| flagIf (two k != a) fNX)

/-- The width at which elements of a type stand in a vector (R111). -/
def elemWidth (t : EType) : Nat := EType.width t

/-- The exact value of an element of a floating or integer type (R58, R61). -/
def elemVal (t : EType) (v : Nat) : Val :=
  match EType.float? t with
  | some f => decodeF f v
  | none => ofRat (intOf (EType.signed t) (EType.width t) v : Int)

/-- R71 to R73, R125: conversion of an element of type `src`. -/
def convert (src : EType) (dst : CvtDst) (m : Rnd) (sat : Bool) (v : Nat) : Nat × Flagset :=
  match dst with
  | .e8m0 => toE8m0 (elemVal src v)
  | .elem t =>
    match EType.float? src, EType.float? t with
    | some f, some h =>
      if src = t then
        (match decodeF f v with
         | .nan => (f.nan, 0)
         | _ => (v % (2 * f.signBit), 0))
      else roundF h m sat false (decodeF f v)
    | some f, none => floatToInt (EType.signed t) (EType.width t) m (decodeF f v)
    | none, some h => roundF h m sat false (elemVal src v)
    | none, none => intToInt (EType.signed t) (EType.width t) sat (intOf (EType.signed src) (EType.width src) v)

/-! ### MX blocks and NQ4 (R60, R63, R65, R66) -/

/-- R60: the value of an E8M0 code. -/
def e8m0Val (x : Nat) : Val := if x = 0xFF then .nan else .num (two ((x : Int) - 127))

/-- R63: the value of an element under a scale code. -/
def mxVal (f : FloatFmt) (x v : Nat) : Val :=
  if x = 0xFF then .nan
  else match decodeF f v with
    | .num q => .num (q * two ((x : Int) - 127))
    | u => u

/-- R65: the magnitudes of NQ4. -/
def nq4Mags : List Rat :=
  [mkRat 1379 32768, mkRat 1043 8192, mkRat 1769 8192, mkRat 1273 4096, mkRat 1707 4096, mkRat 1110 2048,
   mkRat 1449 2048, 1]

/-- R65: the code value. -/
def nq4Code (c : Nat) : Rat :=
  let m := (nq4Mags[c % 8]?).getD 0
  if c / 8 % 2 = 1 then -m else m

/-- R66: K, the f32 nearest to 1/255. -/
def nq4K : Val := decodeF ffF32 0x3B808081

/-- R66: the effective scale of a block scale s under a super-scale. It belongs to the decoding of a block and sets no
flag. -/
def nq4Scale (s : Nat) (sup : Val) : Val :=
  let a := (rn32v (mulV (ofRat (s : Nat)) sup).1).1
  (rn32v (mulV a nq4K).1).1

/-- R66: the value of an element; a block with s = 0 is structural and reads +0. -/
def nq4Val (s : Nat) (e : Val) (c : Nat) : Val := if s = 0 then .zero false else (mulV (.num (nq4Code c)) e).1

end Sys2Proof.Machine
end

