-- ==== Sys2Proof/Machine/Scalar.lean ====
section
/-! DEFINITION. The scalar integer forms (R103). -/

namespace Sys2Proof.Machine

/-- A form of two sources (R103). -/
def binForm (w : WordF) (f : Word → Word → Word) (s : State) : Out :=
  let srcs := [w.srcA, w.srcB]
  scalarForm w srcs (fun s g => f (scal s g w srcs 0) (scal s g w srcs 1)) s

/-- A form of one source (R103). -/
def unForm (w : WordF) (f : Word → Word) (s : State) : Out :=
  let srcs := [w.srcA]
  scalarForm w srcs (fun s g => f (scal s g w srcs 0)) s

/-- A form of three sources (R103). -/
def triForm (w : WordF) (f : Word → Word → Word → Word) (s : State) : Out :=
  let srcs := [w.srcA, w.srcB, w.srcC]
  scalarForm w srcs (fun s g => f (scal s g w srcs 0) (scal s g w srcs 1) (scal s g w srcs 2)) s

/-- mod[2:0] of a word of L or S (R42). -/
def mod3 (w : WordF) : Nat := w.mod.toNat % 8

/-- R103: the high half of the exact product: signed, unsigned, or signed by unsigned. -/
def mulHigh (mode : Nat) (a b : Word) : Word :=
  let x : Int := if mode = 1 then a.toNat else a.toInt
  let y : Int := if mode = 0 then b.toInt else b.toNat
  BitVec.ofInt 64 (x * y / 2 ^ 64)

/-- R103: DIV: the quotient rounded toward zero; all ones for B = 0. -/
def divWord (unsigned : Bool) (a b : Word) : Word :=
  if b = 0 then BitVec.allOnes 64
  else if unsigned then BitVec.ofNat 64 (a.toNat / b.toNat)
  else BitVec.ofInt 64 (a.toInt.tdiv b.toInt)

/-- R103: REM: A − B × quotient, with the sign of A; A for B = 0. -/
def remWord (unsigned : Bool) (a b : Word) : Word :=
  if b = 0 then a
  else if unsigned then BitVec.ofNat 64 (a.toNat % b.toNat)
  else BitVec.ofInt 64 (a.toInt.tmod b.toInt)

/-- Is A below B, signed or unsigned? -/
def below (unsigned : Bool) (a b : Word) : Bool := if unsigned then a.toNat < b.toNat else a.toInt < b.toInt

/-- R103: the conditions of SET. -/
def setCond (m : Nat) (a b : Word) : Bool :=
  match m with
  | 0 => a == b
  | 1 => a != b
  | 2 => below false a b
  | 3 => !below false a b
  | 4 => below true a b
  | 5 => !below true a b
  | 6 => below false b a
  | _ => below true b a

/-- R103: leading zero bits of a word, 0 to 64. -/
def clzWord (a : Word) : Nat := if a = 0 then 64 else 63 - Nat.log2 a.toNat

/-- R103: set bits of a word. -/
def popWord (a : Word) : Nat := popCount a

/-- R103: BFX's field: p = B[5:0] and w = B[13:8] + 1. -/
def bfxWord (sx : Bool) (a b : Word) : Word :=
  let p := bits b 5 0
  let n := bits b 13 8 + 1
  let v := a.toNat / 2 ^ p % 2 ^ n
  if sx then sext64 n v else BitVec.ofNat 64 v

/-- R103: BFI: C with bits p to min(p + w − 1, 63) replaced by the low bits of A. -/
def bfiWord (a b c : Word) : Word :=
  let p := bits b 5 0
  let n := bits b 13 8 + 1
  let m : Word := BitVec.ofNat 64 ((2 ^ n - 1) * 2 ^ p)
  (c &&& ~~~m) ||| (BitVec.ofNat 64 (a.toNat * 2 ^ p) &&& m)

/-- NOP (R103): tokens and wait slot apart, no effect. -/
def execNop (w : WordF) (s : State) : Out := runWord w false (fun s _ => done s) s
/-- MOV (R103). -/
def execMov (w : WordF) (s : State) : Out := unForm w id s
/-- ADD (R103). -/
def execAdd (w : WordF) (s : State) : Out := binForm w (· + ·) s
/-- SUB (R103). -/
def execSub (w : WordF) (s : State) : Out := binForm w (· - ·) s
/-- MUL (R103). -/
def execMul (w : WordF) (s : State) : Out := binForm w (· * ·) s
/-- MULH (R103). -/
def execMulh (w : WordF) (s : State) : Out := binForm w (mulHigh (mod3 w)) s
/-- DIV (R103). -/
def execDiv (w : WordF) (s : State) : Out := binForm w (divWord (w.mod.getLsbD 0)) s
/-- REM (R103). -/
def execRem (w : WordF) (s : State) : Out := binForm w (remWord (w.mod.getLsbD 0)) s
/-- AND (R103). -/
def execAnd (w : WordF) (s : State) : Out := binForm w (· &&& ·) s
/-- OR (R103). -/
def execOr (w : WordF) (s : State) : Out := binForm w (· ||| ·) s
/-- XOR (R103). -/
def execXor (w : WordF) (s : State) : Out := binForm w (· ^^^ ·) s
/-- SHL (R103). -/
def execShl (w : WordF) (s : State) : Out := binForm w (fun a b => a <<< (b.toNat % 64)) s
/-- SHR (R103). -/
def execShr (w : WordF) (s : State) : Out := binForm w (fun a b => a >>> (b.toNat % 64)) s
/-- SRA (R103). -/
def execSra (w : WordF) (s : State) : Out := binForm w (fun a b => a.sshiftRight (b.toNat % 64)) s
/-- MIN (R103). -/
def execMin (w : WordF) (s : State) : Out := binForm w (fun a b => if below (w.mod.getLsbD 0) b a then b else a) s
/-- MAX (R103). -/
def execMax (w : WordF) (s : State) : Out := binForm w (fun a b => if below (w.mod.getLsbD 0) a b then b else a) s
/-- SET (R103). -/
def execSet (w : WordF) (s : State) : Out := binForm w (fun a b => if setCond (mod3 w) a b then 1 else 0) s
/-- SEL (R103). -/
def execSel (w : WordF) (s : State) : Out := triForm w (fun a b c => if c ≠ 0 then a else b) s
/-- MADD (R103). -/
def execMadd (w : WordF) (s : State) : Out := triForm w (fun a b c => a * b + c) s
/-- SCALE (R103). -/
def execScale (w : WordF) (s : State) : Out := binForm w (fun a b => a + b <<< mod3 w) s
/-- CLZ (R103). -/
def execClz (w : WordF) (s : State) : Out := unForm w (fun a => w64 (clzWord a)) s
/-- POPC (R103). -/
def execPopc (w : WordF) (s : State) : Out := unForm w (fun a => w64 (popWord a)) s
/-- BFX (R103). -/
def execBfx (w : WordF) (s : State) : Out := binForm w (bfxWord (w.mod.getLsbD 0)) s
/-- BFI (R103). -/
def execBfi (w : WordF) (s : State) : Out := triForm w bfiWord s

end Sys2Proof.Machine
end

