-- ==== Sys2Proof/Machine/Barrier.lean ====
section
/-! DEFINITION. Named barriers (R293 to R296), the contributions they hold (R159), group barriers as a task sees them
(R297, R298), and the barrier and timeline forms (R301 to R303). -/

namespace Sys2Proof.Machine

/-! ### Named barriers -/

/-- The state with a named barrier changed. -/
def modNb (s : State) (c : CoreId) (n : Fin 32) (f : NBar → NBar) : State :=
  modCore s c (fun k => { k with nb := vmod k.nb n f })

/-- R295: an arrival of k; none where it raises BARRIER. -/
def NBar.arrive (b : NBar) (k : Nat) : Option NBar :=
  let n := b.arrivals.toNat + k
  if b.count = 0 || b.count.toNat < n then none
  else if n = b.count.toNat then some { b with phase := b.phase + 1, arrivals := 0 }
  else some { b with arrivals := BitVec.ofNat 16 n }

/-- R295: may an arrival of a place in the order L, X, S, REDSP be counted now? One that another place has overtaken on
this cycle is counted on the next. -/
def arrivesNow (s : State) (b : NBar) (place : Nat) : Bool :=
  match b.seen with
  | some (c, p) => c != s.cal.cycle || p ≤ place
  | none => true

/-- R295: the place of a stream in that order. -/
def arrivalPlace : Stream → Nat
  | .l => 0
  | .x => 1
  | .s => 2

/-- R159: one element of a REDSP, by operation 0 add, 1 max, 2 min. -/
def redElem (op : Nat) (t : EType) (a b : Nat) : Nat :=
  match t with
  | .f32 =>
    let x := decodeF ffF32 a
    let y := decodeF ffF32 b
    if op = 0 then (rn32 (addV x y).1).1
    else (roundF ffF32 .rne false false (if op = 1 then maxV x y else minV x y)).1
  | _ =>
    let w := EType.width t
    let sg := EType.signed t
    if op = 0 then (a + b) % 2 ^ w
    else
      let lt := decide (intOf sg w a < intOf sg w b)
      if (op == 1) == lt then b else a

/-- R159: a contribution is combined with its 256 target bytes. -/
def applyRed (s : State) (c : CoreId) (x : Contribution) : State :=
  let w := EType.width x.etype
  let old := bytesVec (spadLoad s c x.off 256)
  let new := vecOf w ((List.range (2048 / w)).map (fun i => redElem x.op x.etype (elemAt old w i) (elemAt x.data w i)))
  spadWrite s c none (if w = 64 then 8 else 4) x.off (vecBytes new)

/-- A contribution is applied and counts as one arrival (R159, R295); with the phase that it ends, the writes before it race no
more. -/
def applyContribution (s : State) (c : CoreId) (n : Fin 32) (x : Contribution) : State :=
  let t := modNb (applyRed s c x) c n (fun b => (b.arrive 1).getD b)
  if ((getCore t c).nb.get n).phase = ((getCore s c).nb.get n).phase then t else settleSpad t c (fun _ => true)

/-- R159: the held contributions are applied, in ascending RANK and then in order of issue, when their number equals the
arrivals that the phase still needs. -/
def settleHeld (s : State) (c : CoreId) (n : Fin 32) : State :=
  let b := (getCore s c).nb.get n
  if !b.held.isEmpty && b.arrivals.toNat + b.held.length = b.count.toNat then
    foldAll (modNb s c n (fun b => { b with held := [] })) (b.held.mergeSort (fun x y => x.rank ≤ y.rank))
      (fun s x => applyContribution s c n x)
  else s

/-- R294, R295: a stream's own record of its arrival. -/
def markArrival (s : State) (g : Agent) (n : Fin 32) : State :=
  let p := ((getCore s g.core).nb.get n).phase
  modRegsOf s g (fun r => { r with nb := vset r.nb n { last := p, arrived := true } })

/-- R295: BARINIT of count a: the barrier opens and ARRIVED is cleared in every stream of both banks. -/
def openNb (s : State) (c : CoreId) (n : Fin 32) (a : Nat) : State :=
  let clear (k : Bank) : Bank := streams.foldl (fun k t =>
    k.modRegs t (fun r => { r with nb := vmod r.nb n (fun v => { v with arrived := false }) })) k
  modCore s c (fun k => { k with
    nb := vset k.nb n { count := BitVec.ofNat 16 a, arrivals := 0, phase := 0, held := [] }
    active := clear k.active, shadow := clear k.shadow })

/-- The named barrier of an operand. -/
def nbNo (o : Operand) : Fin 32 :=
  match o with
  | .nb n => n
  | _ => 0

/-- R372: BARRIER with the number of a named barrier. -/
def nbFault (n : Fin 32) : FaultInfo := flt .barrier 0 (w64 n.val)

/-- R301: BARTRY's layout. -/
def tryWord (cond : Bool) (arrivals : Nat) (phase : BitVec 32) : Word :=
  BitVec.ofNat 64 ((if cond then 1 else 0) + arrivals % 65536 * 2 ^ 16 + phase.toNat * 2 ^ 32)

/-- BARINIT (R301). -/
def execBarinit (w : WordF) (s : State) : Out :=
  let srcs := [w.srcA]
  let n := nbNo w.dst
  runWord w false (fun s g => do
    takeSources s g srcs []
    checkNb s g n
    let a := scal s g w srcs 0
    let b := (getCore s g.core).nb.get n
    if a.toNat = 0 || 65535 < a.toNat then raise s (nbFault n)
    if b.count ≠ 0 && (b.arrivals ≠ 0 || !b.held.isEmpty) then raise s (nbFault n)
    donePop (openNb s g.core n a.toNat) srcs) s

/-- BARARR (R295, R296, R301): an arrival is a release at core scope, which drains the store buffer (R195). -/
def execBararr (w : WordF) (s : State) : Out :=
  let srcs := [w.srcB]
  let n := nbNo w.srcA
  runWord w false (fun s g => do
    takeSources s g srcs []
    checkNb s g n
    let a := scal s g w srcs 0
    if a.toNat = 0 || 65535 < a.toNat then raise s (nbFault n)
    if !arrivesNow s ((getCore s g.core).nb.get n) (arrivalPlace g.stream) then stall s .op
    match ((getCore s g.core).nb.get n).arrive a.toNat with
    | none => raise s (nbFault n)
    | some b =>
      let s := markArrival (drainAll s g.core g.bank) g n
      let b := { b with seen := some (s.cal.cycle, arrivalPlace g.stream) }
      donePop (settleHeld (modNb s g.core n (fun _ => b)) g.core n) srcs) s

/-- BARTRY (R301). -/
def execBartry (w : WordF) (s : State) : Out :=
  let n := nbNo w.srcA
  runWord w false (fun s g => do
    takeSources s g [] (dstPush w.dst)
    checkNb s g n
    let b := (getCore s g.core).nb.get n
    done (writeScalar s g w.dst (tryWord (nbCond s g n) b.arrivals.toNat b.phase))) s

/-! ### Group barriers -/

/-- R286: is a task a member of its group? A continuation of a member stands for it. -/
def Task.member (t : Task) : Bool := t.kind == .member

/-- The record of a rank at a group barrier. -/
def rankRec (s : State) (t : Task) (g : Fin 64) : Option RankRec :=
  (getInst s t.kinst t.node).bind (fun i => i.ranks.find? (fun r => r.g == g && r.rank == t.rank))

/-- R297: a task's condition on a group barrier. -/
def gbCond (s : State) (t : Task) (g : Fin 64) : Bool :=
  if !t.member then true
  else match rankRec s t g with
    | none => true
    | some r => ((getCaux s t.ctx).gb.get g).phase != r.last

/-- R372: BARRIER with the number of a group barrier. -/
def gbFault (n : Nat) : FaultInfo := flt .barrier 0 (w64 (64 + n))

/-- R300, R302: the group barrier that a word names. -/
def gbIndex (s : State) (v : Word) : Res (Fin 64) :=
  if h : v.toNat < 64 then .ok ⟨v.toNat, h⟩ else raise s (gbFault v.toNat)

/-- GBARARR (R302): the arrival travels to the dispatcher; the word completes when it has been counted. -/
def execGbararr (w : WordF) (s : State) : Out :=
  let srcs := [w.srcA]
  runWord w false (fun s g => do
    takeSources s g srcs []
    let n ← gbIndex s (scal s g w srcs 0)
    match (bankOf s g).task with
    | none => raise s (gbFault n.val)
    | some t =>
      let (s, id) := takeId (drainAll s g.core g.bank)
      let s := modMs s (fun m => { m with gbars := m.gbars ++ [{ id := id, agent := g, g := n, task := t }] })
      .ok (.pend (post s { src := agentDie g, dst := 8, kind := .request id, ctx := some t.ctx, agent := streamNo g }) .gbar id)) s

/-- GBARTRY (R302). -/
def execGbartry (w : WordF) (s : State) : Out :=
  let srcs := [w.srcA]
  runWord w false (fun s g => do
    takeSources s g srcs (dstPush w.dst)
    let n ← gbIndex s (scal s g w srcs 0)
    match (bankOf s g).task with
    | none => raise s (gbFault n.val)
    | some t =>
      let b := (getCaux s t.ctx).gb.get n
      donePop (writeScalar s g w.dst (tryWord (gbCond s t n) b.arrivals b.phase)) srcs) s

/-! ### Timeline forms -/

/-- The counter of an operand. -/
def tlNo (o : Operand) : Tl :=
  match o with
  | .tl t => t
  | _ => .m

/-- WAITTL (R303): the word waits at step 7. -/
def execWaittl (w : WordF) (s : State) : Out :=
  let srcs := [w.srcB]
  runWord w false (fun s g => do
    takeSources s g srcs []
    if (tlValue s g.core g.bank (tlNo w.srcA)).toNat < (scal s g w srcs 0).toNat then stall s .queues
    donePop s srcs) s

/-- TLGET (R303). -/
def execTlget (w : WordF) (s : State) : Out :=
  runWord w false (fun s g => do
    takeSources s g [] (dstPush w.dst)
    done (writeScalar s g w.dst (tlValue s g.core g.bank (tlNo w.srcA)))) s

/-- SETWT (R303). -/
def execSetwt (w : WordF) (s : State) : Out :=
  let srcs := [w.srcB]
  let n : Fin 8 := Fin.ofNat 8 (mod3 w)
  runWord w false (fun s g => do
    takeSources s g srcs []
    let e : WtEntry := { ctr := BitVec.ofNat 5 (Tl.id (tlNo w.srcA)), target := scal s g w srcs 0 }
    donePop (modRegsOf s g (fun r => { r with
      wt := vset r.wt n e, badWt := r.badWt &&& ~~~((1 : BitVec 8) <<< n.val) })) srcs) s

end Sys2Proof.Machine
end

