-- ==== Sys2Proof/Machine/Philox.lean ====
section
/-! DEFINITION. The counter-based generator (R69, R332). -/

namespace Sys2Proof.Machine

/-- R332: one round on counter words under a key. -/
def philoxRound (k0 k1 : Nat) (c : Nat × Nat × Nat × Nat) : Nat × Nat × Nat × Nat :=
  let (c0, c1, c2, c3) := c
  let p0 := 0xD2511F53 * c0
  let p1 := 0xCD9E8D57 * c2
  ((p1 / 2 ^ 32) ^^^ c1 ^^^ k0, p1 % 2 ^ 32, (p0 / 2 ^ 32) ^^^ c3 ^^^ k1, p0 % 2 ^ 32)

/-- R332: n rounds, the key bumped between them. -/
def philoxRounds : Nat → Nat → Nat → Nat × Nat × Nat × Nat → Nat × Nat × Nat × Nat
  | 0, _, _, c => c
  | n + 1, k0, k1, c =>
    philoxRounds n ((k0 + 0x9E3779B9) % 2 ^ 32) ((k1 + 0xBB67AE85) % 2 ^ 32) (philoxRound k0 k1 c)

/-- R332: Philox4x32-10; word 0 of the output. -/
def philox (key : Word) (c0 c1 c2 c3 : Nat) : Nat :=
  (philoxRounds 10 (bits key 31 0) (bits key 63 32) (c0, c1, c2, c3)).1

/-- R69: the u of a stochastic rounding at a site and a position, as a multiple of 2⁻²⁴. -/
def srDraw (seed : Word) (site : Nat) (pos : Nat) : Nat :=
  philox seed (pos % 2 ^ 32) (pos / 2 ^ 32 % 2 ^ 32) site 1 / 256

/-- R68, R119: the rounding mode of a field value 0, 1 or 2 at a site and a position. -/
def rndAt (mode : Nat) (seed : Word) (site pos : Nat) : Rnd :=
  match mode with
  | 0 => .rne
  | 1 => .rz
  | _ => .sr (srDraw seed site pos)

end Sys2Proof.Machine
end

