-- ==== Sys2Proof/Machine/Vector.lean ====
section
/-! DEFINITION. What the vector forms share (R111 to R116): elements, lanes, literals and the element-wise forms. -/

namespace Sys2Proof.Machine

/-- The number of elements of a width in a vector (R111). -/
def elemCount (w : Nat) : Nat := 2048 / w

/-- The elements of a vector (R111). -/
def elemsOf (w : Nat) (v : Vec) : List Nat := (List.range (elemCount w)).map (elemAt v w)

/-- R112: does a mask select element i of a width? -/
def selects (w : Nat) (m : Word) (i : Nat) : Bool := m.getLsbD (if w = 64 then 2 * i else i * w / 32)

/-- R112: the bits of a vector that a mask selects, for elements of a width. -/
def selBits (w : Nat) (m : Word) : Vec :=
  vecOf 32 ((List.range 64).map (fun j => if m.getLsbD (if w = 64 then j / 2 * 2 else j) then 2 ^ 32 - 1 else 0))

/-- R112: the mask bits that a predicate selects, for elements of a width. -/
def selMask (w : Nat) (m : Word) : Word :=
  if w = 64 then BitVec.ofNat 64 (ofElems 1 ((List.range 64).map (fun j => if m.getLsbD (j / 2 * 2) then 1 else 0)))
  else m

/-- R42: a short literal as an element: extended by its sign for integers, converted exactly for floating point. -/
def shortElem (t : EType) (v : BitVec 8) : Nat :=
  match t with
  | .f32 => (roundF ffF32 .rne false false (ofRat v.toInt)).1
  | .f16 => (roundF ffF16 .rne false false (ofRat v.toInt)).1
  | .bf16 => (roundF ffBf16 .rne false false (ofRat v.toInt)).1
  | _ => ofSigned (EType.width t) v.toInt

/-- R42, R114: a 32-bit literal as an element. -/
def litElem (t : EType) (v : BitVec 32) : Nat :=
  match t with
  | .s64 => (v.signExtend 64).toNat
  | _ => v.toNat % 2 ^ EType.width t

/-- One element broadcast to a vector. -/
def broadcast (w e : Nat) : Vec := vecOf w (List.replicate (elemCount w) e)

/-- A vector source (R42, R114, R115). -/
def vecSource (s : State) (g : Agent) (t : EType) (srcs : List Operand) (i : Nat) : Vec :=
  match srcs[i]? with
  | some (.short v) => broadcast (EType.width t) (shortElem t v)
  | some (.lit v) => broadcast (EType.width t) (litElem t v)
  | _ => whole s g srcs i

/-- R111: an element of a type: the two top bits of an e3m2 element are ignored when read and written as zero. -/
def elemTrim (t : EType) (v : Nat) : Nat := if t = .e3m2 then v % 64 else v

/-- Element i of a vector of a type (R111). -/
def readElem (t : EType) (v : Vec) (i : Nat) : Nat := elemTrim t (elemAt v (EType.width t) i)

/-- A mask source. -/
def maskSource (s : State) (g : Agent) (srcs : List Operand) (i : Nat) : Word := (whole s g srcs i).setWidth 64

/-- R69, R376: the number of a marked register that rounding by a mode field reads: SRSEED or XSRPOS, by mode 2. -/
def srMarked (x : BankSregs) (mode : Nat) : Option Nat :=
  if mode % 4 < 2 then none else [0x12, 0x13].find? (fun n => x.bad.getLsbD n)

/-- R376: an uncorrectable error of the bank's vector path: ECCU at the word, which makes no change; evaluated again, the
word runs. A word that rounds by its mode field, which `rounds` says, raises ECCU where the mode reads a marked register. -/
def runX (w : WordF) (perLane : Bool) (body : State → Agent → Res Done) (s : State) (rounds : Bool := false) : Out :=
  runWord w perLane (fun s g =>
    if (getAux s g.core g.bank).datapathBad
    then raise (modAux s g.core g.bank (fun a => { a with datapathBad := false })) (flt .eccu 0 8)
    else match if rounds then srMarked (bankOf s g).sregs w.mod.toNat else none with
      | some n => raise s (eccRegs n)
      | none => body s g) s

/-- The flags of the selected elements (R116). -/
def selFlags (w : Nat) (m : Word) (rs : List (Nat × Flagset)) : Flagset :=
  (List.range rs.length).foldl (fun f i =>
    if selects w m i then f ||| ((rs[i]?).map (·.2)).getD 0 else f) 0

/-- A vector result with flags, under the word's predicate (R37, R112, R116). -/
def putElems (s : State) (g : Agent) (w : WordF) (width : Nat) (rs : List (Nat × Flagset)) : State :=
  let m := laneMask (bankOf s g) w
  writeVec (setFp s g (selFlags width m rs)) g w.dst (selBits width m) (vecOf width (rs.map (·.1)))

/-- A vector result without flags, under the word's predicate. -/
def putVec (s : State) (g : Agent) (w : WordF) (width : Nat) (v : Vec) : State :=
  writeVec s g w.dst (selBits width (laneMask (bankOf s g) w)) v

/-- A mask result, under the word's predicate (R116). -/
def putMask (s : State) (g : Agent) (w : WordF) (width : Nat) (v : Word) : State :=
  writeMask s g w.dst (selMask width (laneMask (bankOf s g) w)) v

/-- A form whose element i is a function of the elements i of its vector sources. -/
def mapForm (w : WordF) (srcs : List Operand) (f : State → Agent → Nat → (Nat → Nat) → Nat × Flagset) (s : State)
    (rounds : Bool := false) : Out :=
  runX w true (fun s g => do
    takeSources s g srcs (dstPush w.dst)
    let width := EType.width w.etype
    let vs := (List.range srcs.length).map (vecSource s g w.etype srcs)
    let rs := (List.range (elemCount width)).map (fun i => f s g i (fun k => elemAt ((vs[k]?).getD 0) width i))
    donePop (putElems s g w width rs) srcs) s rounds

/-- The rounding mode of element i of an X form with mode field `mode` (R69, R119). -/
def xRnd (s : State) (g : Agent) (mode i : Nat) : Rnd :=
  let r := (bankOf s g).sregs
  rndAt mode r.srseed 0 (r.xsrpos.toNat + i)

end Sys2Proof.Machine
end

