-- ==== Sys2Proof/Machine/MemWords.lean ====
section
/-! DEFINITION. What the words that touch memory share: operands and requests (R134), single and several accesses (R135,
R136), raw vectors (R140), page formats (R47, R58 to R67), and what releases and sc accesses wait for (R192, R195,
R197). -/

namespace Sys2Proof.Machine

/-! ### Requests -/

/-- The request that a word of a stream makes. -/
def reqOf (s : State) (g : Agent) (wr : Bool) : Req :=
  { ctx := (bankCtx (bankOf s g)).getD 0, die := agentDie g, core := some g.core, wr := wr
    kinst := ((bankOf s g).task.map (·.kinst)).getD 0 }

/-- R134: A + B of a memory operand whose A is source i and whose B is the next. -/
def memAddr (s : State) (g : Agent) (w : WordF) (srcs : List Operand) (i : Nat) : Word :=
  scal s g w srcs i + scal s g w srcs (i + 1)

/-- The store buffer of a stream's bank. -/
def bufferOf (s : State) (g : Agent) : List BufStore := (getAux s g.core g.bank).sb

/-- PERF 6 (R109): pages of an access that the core's own TLB does not hold. -/
def tlbMisses (s : State) (g : Agent) (q : Req) (va len : Nat) : Nat :=
  ((pagesOf va len).filter (fun p => (cachedLeaf (getCore s g.core).tlb q.ctx p.1).isNone)).length

/-- The state with the misses of an access counted for a stream. -/
def countMisses (s : State) (g : Agent) (n : Nat) : State :=
  if n = 0 then s
  else modRegsOf s g (fun r => { r with perf := vmod r.perf 6 (· + BitVec.ofNat 64 n) })

/-- An access that has passed its checks: its address, its length and its parts. -/
structure Checked where
  va : Nat
  len : Nat
  parts : List Part
  deriving DecidableEq, Repr

/-- R135: the checks of a request of a word. -/
def checkedBy (s : State) (q : Req) (va : Word) (len align : Nat) : Res Checked := do
  checkRange s va len
  checkAlign s va align
  let ps ← accessParts s q va.toNat len noFmt
  .ok { va := va.toNat, len := len, parts := ps }

/-- R109, R369: the accesses of a word are served once every check of the word has passed. -/
def wordServed (s : State) (g : Agent) (as : List Checked) : State :=
  let q := reqOf s g false
  countMisses (served s q (as.flatMap (·.parts))) g ((as.map (fun a => tlbMisses s g q a.va a.len)).sum)

/-- The bytes of an access as the bank of a stream sees them (R192). -/
def Checked.bytes (a : Checked) (s : State) (g : Agent) : List Byte :=
  readKeys s (bufferOf s g) (agentDie g) (keysOf a.parts)

/-- A word's access: the state once served, and the keys of its bytes. -/
def wordAccess (s : State) (g : Agent) (wr : Bool) (va : Word) (len align : Nat) : Res (State × List (Option Nat)) := do
  let a ← checkedBy s (reqOf s g wr) va len align
  .ok (wordServed s g [a], keysOf a.parts)

/-- R141: the checks of an access of a word to the companion area of a page that it may access. -/
def companion (s : State) (g : Agent) (wr : Bool) (va : Nat) (len : Nat) : Res Checked :=
  checkedBy s { reqOf s g wr with asPage := true } (w64 va) len 1

/-- R33, R369: a word that waits has done nothing, unless it has begun a page move. -/
def orStall {α : Type} (s : State) (r : Res α) : Res α :=
  match r with
  | .error (.stall s' why) => if s'.nextId = s.nextId then .error (.stall s why) else r
  | _ => r

/-- A word's load (R192). -/
def wordLoad (s : State) (g : Agent) (va : Word) (len align : Nat) : Res (State × List Byte) := do
  let (s, ks) ← wordAccess s g false va len align
  .ok (s, readKeys s (bufferOf s g) (agentDie g) ks)

/-- R189: a word's store enters the bank's store buffer at its commit. -/
def wordStore (s : State) (g : Agent) (va : Word) (bs : List Byte) (align : Nat) : Res State := do
  let (s, ks) ← wordAccess s g true va bs.length align
  .ok (bufferStore s g.core g.bank (keyCells ks bs))

/-- R135: a fault names the element or vector index. -/
def atPos {α : Type} (i : Nat) (r : Res α) : Res α :=
  match r with
  | .error (.fault s f) => .error (.fault s { f with pos := w64 i })
  | r => r

/-- R136: the parts of each of several accesses of one size, each checked whole by R135 in order of index. -/
def partsMany (s : State) (q : Req) (len align : Nat) : (i : Nat) → List Word → Res (List (List Part))
  | _, [] => .ok []
  | i, va :: vas => do
    let ps ← atPos i (do
      checkRange s va len
      checkAlign s va align
      accessParts s q va.toNat len noFmt)
    let rest ← partsMany s q len align (i + 1) vas
    .ok (ps :: rest)

/-- R136: several accesses of a word: the state once all are served, and the keys of each. -/
def wordAccesses (s : State) (g : Agent) (wr : Bool) (len : Nat) (vas : List Word) :
    Res (State × List (List (Option Nat))) := do
  let q := reqOf s g wr
  let pss ← partsMany s q len len 0 vas
  let s' := served s q pss.flatten
  .ok (countMisses s' g ((vas.map (fun va => tlbMisses s g q va.toNat len)).sum), pss.map keysOf)

/-! ### Raw vectors (R140) -/

/-- The bytes that a raw vector covers. -/
def rawLen (t : EType) : Nat := if t = .e3m2 then 192 else 256

/-- Its alignment. -/
def rawAlign (t : EType) : Nat := if t = .e3m2 then 8 else 16

/-- R194: the bytes of a unit that an access of a vector reads or writes whole. -/
def unitLen (t : EType) : Nat := if EType.width t = 64 then 8 else 4

/-- The vector that raw bytes hold; e3m2 is packed in memory by R62 and stands in 8-bit elements (R111). -/
def rawVec (t : EType) (bs : List Byte) : Vec :=
  if t = .e3m2 then
    let v := ofBytes bs
    vecOf 8 ((List.range 256).map (fun j => v / 2 ^ (6 * j) % 64))
  else bytesVec bs

/-- The raw bytes of a vector. -/
def rawBytes (t : EType) (v : Vec) : List Byte :=
  if t = .e3m2 then toBytes 192 (ofElems 6 ((List.range 256).map (fun j => elemAt v 8 j)))
  else vecBytes v

/-! ### Page formats (R47, R58 to R67) -/

/-- The bits of an element of a page format (R62). -/
def fmtBits : Nat → Nat
  | 1 => 32
  | 2 | 3 => 16
  | 4 | 5 | 8 => 8
  | 6 => 6
  | 7 | 9 | 10 => 4
  | _ => 8

/-- Is a page format code one of the four MX formats? -/
def isMxCode (f : Nat) : Bool := 4 ≤ f && f ≤ 7

/-- The float format of a page format code. -/
def codeFloat : Nat → FloatFmt
  | 2 => ffBf16
  | 3 => ffF16
  | 4 => ffE4m3
  | 5 => ffE5m2
  | 6 => ffE3m2
  | 7 => ffE2m1
  | _ => ffF32

/-- The element type of an MX page format. -/
def mxType : Nat → EType
  | 4 => .e4m3
  | 5 => .e5m2
  | 6 => .e3m2
  | _ => .e2m1

/-- The value of an element of a page format, unscaled (R58, R61). -/
def codeVal (f : Nat) (sg : Bool) (v : Nat) : Val :=
  match f with
  | 8 => ofRat (intOf sg 8 v)
  | 9 => ofRat (intOf sg 4 v)
  | _ => decodeF (codeFloat f) v

/-- R372: FMT with the format code found and the one expected. -/
def fmtFault (found expected : Nat) : FaultInfo := flt .fmt 0 (w64 (found + 16 * expected))

/-- The companion area of the 64 KiB page at an address (R212). -/
def companionBase (l : Leaf) (va : Nat) : Nat :=
  eCVA l.entry + (if l.large then companionSize (eFMT l.entry) * ((va - l.base) / 65536) else 0)

/-- The index within its 64 KiB page of the element at an address. -/
def pageElem (f va : Nat) : Nat := va % 65536 * 8 / fmtBits f

/-! ### Completion of releases and sc (R192, R195, R197) -/

/-- Is a write performed with respect to every die of a list? A lost die has no agent that could tell (R191). -/
def performedAll (s : State) (id : Nat) (ds : List DieId) : Bool := ds.all (fun d => dieGone s d || performedAt s id d)

/-- R195, R204: are the posted atomics of a bank with numbers below `id` performed? One that has faulted waits for L's
next word, and so for the word that waits here (assumption 62). -/
def postedBefore (s : State) (c : CoreId) (b : BankId) (id : Nat) : Bool :=
  s.ms.atomics.all (fun a =>
    id ≤ a.id || a.form != .posted || a.faulted || a.agent.core != c || a.agent.bank != b)

/-- Is every posted atomic of a stream's bank performed? -/
def postedDone (s : State) (g : Agent) : Bool := postedBefore s g.core g.bank s.nextId

/-- Is a write one of a bank's: of its die's agents, or an atomic of its task? -/
def writeOf (s : State) (g : Agent) (w : Write) : Bool :=
  (w.src == agentDie g && w.task.isNone) || ((bankOf s g).task.any (fun t => w.task == some t.key))

/-- R195: the bank's stores have drained, the writes of its die and its own atomics' with numbers below `id` are performed at
every die of the scope, and so are the bank's posted atomics. At core scope the buffer's drain is all. -/
def releaseBefore (s : State) (g : Agent) (scope : Scope) (mask : Word) (id : Nat) : Bool :=
  let ds := scopeDies s scope (agentDie g) mask
  (bufferOf s g).isEmpty
  && (scope == .core
      || ((s.ms.unplaced.filter (writeOf s g)).all (fun w => id ≤ w.id || performedAll s w.id ds)
          && (s.ms.writes.filter (writeOf s g)).all (fun w => id ≤ w.id || performedAll s w.id ds)
          && postedBefore s g.core g.bank id))

/-- R195 for a word: every posted atomic of the bank counts. -/
def releaseReady (s : State) (g : Agent) (scope : Scope) (mask : Word) : Bool := releaseBefore s g scope mask s.nextId

/-- R197: every write that the bank can have read is performed at every die of the scope. The model waits for every write
that has its place in coherence order, and for those of the bank's die. -/
def scBefore (s : State) (g : Agent) (scope : Scope) (mask : Word) (id : Nat) : Bool :=
  let ds := scopeDies s scope (agentDie g) mask
  releaseBefore s g scope mask id && s.ms.writes.all (fun w => id ≤ w.id || performedAll s w.id ds)

/-- R197 for a word. -/
def scReady (s : State) (g : Agent) (scope : Scope) (mask : Word) : Bool := scBefore s g scope mask s.nextId

/-- R187: is a die that the mask names lost? -/
def lostDie (s : State) (scope : Scope) (mask : Word) : Option DieId :=
  if scope = .mask then allDies.find? (fun d => mask.getLsbD d.val && dieGone s d) else none

/-- R196: the writes in flight that a stream of die d can have read from some bytes: those that its view holds. -/
def readIds (m : MemSys) (d : DieId) (keys : List Nat) : List Nat :=
  ((m.writes ++ m.unplaced).filter (fun w => w.applied.contains d && w.cells.any (fun c => keys.contains c.1))).map (·.id)

/-- R189, R196: the store buffer of a bank that holds one of some bytes drains, so that the store it reads is a write in
flight. -/
def drainRead (s : State) (g : Agent) (keys : List Nat) : State :=
  if (bufferOf s g).any (fun w => w.cells.any (fun c => keys.contains c.1)) then drainAll s g.core g.bank else s

/-- R196: a read of some bytes by a stream acquires, at the dies that its scope covers. -/
def acquireRead (s : State) (g : Agent) (scope : Scope) (mask : Word) (keys : List Nat) : State :=
  let s := drainRead s g keys
  acquireWrites s g.core g.bank (readIds s.ms (agentDie g) keys) (scopeDies s scope (agentDie g) mask)

/-- R196: a FENCE acquires what every earlier access of the bank can have read or written atomically. -/
def acquireAll (s : State) (g : Agent) (scope : Scope) (mask : Word) : State :=
  let s := drainAll s g.core g.bank
  let seen := (s.ms.writes ++ s.ms.unplaced).filter (fun w => w.applied.contains (agentDie g) || writeOf s g w)
  acquireWrites s g.core g.bank (seen.map (·.id)) (scopeDies s scope (agentDie g) mask)

end Sys2Proof.Machine
end

