-- ==== Sys2Proof/Machine/Deliver.lean ====
section
/-! DEFINITION. Delivery into another core: SENDH and REDSP (R157 to R160), forwarding (R292) and the arrivals. -/

namespace Sys2Proof.Machine

/-! ### The sender's checks (R157) -/

/-- R292: where a delivery to a core goes: the core, or none while the forwarded task is parked. -/
def forwardOf (s : State) (x : CtxId) (c : CoreId) : Option (Option CoreId) :=
  ((getCaux s x).fwd.find? (fun f => f.core == c)).map (·.to_)

/-- Does the active bank of a core run a task of a context (R157 check 4)? -/
def runsCtx (s : State) (c : CoreId) (x : CtxId) : Bool := bankCtx (getBank s c .active) == some x

/-- R23, R352: can the die of a target be reached? -/
def checkReach (s : State) (from_ to_ : DieId) : Res Unit :=
  if (getDie s to_).st = .resetting then raise s (flt .dielost 0 (w64 to_.val))
  else if from_ ≠ to_ && !routeUp s from_.val to_.val then raise s (flt .linkdown 0 (w64 (downDetail s from_.val to_.val)))
  else .ok ()

/-- R292: the core that takes a delivery to a core: the one on which a forwarded task has resumed. -/
def deliveryCore (s : State) (x : CtxId) (c : CoreId) : CoreId := ((forwardOf s x c).getD (some c)).getD c

/-- R292: a delivery to a forwarded COREID stalls at step 7 while the task is parked, before the checks of step 8. -/
def sendWaits (s : State) (x : CtxId) (t : Word) : Res Unit :=
  if (coreNo (bits t 7 0)).any (fun c => forwardOf s x c == some none) then stall s .queues else .ok ()

/-- R157 checks 1 to 3, and R250's, common to SENDH, REDSP and RENQ: the core that a target names. The die that is checked is
that of `to_` of it: the core itself, or the one that R292 forwards to. -/
def targetCore (s : State) (to_ : CoreId → CoreId) (t : Word) (zero : Bool) : Res CoreId :=
  if bits t 63 30 ≠ 0 || (zero && bits t 29 8 ≠ 0) then raise s (flt .prot 0 5)
  else
    match coreNo (bits t 7 0) with
    | none => raise s (flt .mask 0 (w64 (bits t 7 4)))
    | some c =>
      let d := dieOf (to_ c)
      match (getDie s d).st with
      | .absent => raise s (flt .mask 0 (w64 d.val))
      | .gated | .ungating => raise s (flt .gated 0 (w64 d.val))
      | .up | .resetting => .ok c

/-- R157 checks 4 and 5, with R292: the core that takes the delivery and the offset. -/
def deliveryTo (s : State) (x : CtxId) (c : CoreId) (t : Word) : Res (CoreId × Nat) := do
  let to_ ← (match forwardOf s x c with
    | some none => stall s .queues
    | some (some c') => .ok c'
    | none => if runsCtx s c x then .ok c else raise s (flt .prot 0 5))
  let off := bits t 29 8
  if off % 256 ≠ 0 then raise s (flt .align (w64 off) 256)
  .ok (to_, off)

/-- R98 at a target: its active bank's bytes. -/
def checkTargetSpad (s : State) (c : CoreId) (off : Nat) : Res Unit :=
  if spadAllowed s c .active off 256 then .ok () else raise s (flt .prot (w64 off) 4)

/-- R345, R349: a request of a stream's leaves for a die, unless that is its own. -/
def postRequest (s : State) (g : Agent) (x : CtxId) (id : Nat) (d : DieId) : State :=
  if d = agentDie g then s
  else post s { src := agentDie g, dst := d, kind := .request id, ctx := some x, agent := streamNo g }

/-- The payload leaves, after the stores of the bank that R160 puts before it; the word waits for its acknowledgement. -/
def sendPayload (s : State) (g : Agent) (t : Task) (c : CoreId) (off : Nat) (v : Vec)
    (red : Option (Nat × Nat × Bool × EType)) (h : Word) : Res Done :=
  let d := dieOf (deliveryCore s t.ctx c)
  let s := drainAll (touch s t.ctx d) g.core g.bank
  let (s, id) := takeId s
  let r : SendReq := { id := id, agent := g, task := t, target := c, off := off, data := v, red := red, h := h
                       at_ := if d = agentDie g then some d else none }
  .ok (.pend (postRequest (modMs s (fun m => { m with sends := m.sends ++ [r] })) g t.ctx id d) .send id)

/-- A state in which no task is an agent's does not arise for a word that is evaluated. -/
def taskOf (s : State) (g : Agent) : Task := (bankOf s g).task.getD
  { handle := 0, ctx := 0, kinst := 0, node := 0, kind := .member, rank := 0, gsize := 1, row := 0 }

/-- SENDH (R158). -/
def execSendh (w : WordF) (s : State) : Out :=
  let srcs := [w.srcA, w.srcB, w.srcC]
  runWord w false (fun s g => do
    takeSources s g srcs []
    let t := scal s g w srcs 0
    let h := scal s g w srcs 1
    let task := taskOf s g
    sendWaits s task.ctx t
    let c ← targetCore s (deliveryCore s task.ctx) t false
    checkReach s (agentDie g) (dieOf (deliveryCore s task.ctx c))
    let (c', off) ← deliveryTo s task.ctx c t
    checkAlign s h 16
    if 2 ^ 52 ≤ h.toNat then raise s (flt .notmapped h)
    if off < 0x340000 || 0x380000 ≤ off then raise s (flt .prot (w64 off) 5)
    checkTargetSpad s c' off
    sendPayload s g task c off (whole s g srcs 2) none h) s

/-- REDSP (R159). -/
def execRedsp (w : WordF) (s : State) : Out :=
  let srcs := [w.srcA, w.srcB]
  let n := nbNo w.srcC
  runWord w false (fun s g => do
    takeSources s g srcs []
    let t := scal s g w srcs 0
    let task := taskOf s g
    sendWaits s task.ctx t
    let c ← targetCore s (deliveryCore s task.ctx) t false
    checkReach s (agentDie g) (dieOf (deliveryCore s task.ctx c))
    let (c', off) ← deliveryTo s task.ctx c t
    checkTargetSpad s c' off
    if !nbAllowed s c' .active n.val then raise s (flt .prot 0 4)
    sendPayload s g task c off (whole s g srcs 1)
      (some (n.val, w.mod.toNat % 4, w.mod.getLsbD 2, w.etype)) 0) s

/-! ### Arrivals -/

/-- The pending word of a bank that waits for a request is changed. -/
def modPending (s : State) (g : Agent) (id : Nat) (h : Pending → Pending) : State :=
  modBankOf s g (fun k => streams.foldl (fun k t => k.modSt t (fun x =>
    match x.pending with
    | some p => if p.sent = id then { x with pending := some (h p) } else x
    | none => x)) k)

/-- A request that a pending word waits for has failed: the word takes the fault. -/
def failPending (s : State) (g : Agent) (id : Nat) (f : FaultInfo) : State :=
  modPending s g id (fun p => { p with failed := some f })

/-- A request that a pending word waits for is acknowledged. -/
def ackPending (s : State) (g : Agent) (id : Nat) : State := modPending s g id (fun p => { p with result := some 0 })

/-- R349: an answer leaves a die for the issuer of a request. -/
def postAnswer (s : State) (d : DieId) (g : Agent) (x : CtxId) (id : Nat) : State :=
  post s { src := d, dst := agentDie g, kind := .answer id, ctx := some x, agent := dieAgentNo d 10 }

/-- The request leaves the path. -/
def dropSend (s : State) (id : Nat) : State := modMs s (fun m => { m with sends := m.sends.filter (fun r => r.id != id) })

/-- R292: a payload that finds its target parked goes back to its sender, whose word stalls at step 7 again and sends it
once after the resume. -/
def recallSend (s : State) (r : SendReq) : State :=
  modStOf (dropSend s r.id) r.agent (fun x => match x.pending with
    | some p => if p.sent = r.id && p.kind = .send
        then { x with pending := none, run := .stalled .queues, passed := 6, stalledFor := 0 } else x
    | none => x)

/-- The answer of a delivery's target is back with the sender (R157, R292, R349). -/
def sendBack (s : State) (r : SendReq) (a : SendAnswer) : State :=
  match a with
  | .done => ackPending (dropSend s r.id) r.agent r.id
  | .fault f => failPending (dropSend s r.id) r.agent r.id f
  | .recall => recallSend s r

/-- The target of a delivery answers (R349): at once where it is on the sender's own die. -/
def answerSend (s : State) (r : SendReq) (a : SendAnswer) : State :=
  match r.at_ with
  | none => s
  | some d =>
    if d = agentDie r.agent then sendBack s r a
    else postAnswer (modMs s (fun m => { m with sends := m.sends.map (fun q =>
      if q.id = r.id then { q with answer := some a } else q) })) d r.agent r.task.ctx r.id

/-- The delivery is refused: the sender's word fails (R157, R379). -/
def refuseSend (s : State) (r : SendReq) (f : FaultInfo) : State := answerSend s r (.fault f)

/-- R379, R380: a delivery that its target refuses after the sender's checks. -/
def violateSend (s : State) (r : SendReq) (c : CoreId) : State :=
  refuseSend (logViolation s (dieOf c) (agentDie r.agent).val (r.agent.core.val % 16) r.task.ctx.val 3 c.val) r
    (flt .prot (w64 r.off) 7)

/-- Where a delivery in flight goes now: none while its task is parked (R292). -/
def arrivalCore (s : State) (r : SendReq) : Option CoreId :=
  match forwardOf s r.task.ctx r.target with
  | some t => t
  | none => some r.target

/-- The die that a delivery in flight goes to. -/
def arrivalDie (s : State) (r : SendReq) : DieId := dieOf (deliveryCore s r.task.ctx r.target)

/-- A die that a delivery cannot reach any more (R23, R157). -/
def lostTarget (s : State) (r : SendReq) : Bool := dieGone s (arrivalDie s r)

/-- R16: the island that a delivery reaches is gated, or is being ungated. -/
def gatedTarget (s : State) (r : SendReq) : Bool :=
  (getDie s (arrivalDie s r)).st == .gated || (getDie s (arrivalDie s r)).st == .ungating

/-- R16, R23: why the die that a delivery reaches cannot take it. -/
def dieRefuses (s : State) (r : SendReq) : Option FaultInfo :=
  if lostTarget s r then some (flt .dielost 0 (w64 (arrivalDie s r).val))
  else if gatedTarget s r then some (flt .gated 0 (w64 (arrivalDie s r).val))
  else none

/-- R292: a payload in flight whose target has resumed on another die goes on there. -/
def sendOn (s : State) (r : SendReq) (d : DieId) : State :=
  post (modMs s (fun m => { m with sends := m.sends.map (fun q => if q.id = r.id then { q with at_ := none } else q) }))
    { src := d, dst := arrivalDie s r, kind := .request r.id, ctx := some r.task.ctx, agent := streamNo r.agent }

/-- R160, R195: a delivery is made once what the sender did before it is performed. -/
def sendDue (s : State) (r : SendReq) : Bool := releaseBefore s r.agent .device 0 r.id

/-- The oldest waiting YIELD.arr continuation that a SENDH wakes (R255). -/
def arrWaiting (s : State) (x : CtxId) (c : CoreId) (h : Word) : Option Cont :=
  (getCaux s x).conts.find? (fun k => k.cond == .arr && k.pinned && k.core == c && !k.ready && k.pcL == h && k.pcX == h
    && k.pcS == h)

/-- The list with its first elements replaced. -/
def replaceHead (l new : List Word) : List Word := new ++ l.drop new.length

/-- An entry enters a core's continuation-ready queue. -/
def pushReady (s : State) (c : CoreId) (r : Ready) : State :=
  modCore s c (fun k => { k with work := { k.work with ready := k.work.ready ++ [r] } })

/-- R254: a continuation is READY; it enters a core's continuation-ready queue, or waits as READY for room. -/
def readyCont (s : State) (x : CtxId) (slot : Nat) (room : Option CoreId) : State :=
  let s := modCaux s x (fun a => { a with conts := a.conts.map (fun y =>
    if y.slot = slot then { y with ready := true, queued := room.isSome } else y) })
  match room, (getCaux s x).conts.find? (fun y => y.slot == slot) with
  | some c, some k =>
    let (s, o) := takeOrder s
    pushReady s c { what := .slot x slot, pinned := k.pinned, prio := k.task.prio, order := o }
  | _, _ => s

/-- R158, R255: a SENDH's payload is written and its continuation becomes ready. -/
def deliverSendh (s : State) (r : SendReq) (c : CoreId) : State :=
  let s := spadWrite s c none 4 r.off (vecBytes r.data)
  let x := r.task.ctx
  let off := w64 r.off
  let from_ := w64 r.agent.core.val
  let s := match arrWaiting s x c r.h with
    | some k =>
      let s := modCaux s x (fun a => { a with conts := a.conts.map (fun y =>
        if y.slot = k.slot then { y with aL := replaceHead y.aL [off, from_], aS := replaceHead y.aS [off] } else y) })
      readyCont s x k.slot (if (getCore s c).work.ready.length < 64 then some c else none)
    | none =>
      let (s, o) := takeOrder s
      let t : Task := { nodeTask s r.task with kind := .cont, own := o + 1 }
      let q : QTask := { task := t, order := o, start := { pc := r.h, la := [(0, off), (1, from_)], sa := [(0, off)] } }
      pushReady s c { what := .start q, pinned := true, prio := t.prio, order := o }
  answerSend s r .done

/-- R245, R254: is there room for what a SENDH makes ready? A yielded continuation waits as READY where there is none. -/
def sendRoom (s : State) (r : SendReq) (c : CoreId) : Bool :=
  (getCore s c).work.ready.length < 64 || (arrWaiting s r.task.ctx c r.h).isSome

/-- R349: a delivery that has arrived at a die and is not answered. -/
def arrivedSend (s : State) (n : Nat) (red : Bool) : Option (SendReq × DieId) :=
  (s.ms.sends.find? (fun r => r.id == n && r.red.isSome == red && r.answer.isNone)).bind (fun r => r.at_.map (fun d => (r, d)))

/-- SENDH_ARRIVAL (R16, R158, R255, R292, R349). -/
def execSendhArrival (n : Nat) (s : State) : Out :=
  match arrivedSend s n false with
  | none => .fault .notEnabled
  | some (r, d) => match arrivalCore s r, dieRefuses s r with
    | none, _ => .next (answerSend s r .recall)
    | some _, some f => .next (refuseSend s r f)
    | some c, none =>
      if arrivalDie s r ≠ d then .next (sendOn s r d)
      else if !runsCtx s c r.task.ctx && (forwardOf s r.task.ctx r.target).isNone then .next (violateSend s r c)
      else if !sendDue s r || !sendRoom s r c then .fault .notEnabled
      else .next (deliverSendh s r c)

/-- R159: why a contribution is refused at its target. -/
def redRefused (s : State) (r : SendReq) (c : CoreId) (n : Fin 32) (op : Nat) (ord : Bool) (t : EType) :
    Option FaultInfo :=
  let b := (getCore s c).nb.get n
  let held := ((getCore s c).nb.toList.map (fun b => b.held.length)).sum
  if b.count = 0 then some (nbFault n)
  else if (match b.held.head? with
      | some x => x.op != op || x.ord != ord || x.etype != t
      | none => false) then some (nbFault n)
  else if ord && 64 ≤ held then some (nbFault n)
  else match unitsBad (getCore s c).badSpad r.off 256 with
    | some u => some (flt .eccu (w64 r.off) 6 (w64 (u * 128)))
    | none => none

/-- R159: a contribution is applied, or held until its phase can take it. -/
def deliverRedsp (s : State) (r : SendReq) (c : CoreId) (n : Fin 32) (op : Nat) (ord : Bool) (t : EType) : State :=
  let (s, o) := takeOrder s
  let x : Contribution := {
    sent := r.id, rank := r.task.rank, order := o, op := op, ord := ord, etype := t, off := r.off, data := r.data }
  let s := modNb s c n (fun b => { b with seen := some (s.cal.cycle, 3) })
  let s := if ord then settleHeld (modNb s c n (fun b => { b with held := b.held ++ [x] })) c n
    else applyContribution s c n x
  answerSend s r .done

/-- R157, R159, R379: does the target's guard refuse a contribution? -/
def redGuard (s : State) (r : SendReq) (c : CoreId) (n : Nat) : Bool :=
  (!runsCtx s c r.task.ctx && (forwardOf s r.task.ctx r.target).isNone)
    || !spadAllowed s c .active r.off 256 || !nbAllowed s c .active n

/-- REDSP_ARRIVAL (R16, R159, R292, R295, R349). -/
def execRedspArrival (n : Nat) (s : State) : Out :=
  match arrivedSend s n true with
  | none => .fault .notEnabled
  | some (r, d) => match arrivalCore s r, dieRefuses s r, r.red with
    | none, _, _ => .next (answerSend s r .recall)
    | some _, some f, _ => .next (refuseSend s r f)
    | some c, none, some (k, op, ord, t) =>
      let nb : Fin 32 := Fin.ofNat 32 k
      if arrivalDie s r ≠ d then .next (sendOn s r d)
      else if redGuard s r c k then .next (violateSend s r c)
      else if !sendDue s r then .fault .notEnabled
      else match redRefused s r c nb op ord t with
        | some f => .next (refuseSend s r f)
        | none => .next (deliverRedsp s r c nb op ord t)
    | some _, none, none => .fault .notEnabled

end Sys2Proof.Machine
end

