-- ==== Sys2Proof/Machine/Loads.lean ====
section
/-! DEFINITION. The loads of L (R139 to R144), LDACQ (R206), WAITADDR (R208) and PREF (R155). -/

namespace Sys2Proof.Machine

/-- R139: a loaded element as a scalar. -/
def extendLoad (t : EType) (v : Nat) : Word :=
  if EType.signed t then sext64 (EType.width t) v else zext64 (EType.width t) v

/-- The bytes of an element. -/
def elemLen (t : EType) : Nat := EType.width t / 8

/-- LD (R139). -/
def execLd (w : WordF) (s : State) : Out :=
  let srcs := [w.srcA, w.srcB]
  let n := elemLen w.etype
  runWord w false (fun s g => do
    takeSources s g srcs (dstPush w.dst)
    let (s, bs) ← wordLoad s g (memAddr s g w srcs 0) n n
    donePop (writeScalar s g w.dst (extendLoad w.etype (ofBytes bs))) srcs) s

/-- A whole vector goes to a queue. -/
def pushVec (s : State) (g : Agent) (o : Operand) (v : Vec) : State := writeVec s g o (BitVec.allOnes 2048) v

/-- LDQ, raw (R140), with .sp from the scratchpad. -/
def execLdq (w : WordF) (s : State) : Out :=
  let srcs := [w.srcA, w.srcB]
  let t := w.etype
  runWord w false (fun s g => do
    takeSources s g srcs (dstPush w.dst)
    let a := memAddr s g w srcs 0
    if w.mod.getLsbD 2 then
      spadCheck s g.core g.bank a (rawLen t) (rawAlign t) true
      donePop (pushVec s g w.dst (rawVec t (spadSeen s g a.toNat (rawLen t)))) srcs
    else
      let (s, bs) ← wordLoad s g a (rawLen t) (rawAlign t)
      donePop (pushVec s g w.dst (rawVec t bs)) srcs) s

/-! ### LDQ.dec (R141) -/

/-- The page format at an address, as far as the translation gives one. -/
def formatAt (s : State) (q : Req) (va : Nat) : Nat :=
  match translate s q.die q.core q.ctx va with
  | .leaf l => eFMT l.entry
  | _ => 0

/-- R141: the bytes that 64 elements of a page format take. -/
def dec64Len (f : Nat) : Nat := 8 * fmtBits f

/-- R135, R141, R142: the checks of a decoding or encoding access, with the page's format: range, translation, permission, format, alignment by the page's
format, data. Two pages of different formats raise FMT (DESIGN CHOICE, assumption 68). -/
def fmtAccess (s : State) (q : Req) (va : Word) (ok : Nat → Bool) : Res (Nat × Checked) := do
  checkRange s va 1
  let f := formatAt s q va.toNat
  let len := if ok f then dec64Len f else 1
  checkRange s va len
  let ps ← accessParts s q va.toNat len (fun ps => do
    match ps.find? (fun p => !ok (eFMT p.leaf.entry) || eFMT p.leaf.entry != f) with
    | some p => raise s { fmtFault (eFMT p.leaf.entry) (if ok f then f else 0) with addr := w64 p.va }
    | none => checkAlign s va len)
  .ok (f, { va := va.toNat, len := len, parts := ps })

/-- A block of an access: the companion bytes it needs stand at an address of the context's space (R64, R67). -/
def companionAt (l : Leaf) (f va : Nat) : Nat :=
  let i := pageElem f va
  if f = 10 then companionBase l va + 264 * (i / 16384) else companionBase l va + i / 32

/-- The leaf that serves an address of an access. -/
def leafFor (ps : List Part) (va : Nat) : Leaf :=
  match ps.find? (fun p => p.va ≤ va && va < p.va + p.len) with
  | some p => p.leaf
  | none => { entry := 0, at_ := 0, base := 0, large := false }

/-- The addresses of the scale bytes of the two blocks of an MX access. -/
def scaleAddrs (ps : List Part) (f va : Nat) : Nat × Nat :=
  (companionAt (leafFor ps va) f va, companionAt (leafFor ps (va + 4 * fmtBits f)) f (va + 4 * fmtBits f))

/-- R67: the number of the block of an address within its super-block's record. -/
def nq4Block (va : Nat) : Nat := pageElem 10 va / 64 % 256

/-- R67: the super-scale of an NQ4 record from which elements are decoded, and the number of the block within it. -/
def nq4Record (s : State) (rec_ : List Byte) (va : Nat) : Res (Val × Nat) :=
  if (rec_.drop 4).take 4 != [0, 0, 0, 0] then raise s { fmtFault 10 10 with addr := w64 va }
  else .ok (decodeF ffF32 (ofBytes (rec_.take 4)), nq4Block va)

/-- LDQ.dec (R141). Of an NQ4 page the whole record of the super-block is read (assumption 68). -/
def execLdqDec (w : WordF) (s : State) : Out :=
  let srcs := [w.srcA, w.srcB]
  let sg := w.mod.getLsbD 1
  runWord w false (fun s g => do
    takeSources s g srcs (dstPush w.dst)
    let a := memAddr s g w srcs 0
    let (f, m) ← fmtAccess s (reqOf s g false) a (fun f => 1 ≤ f && f ≤ 10 && (!sg || f = 8 || f = 9))
    let v := ofBytes (m.bytes s g)
    let code (j : Nat) := v / 2 ^ (fmtBits f * j) % 2 ^ fmtBits f
    if isMxCode f then
      let cs := scaleAddrs m.parts f a.toNat
      let k0 ← companion s g false cs.1 1
      let k1 ← companion s g false cs.2 1
      let x (j : Nat) := ofBytes ((if j < 32 then k0 else k1).bytes s g)
      donePop (pushVec (wordServed s g [m, k0, k1]) g w.dst (vecOf 32 ((List.range 64).map (fun j =>
        (rn32 (mxVal (codeFloat f) (x j) (code j))).1)))) srcs
    else if f = 10 then
      let r ← companion s g false (companionAt (leafFor m.parts a.toNat) f a.toNat) 264
      let (sup, k) ← nq4Record s (r.bytes s g) a.toNat
      let b := ofBytes (((r.bytes s g).drop (8 + k)).take 1)
      let e := nq4Scale b sup
      donePop (pushVec (wordServed s g [m, r]) g w.dst (vecOf 32 ((List.range 64).map (fun j =>
        (rn32 (nq4Val b e (code j))).1)))) srcs
    else
      donePop (pushVec (wordServed s g [m]) g w.dst (vecOf 32 ((List.range 64).map (fun j =>
        (rn32 (codeVal f sg (code j))).1)))) srcs) s

/-! ### Strided and gathered loads (R143, R144) -/

/-- R143: the addresses of the elements of a strided access. -/
def strideAddrs (t : EType) (a b : Word) : List Word :=
  (List.range (elemCount (EType.width t))).map (fun i => a + BitVec.ofNat 64 i * b)

/-- LDQS (R143). -/
def execLdqs (w : WordF) (s : State) : Out :=
  let srcs := [w.srcA, w.srcB]
  let t := w.etype
  runWord w false (fun s g => do
    takeSources s g srcs (dstPush w.dst)
    let vas := strideAddrs t (scal s g w srcs 0) (scal s g w srcs 1)
    let (s, kss) ← wordAccesses s g false (elemLen t) vas
    let es := kss.map (fun ks => ofBytes (readKeys s (bufferOf s g) (agentDie g) ks))
    donePop (pushVec s g w.dst (vecOf (EType.width t) es)) srcs) s

/-- R144: how many indices a type takes. -/
def indexCount (t : EType) : Nat := if EType.width t = 64 then 32 else 64

/-- R144: index i of an index entry; none for the null index. -/
def indexAt (t : EType) (v : Vec) (i : Nat) : Option Int :=
  let w := if EType.width t = 64 then 64 else 32
  let x := elemAt v w i
  if x = 2 ^ (w - 1) then none else some (toSigned w x)

/-- R144: the address of each element, none for a null index. -/
def indexAddrs (t : EType) (a : Word) (v : Vec) : List (Option Word) :=
  (List.range (indexCount t)).map (fun i => (indexAt t v i).map (fun x => a + BitVec.ofInt 64 (x * (elemLen t : Int))))

/-- R136, R144: the parts of the elements that make an access, in order of index. -/
def partsIndexed (s : State) (q : Req) (len : Nat) : (i : Nat) → List (Option Word) → Res (List (List Part))
  | _, [] => .ok []
  | i, none :: vas => do
    let rest ← partsIndexed s q len (i + 1) vas
    .ok ([] :: rest)
  | i, some va :: vas => do
    let ps ← atPos i (do
      checkRange s va len
      checkAlign s va len
      accessParts s q va.toNat len noFmt)
    let rest ← partsIndexed s q len (i + 1) vas
    .ok (ps :: rest)

/-- The indexed accesses of a word: the state once served and the keys of each element, none at a null index. -/
def indexedAccess (s : State) (g : Agent) (wr : Bool) (t : EType) (vas : List (Option Word)) :
    Res (State × List (List (Option Nat))) := do
  let q := reqOf s g wr
  let pss ← partsIndexed s q (elemLen t) 0 vas
  let s' := served s q pss.flatten
  let n := (vas.map (fun va => match va with
    | some va => tlbMisses s g q va.toNat (elemLen t)
    | none => 0)).sum
  .ok (countMisses s' g n, pss.map keysOf)

/-- GATHQ (R144). -/
def execGathq (w : WordF) (s : State) : Out :=
  let srcs := [w.srcA, w.srcB]
  let t := w.etype
  runWord w false (fun s g => do
    takeSources s g srcs (dstPush w.dst)
    let vas := indexAddrs t (scal s g w srcs 0) (whole s g srcs 1)
    let (s, kss) ← indexedAccess s g false t vas
    let es := kss.map (fun ks => ofBytes (readKeys s (bufferOf s g) (agentDie g) ks))
    donePop (pushVec s g w.dst (vecOf (EType.width t) es)) srcs) s

/-! ### Acquire loads and waits (R206, R208) -/

/-- R197, R206: an sc load takes effect when what the bank wrote and read is performed in its scope. -/
def scGate (s : State) (g : Agent) (w : WordF) : Res Unit :=
  if w.order = .sc then
    match lostDie s w.scope (wordMask s g w) with
    | some d => raise s (flt .dielost 0 (w64 d.val))
    | none => if scReady s g w.scope (wordMask s g w) then .ok () else stall s .op
  else .ok ()

/-- R196: an acq read of some bytes orders the writes that it can have read before what follows it. -/
def acqRead (s : State) (g : Agent) (w : WordF) (ks : List (Option Nat)) : State :=
  if w.order = .acq then acquireRead s g w.scope (wordMask s g w) (ks.filterMap id) else s

/-- LDACQ (R206). -/
def execLdacq (w : WordF) (s : State) : Out :=
  let srcs := [w.srcA, w.srcB]
  let n := elemLen w.etype
  runWord w false (fun s g => do
    takeSources s g srcs (dstPush w.dst)
    checkScope s g w
    let a ← checkedBy s (reqOf s g false) (memAddr s g w srcs 0) n n
    scGate s g w
    let s' := wordServed s g [a]
    donePop (writeScalar (acqRead s' g w (keysOf a.parts)) g w.dst (extendLoad w.etype (ofBytes (a.bytes s' g)))) srcs) s

/-- R208: the conditions of WAITADDR, over values of w bits. -/
def waitCond (m w x b : Nat) : Bool :=
  let d := toSigned w (x + 2 ^ w - b)
  match m with
  | 0 => x = b
  | 1 => x ≠ b
  | 2 => b ≤ x
  | 3 => x < b
  | 4 => 0 ≤ d
  | _ => d < 0

/-- R208: the keys of a line that a bank's die sees. -/
def lineKeys (s : State) (g : Agent) (line : Nat) : List (Option Nat) :=
  let q := reqOf s g false
  match translate s q.die q.core q.ctx line with
  | .leaf l => partKeys { va := line, len := 128, leaf := l }
  | _ => []

/-- R208: the bytes of a 128-byte line of the context's space as the bank sees them. -/
def lineBytes (s : State) (g : Agent) (line : Nat) : List Byte :=
  readKeys s (bufferOf s g) (agentDie g) (lineKeys s g line)

/-- R208: the word's stream watches a line: a write to one of its bytes that enters the view wakes it. -/
def watchLine (s : State) (g : Agent) (line : Nat) : State :=
  let t := modMs s (fun m => { m with watches := m.watches.filter (fun v => v.agent != g)
    ++ [{ agent := g, die := agentDie g, keys := (lineKeys s g line).filterMap id }] })
  modStOf t g (fun y => { y with watching := some { line := line, bytes := lineBytes s g line, since := s.cal.cycle } })

/-- WAITADDR (R208): while the condition is false the word waits at step 7, watching the line. -/
def execWaitaddr (w : WordF) (s : State) : Out :=
  let srcs := [w.srcA, w.srcB]
  let n := elemLen w.etype
  let wd := EType.width w.etype
  runWord w false (fun s g => do
    takeSources s g srcs (dstPush w.dst)
    let (s1, ks) ← wordAccess s g false (scal s g w srcs 0) n n
    let x := ofBytes (readKeys s1 (bufferOf s1 g) (agentDie g) ks)
    if !waitCond (w.mod.toNat % 8) wd x ((scal s g w srcs 1).toNat % 2 ^ wd) then
      stall (watchLine s g ((scal s g w srcs 0).toNat / 128 * 128)) .queues
    checkScope s g w
    scGate s g w
    donePop (writeScalar (acqRead s1 g w ks) g w.dst (extendLoad w.etype x)) srcs) s

/-! ### PREF (R155) -/

/-- The blocks of a size that a longer range spans, whole or in part; `fuel` bounds their number. -/
def spanBlocks (size : Nat) : (fuel : Nat) → (va len : Nat) → List (Nat × Nat)
  | 0, _, _ => []
  | fuel + 1, va, len =>
    if len = 0 then []
    else
      let n := Nat.min len (size - va % size)
      (va, n) :: spanBlocks size fuel (va + n) (len - n)

/-- The pages that a longer range spans. -/
def spanPages (fuel va len : Nat) : List (Nat × Nat) := spanBlocks 65536 fuel va len

/-- The touched-dies bits that the lines of one granule set, if their checks pass. A granule of 4 KiB lies in one page and
has one home (R214, R215), so the checks of its lines agree. -/
def prefetchPage (s : State) (q : Req) (va len : Nat) : State :=
  if 2 ^ 52 < va + len then s
  else match accessParts s q va len noFmt with
    | .ok ps => touchAll s q.ctx (ps.flatMap (partHomes s)).dedup
    | .error _ => s

/-- PREF (R155): it never faults and never waits. -/
def execPref (w : WordF) (s : State) : Out :=
  let srcs := [w.srcA, w.srcB, w.srcC]
  runWord w false (fun s g => do
    takeSources s g srcs []
    let a := (memAddr s g w srcs 0).toNat
    let c := Nat.min (scal s g w srcs 2).toNat 1048576
    let lo := a / 128 * 128
    let hi := (a + c + 127) / 128 * 128
    let q := reqOf s g false
    donePop (if c = 0 then s else foldAll s (spanBlocks 4096 258 lo (hi - lo)) (fun s p => prefetchPage s q p.1 p.2)) srcs) s

end Sys2Proof.Machine
end

