-- ==== Sys2Proof/Machine/Rings.lean ====
section
/-! DEFINITION. Ring registers and their slots (R149, R161, R162), panel images (R151, R163 to R165), RINIT and RDROP
(R149, R153). -/

namespace Sys2Proof.Machine

/-! ### Ring registers -/

/-- A bank's ring register. -/
def getRing (s : State) (c : CoreId) (b : BankId) (n : Fin 8) : Option Ring := (getBank s c b).eng.rings.get n

/-- The state with a bank's engines changed. -/
def modEng (s : State) (c : CoreId) (b : BankId) (f : Engines → Engines) : State :=
  modBank s c b (fun k => { k with eng := f k.eng })

/-- The state with a ring register set. -/
def setRing (s : State) (c : CoreId) (b : BankId) (n : Fin 8) (r : Ring) : State :=
  modEng s c b (fun e => { e with rings := vset e.rings n (some r) })

/-- RING with the value refused and the ring's number (R371, R372). -/
def ringFault (n : Fin 8) (v : Word) : FaultInfo := { flt .ring 0 v with index := n.val }

/-- R149, R162: an initialised ring, or RING. -/
def needRing (s : State) (g : Agent) (n : Fin 8) : Res Ring :=
  match getRing s g.core g.bank n with
  | some r => .ok r
  | none => raise s (ringFault n (w64 n.val))

/-- The bytes of a slot. -/
def Ring.slotBytes (r : Ring) : Nat := 1024 * r.ksize

/-- The scratchpad offset of a slot (R161). -/
def Ring.slotAt (r : Ring) (x : Nat) : Nat := r.base + r.slotBytes * x

/-- The slot at an offset from the head. -/
def Ring.fromHead (r : Ring) (o : Nat) : Nat := if r.slots = 0 then 0 else (r.head + o) % r.slots

/-- The extents of a slot. -/
def Ring.extOf (r : Ring) (x : Nat) : SlotExt := (r.ext[x]?).getD {}

/-- R161, R162: the panel in slot `tail` becomes visible, with its extents; a panel of a format takes or keeps the tag. -/
def Ring.append (r : Ring) (e : SlotExt) (tag : Option Nat) : Ring :=
  { r with
    ext := (List.range r.slots).map (fun x => if x = r.tail then e else r.extOf x)
    tag := if r.held = 0 then tag.getD r.tag else r.tag
    tail := if r.slots = 0 then 0 else (r.tail + 1) % r.slots, held := r.held + 1 }

/-- R161: the head panel is popped. -/
def Ring.pop (r : Ring) : Ring :=
  { r with head := if r.slots = 0 then 0 else (r.head + 1) % r.slots, held := r.held - 1 }

/-- Pop n panels, one at a time. -/
def Ring.popN (r : Ring) : Nat → Ring
  | 0 => r
  | n + 1 => (r.pop).popN n

/-- R162: does a panel of a format code fit the tag? -/
def Ring.tagFits (r : Ring) (f : Nat) : Bool := r.held = 0 || r.tag = f

/-! ### Panel images (R163 to R165) -/

/-- R151, R163: the depth of a panel along K. -/
def panelDepth (k : RingKind) : Nat := if k = .t then 128 else 64

/-- R163: the bytes of one row of a dense image. -/
def rowBytes (k : RingKind) (w : Nat) : Nat := panelDepth k * w / 8

/-- R163: the data bytes of a dense image. -/
def dataBytes (k : RingKind) (w : Nat) : Nat := 128 * rowBytes k w

/-- R165: does a dense image carry a scale trailer? -/
def hasTrailer (k : RingKind) (f : Nat) : Bool := k == .b && isMxCode f

/-- R163: the data size of an image, trailer included. -/
def imageBytes (k : RingKind) (f : Nat) : Nat :=
  if k = .d then 1920 else dataBytes k (fmtBits f) + (if hasTrailer k f then 256 else 0)

/-- The rows of a slot that are in bounds. -/
def SlotExt.rowIn (e : SlotExt) (o : Nat) : Bool := o < e.v && !e.nulls.getLsbD o

/-- R150, R161: the part of a byte range that lies within a slot: an image fills one slot. -/
def Ring.clip (r : Ring) (p : Nat × Nat) : Nat × Nat := (p.1, Nat.min p.2 (r.slotBytes - p.1))

/-- R151, R154: the in-bound byte ranges of an image of a kind and format in a slot, as (offset, length), rising: with
the bytes past the image, which fills and drains move whole (DEDUCED, assumption 69). -/
def inBound (r : Ring) (f : Nat) (e : SlotExt) : List (Nat × Nat) :=
  if r.kind = .d || f = 0 || f = 11 then [(0, r.slotBytes)]
  else
    let w := fmtBits f
    let rows := ((List.range 128).filter e.rowIn).map (fun o => (rowBytes r.kind w * o, ceilDiv (e.k * w) 8))
    let d := dataBytes r.kind w
    let trailer := if hasTrailer r.kind f then ((List.range 128).filter e.rowIn).map (fun o => (d + 2 * o, 2)) else []
    let last := imageBytes r.kind f
    ((rows ++ trailer ++ (if last < r.slotBytes then [(last, r.slotBytes - last)] else [])).map r.clip).filter
      (fun p => 0 < p.2)

/-- R151: the extents of panel j of a bounded fill. -/
def panelExt (k : RingKind) (v kx j : Nat) : SlotExt :=
  if k = .d then {} else { v := v, k := Nat.min (kx - panelDepth k * j) (panelDepth k) }

/-- Scratchpad bytes written at several places, in units of 4 bytes (R194); a mark goes when the whole of its unit is written
(R376). -/
def spadCells (s : State) (c : CoreId) (cells : List Host.Cell) : State :=
  modCore (noteRacing s c none 4 (cells.map (·.1))) c (fun k => { k with
    spad := Mem.writeCells k.spad cells
    badSpad := k.badSpad.filter (fun u => (cells.filter (fun x => x.1 / 128 = u)).length < 128) })

/-! ### RINIT and RDROP -/

/-- Does an engine operation name a ring? -/
def EngOp.names (o : EngOp) (n : Nat) : Bool :=
  match o.form with
  | .rfill | .rfillg | .rdrain => o.ring == n
  | .strm | .drn | .qatomic => false

/-- Does an accepted record of the bank name a ring? -/
def recNames (e : Engines) (n : Fin 8) : Bool := e.recs.any (fun r => r.rings.contains n)

/-- Does an accepted operation of the bank name a ring? -/
def opNames (e : Engines) (n : Fin 8) : Bool := e.ops.toList.any (fun l => l.any (fun o => o.names n.val))

/-- The ring of an operand. -/
def ringNo (o : Operand) : Fin 8 :=
  match o with
  | .ring n => n
  | _ => 0

/-- R149: the kinds of a ring by code. -/
def kindOf (n : Nat) : RingKind :=
  match n with
  | 0 => .a
  | 1 => .b
  | 2 => .d
  | _ => .t

/-- R149: the ring that two registers describe, or the value refused. -/
def ringDesc (a b : Word) : Except Word Ring :=
  let base := bits a 21 0
  let slots := bits b 12 0
  let ksize := bits b 22 16
  let tag := bits b 27 24
  if bits a 63 22 ≠ 0 || base % 1024 ≠ 0 then .error a
  else if bits b 15 13 ≠ 0 || bits b 23 23 ≠ 0 || bits b 63 30 ≠ 0 || slots = 0 || 4096 < slots || ksize = 0 || 64 < ksize
      || 12 ≤ tag || 2 ^ 22 < base + slots * ksize * 1024 then .error b
  else .ok { base := base, slots := slots, ksize := ksize, kind := kindOf (bits b 29 28), tag := tag }

/-- RINIT (R149): the word waits until nothing accepted names the ring. -/
def execRinit (w : WordF) (s : State) : Out :=
  let n := ringNo w.dst
  runWord w false (fun s g => do
    takeSources s g [] []
    checkDesc s g w.srcA 2
    match ringDesc (descReg s g w.srcA 0) (descReg s g w.srcA 1) with
    | .error v => raise s (ringFault n v)
    | .ok r =>
      if g.bank = .shadow && !spadAllReserved r.base (r.slots * r.slotBytes) then raise s (flt .prot (w64 r.base) 4)
      let e := (bankOf s g).eng
      if opNames e n || recNames e n then stall s .op
      done (setRing s g.core g.bank n r)) s

/-- RDROP (R153): the word waits until no accepted record names the ring and the panels are there. -/
def execRdrop (w : WordF) (s : State) : Out :=
  let srcs := [w.srcB]
  let n := ringNo w.srcA
  runWord w false (fun s g => do
    takeSources s g srcs []
    let r ← needRing s g n
    let b := scal s g w srcs 0
    if r.slots < b.toNat then raise s (ringFault n b)
    if recNames (bankOf s g).eng n || r.held < b.toNat then stall s .op
    donePop (setRing s g.core g.bank n (r.popN b.toNat)) srcs) s

end Sys2Proof.Machine
end

