-- ==== Sys2Proof/Machine/Engines.lean ====
section
/-! DEFINITION. The stream engines (R145 to R148), ring fills and drains (R150 to R152, R154), and one iteration of an
engine. -/

namespace Sys2Proof.Machine

/-! ### Acceptance (R145, R146) -/

/-- The engine that a word of a stream names in mod[1:0]. -/
def engNo (g : Agent) (k : Nat) : Fin 8 := Fin.ofNat 8 (k % 4 + (if g.stream = .s then 4 else 0))

/-- The place of an engine's counter among the bank's (R45). -/
def engTl (k : Fin 8) : Fin 9 := ⟨k.val + 1, by omega⟩

/-- R40, R146: may a word of a stream give a queue to an engine, to push or to pop? -/
def checkBind (s : State) (g : Agent) (k : Fin 8) (q : Fin 16) (push : Bool) : Res Unit :=
  let right := if push then queueWriter q == g.stream else queueReader q == g.stream
  let free := match engBound (bankOf s g) q with
    | none => true
    | some e => e == k
  if right && free then .ok () else raise s (flt .queue 0 (w64 q.val))

/-- R145, R146: an operation is accepted, or the word waits at step 8 for room. What the bank has stored so far enters
the die view, before every access of the operation (R138). -/
def acceptEng (s : State) (g : Agent) (k : Fin 8) (o : EngOp) : Res State :=
  let e := (bankOf s g).eng
  if 4 ≤ (e.ops.get k).length then stall s .op
  else
    let num := e.issued.get (engTl k) + 1
    let o := { o with num := num }
    let s := drainAll s g.core g.bank
    .ok (modBankOf s g (fun b =>
      let b := { b with
        eng := { b.eng with issued := vset b.eng.issued (engTl k) num, ops := vmod b.eng.ops k (· ++ [o]) } }
      b.modRegs g.stream (fun r => { r with last := vset r.last ⟨k.val + 1, by omega⟩ num })))

/-- R148: the affine operation that a descriptor gives, or a value out of range. -/
def affineOp (form : EngForm) (t : EType) (q : Fin 16) (two : Bool) (r : Nat → Word) : Option EngOp :=
  let c0 := (r 1).toNat
  let c1 := if two then (r 3).toNat else 1
  if 2 ^ 32 ≤ c0 || 2 ^ 32 ≤ c1 || 2 ^ 32 ≤ c0 * c1 then none
  else some { form := form, num := 0, q := q.val, etype := t, base := r 0, c0 := c0, s0 := r 2, c1 := c1
              s1 := if two then r 4 else 0 }

/-- R148: the affine forms. -/
def affineForm (w : WordF) (form : EngForm) (qo : Operand) (two : Bool) (s : State) : Out :=
  let q := (Operand.queue? qo).getD 0
  runWord w false (fun s g => do
    takeSources s g [] []
    let k := engNo g w.mod.toNat
    checkBind s g k q (form == .strm)
    checkDesc s g w.srcA (if two then 5 else 3)
    match affineOp form w.etype q two (descReg s g w.srcA) with
    | none => raise s (flt .queue 0 (w64 q.val))
    | some o => do
      let s ← acceptEng s g k o
      done s) s

/-- STRM (R148). -/
def execStrm (w : WordF) (s : State) : Out := affineForm w .strm w.dst false s
/-- STRMX (R148). -/
def execStrmx (w : WordF) (s : State) : Out := affineForm w .strm w.dst true s
/-- DRN (R148). -/
def execDrn (w : WordF) (s : State) : Out := affineForm w .drn w.srcB false s
/-- DRNX (R148). -/
def execDrnx (w : WordF) (s : State) : Out := affineForm w .drn w.srcB true s

/-- R150, R152: the extents register: the outer extent and the K extent, none where a field is out of range. -/
def extReg (v : Word) : Option (Nat × Nat) :=
  if bits v 63 40 ≠ 0 || 128 < bits v 7 0 then none else some (bits v 7 0, bits v 39 8)

/-- RFILL (R150). -/
def execRfill (w : WordF) (s : State) : Out :=
  let n := ringNo w.dst
  runWord w false (fun s g => do
    takeSources s g [] []
    checkDesc s g w.srcA 4
    let r ← needRing s g n
    let d := descReg s g w.srcA
    if (d 0).toNat % 1024 ≠ 0 then raise s (ringFault n (d 0))
    if 2 ^ 32 ≤ (d 1).toNat then raise s (ringFault n (d 1))
    if (d 2).toNat % 1024 ≠ 0 then raise s (ringFault n (d 2))
    match extReg (d 3) with
    | none => raise s (ringFault n (d 3))
    | some (v, kx) => do
      if r.kind = .d && d 3 ≠ 0 then raise s (ringFault n (d 3))
      let s ← acceptEng s g (engNo g w.mod.toNat)
        { form := .rfill, num := 0, ring := n.val, base := d 0, c0 := (d 1).toNat, s0 := d 2, v := v, kx := kx }
      done s) s

/-- RFILLG (R152). -/
def execRfillg (w : WordF) (s : State) : Out :=
  let n := ringNo w.dst
  let q := (Operand.queue? w.srcB).getD 0
  runWord w false (fun s g => do
    takeSources s g [] []
    let k := engNo g w.mod.toNat
    checkBind s g k q false
    checkDesc s g w.srcA 4
    let r ← needRing s g n
    if r.kind ≠ .a then raise s (ringFault n (w64 n.val))
    let d := descReg s g w.srcA
    if (d 1).toNat % 16 ≠ 0 then raise s (ringFault n (d 1))
    if 2 ^ 32 ≤ (d 2).toNat then raise s (ringFault n (d 2))
    match extReg (d 3) with
    | none => raise s (ringFault n (d 3))
    | some (v, kx) => do
      if v ≠ 0 then raise s (ringFault n (d 3))
      let s ← acceptEng s g k { form := .rfillg, num := 0, q := q.val, ring := n.val, base := d 0, s0 := d 1
                                c0 := (d 2).toNat, v := 128, kx := kx }
      done s) s

/-- RDRAIN (R154). -/
def execRdrain (w : WordF) (s : State) : Out :=
  let n := ringNo w.srcA
  runWord w false (fun s g => do
    takeSources s g [] []
    checkDesc s g w.srcB 3
    let _ ← needRing s g n
    let d := descReg s g w.srcB
    if (d 0).toNat % 1024 ≠ 0 then raise s (ringFault n (d 0))
    if 2 ^ 32 ≤ (d 1).toNat then raise s (ringFault n (d 1))
    if (d 2).toNat % 1024 ≠ 0 then raise s (ringFault n (d 2))
    let s ← acceptEng s g (engNo g w.mod.toNat)
      { form := .rdrain, num := 0, ring := n.val, base := d 0, c0 := (d 1).toNat, s0 := d 2 }
    done s) s

/-! ### Completion of an iteration -/

/-- How many vectors or panels an operation has. -/
def EngOp.total (o : EngOp) : Nat := o.c0 * o.c1

/-- The first operation of an engine is done, and its counter takes its number (R145). -/
def finishEng (s : State) (c : CoreId) (b : BankId) (k : Fin 8) : State :=
  modBank (settleSpad s c (fun a => a.isNone)) c b (fun x =>
    match x.eng.ops.get k with
    | [] => x
    | o :: rest => { x with eng := { x.eng with ops := vset x.eng.ops k rest, tl := vset x.eng.tl (engTl k) o.num } })

/-- One more vector or panel of the first operation is done. -/
def bumpEng (s : State) (c : CoreId) (b : BankId) (k : Fin 8) (o : EngOp) : State :=
  let o := { o with next := o.next + 1 }
  if o.total ≤ o.next then finishEng s c b k
  else modEng s c b (fun e => { e with ops := vmod e.ops k (fun l => o :: l.drop 1) })

/-! ### Iterations (R147, R148, R150 to R154) -/

/-- The request that an engine of a bank makes. -/
def engReq (s : State) (c : CoreId) (b : BankId) (wr : Bool) : Req :=
  { ctx := (bankCtx (getBank s c b)).getD 0, die := dieOf c, core := some c, wr := wr, eng := true
    kinst := ((getBank s c b).task.map (·.kinst)).getD 0 }

/-- R148: the address of vector n of an affine operation. -/
def affineAddr (o : EngOp) (n : Nat) : Word :=
  if o.c0 = 0 then o.base
  else o.base + BitVec.ofNat 64 (n / o.c0) * o.s1 + BitVec.ofNat 64 (n % o.c0) * o.s0

/-- One vector of a STRM or STRMX. -/
def strmStep (s : State) (c : CoreId) (b : BankId) (k : Fin 8) (o : EngOp) : Res State := do
  let q : Fin 16 := Fin.ofNat 16 o.q
  if queueRoom (getBank s c b) q (now s) = 0 then stall s .queues
  let (s, ks) ← access s (engReq s c b false) (affineAddr o o.next) (rawLen o.etype) (rawAlign o.etype)
  let v := rawVec o.etype (readKeys s [] (dieOf c) ks)
  .ok (bumpEng (modBank s c b (fun x => pushQ x q (now s) [{ val := v }])) c b k o)

/-- One vector of a DRN or DRNX. -/
def drnStep (s : State) (c : CoreId) (b : BankId) (k : Fin 8) (o : EngOp) : Res State := do
  let q : Fin 16 := Fin.ofNat 16 o.q
  let f := (getBank s c b).q.get q
  if f.seen (now s) = 0 then stall s .queues
  let e := (f.items.head?).getD {}
  if e.bad then raise s (eccRegs q.val)
  let (s, ks) ← access s (engReq s c b true) (affineAddr o o.next) (rawLen o.etype) (rawAlign o.etype)
  let s := engineStore s c b (bankOrigin s c b (engineNo c b k.val) true) (unitLen o.etype) (keyCells ks (rawBytes o.etype e.val))
  .ok (bumpEng (modBank s c b (fun x => popQ x q (now s) 1)) c b k o)

/-- The key of a byte of an access whose parts are given. -/
def keyAt (ps : List Part) (va : Nat) : Option Nat :=
  let l := leafFor ps va
  if eTIER l.entry = 0 || (ePSN l.entry && eZOP l.entry) then none else some (leafKey l va)

/-- The pages of a range that byte ranges within it touch. -/
def pagesTouched (va len : Nat) (rs : List (Nat × Nat)) : List (Nat × Nat) :=
  (pagesOf va len).filter (fun p => rs.any (fun r => p.1 < va + r.1 + r.2 && va + r.1 < p.1 + p.2))

/-- R135, R371: a format fault names the virtual address. -/
def atVa {α : Type} (va : Nat) (r : Res α) : Res α :=
  match r with
  | .error (.fault s f) => .error (.fault s { f with addr := w64 va })
  | r => r

/-- An engine's access to byte ranges of an image at an address: every page checked by R135, its format by `ok`. -/
def imageAccess (s : State) (q : Req) (va : Word) (rs : List (Nat × Nat)) (ok : Nat → Res Unit) : Res (State × List Part) :=
  match rs.getLast? with
  | none => .ok (s, [])
  | some last => do
    let len := last.1 + last.2
    checkRange s va len
    let pages := pagesTouched va.toNat len rs
    let need := pages.map (·.1)
    let ps ← forPages (fun (p : Nat × Nat) => checkXlate s q need p.1 p.2) pages
    let ps ← forPages (checkPerm s q) ps
    let _ ← forPages (fun (p : Part) => atVa p.va (ok (eFMT p.leaf.entry))) ps
    let _ ← forPages (checkData s q need) ps
    .ok (served s q ps, ps)

/-- The addresses that byte ranges cover. -/
def rangeOffsets (rs : List (Nat × Nat)) : List Nat := rs.flatMap (fun r => (List.range r.2).map (· + r.1))

/-- R150, R162: the format of a page that a fill reads: the same in every page, and that of the ring unless it is empty. -/
def fillFmt (s : State) (r : Ring) (o : EngOp) (f : Nat) (found : Nat) : Res Unit :=
  if found ≠ f then raise s (fmtFault found f)
  else match o.fmt with
    | some g => if g ≠ f then raise s (fmtFault found g)
        else if r.tagFits f then .ok () else raise s (fmtFault f r.tag)
    | none => if r.tagFits f then .ok () else raise s (fmtFault f r.tag)

/-- R98: an engine's or a step's use of a slot. -/
def checkSlot (s : State) (c : CoreId) (b : BankId) (r : Ring) (x : Nat) : Res Unit :=
  if spadAllowed s c b (r.slotAt x) r.slotBytes then .ok () else raise s (flt .prot (w64 (r.slotAt x)) 4)

/-- One panel of an RFILL (R150, R151). -/
def rfillStep (s : State) (c : CoreId) (b : BankId) (k : Fin 8) (o : EngOp) : Res State :=
  let n : Fin 8 := Fin.ofNat 8 o.ring
  match getRing s c b n with
  | none => stall s .queues
  | some r => do
    if r.slots ≤ r.held then stall s .queues
    let e := panelExt r.kind o.v o.kx o.next
    checkSlot s c b r r.tail
    if r.kind ≠ .d && (e.v = 0 || e.k = 0) then .ok (bumpEng (setRing s c b n (r.append e none)) c b k o)
    else
      let q := engReq s c b false
      let va := o.base + BitVec.ofNat 64 o.next * o.s0
      checkRange s va 1
      let f := formatAt s q va.toNat
      let rs := inBound r f e
      let (s, ps) ← imageAccess s q va rs (fillFmt s r o f)
      let cells := (rangeOffsets rs).map (fun x =>
        (r.slotAt r.tail + x, (readKeys s [] (dieOf c) [keyAt ps (va.toNat + x)]).headD 0))
      .ok (bumpEng (setRing (spadCells s c cells) c b n (r.append e (some f))) c b k { o with fmt := some f })

/-- The signed index of a row, none for the null index (R152). -/
def rowIndex (v : BitVec 32) : Option Int := if v = 0x80000000 then none else some v.toInt

/-- The rows of an RFILLG panel that are read: row and address. -/
def gatherRows (o : EngOp) (rows : List (BitVec 32)) (eb : Nat) : List (Nat × Word) :=
  (List.range 128).filterMap (fun i => (rowIndex ((rows[i]?).getD 0x80000000)).map (fun x =>
    (i, o.base + BitVec.ofInt 64 x * o.s0 + BitVec.ofNat 64 (o.next * 64 * eb))))

/-- R152: the rows of a panel are read one after another into their places in the slot, as far as the slot goes (R150). -/
def gatherInto (s : State) (c : CoreId) (q : Req) (r : Ring) (o : EngOp) (f len : Nat) :
    List (Nat × Word) → Res (State × List Host.Cell)
  | [] => .ok (s, [])
  | (i, va) :: rest => do
    let p := r.clip (rowBytes .a (fmtBits f) * i, len)
    let (s1, ps) ← imageAccess s q va (if p.2 = 0 then [] else [(0, p.2)]) (fillFmt s r o f)
    let cells := (List.range p.2).map (fun x => (r.slotAt r.tail + p.1 + x,
      (readKeys s1 [] (dieOf c) [keyAt ps (va.toNat + x)]).headD 0))
    let (s2, more) ← gatherInto s1 c q r o f len rest
    .ok (s2, cells ++ more)

/-- The two index entries that name an RFILLG's rows are popped when the operation starts (R152). -/
def takeRows (s : State) (c : CoreId) (b : BankId) (k : Fin 8) (o : EngOp) : Res State :=
  let q : Fin 16 := Fin.ofNat 16 o.q
  let f := (getBank s c b).q.get q
  if f.seen (now s) < 2 then stall s .queues
  else
    let es := f.items.take 2
    if es.any (·.bad) then raise s (eccRegs q.val)
    else
      let rows := es.flatMap (fun e => (List.range 64).map (fun i => BitVec.ofNat 32 (elemAt e.val 32 i)))
      let s := modBank s c b (fun x => popQ x q (now s) 2)
      .ok (modEng s c b (fun e => { e with ops := vmod e.ops k (fun l => { o with rows := some rows } :: l.drop 1) }))

/-- One panel of an RFILLG (R152). -/
def rfillgStep (s : State) (c : CoreId) (b : BankId) (k : Fin 8) (o : EngOp) : Res State :=
  let n : Fin 8 := Fin.ofNat 8 o.ring
  match getRing s c b n, o.rows with
  | none, _ => stall s .queues
  | some _, none => takeRows s c b k o
  | some r, some rows => do
    if r.slots ≤ r.held then stall s .queues
    let e := panelExt .a 128 o.kx o.next
    let nulls := BitVec.ofNat 128 (ofElems 1 ((List.range 128).map (fun i =>
      if (rowIndex ((rows[i]?).getD 0)).isNone then 1 else 0)))
    let e := { e with nulls := nulls }
    checkSlot s c b r r.tail
    let q := engReq s c b false
    match gatherRows o rows 1 with
    | [] => .ok (bumpEng (setRing s c b n (r.append e none)) c b k o)
    | (i0, _) :: _ =>
      if e.k = 0 then .ok (bumpEng (setRing s c b n (r.append e none)) c b k o)
      else
        let first := o.base + BitVec.ofInt 64 ((rowIndex ((rows[i0]?).getD 0)).getD 0) * o.s0
        checkRange s first 1
        let f := (o.fmt).getD (formatAt s q first.toNat)
        if !(f = 1 || f = 2 || f = 3 || f = 8) then
          let _ ← imageAccess s q first [(0, 1)] (fun found => raise s (fmtFault found 0))
          stall s .queues
        else
          let eb := fmtBits f / 8
          let (s, cells) ← gatherInto s c q r o f (e.k * eb) (gatherRows o rows eb)
          .ok (bumpEng (setRing (spadCells s c cells) c b n (r.append e (some f))) c b k { o with fmt := some f })

/-- One panel of an RDRAIN (R154). -/
def rdrainStep (s : State) (c : CoreId) (b : BankId) (k : Fin 8) (o : EngOp) : Res State :=
  let n : Fin 8 := Fin.ofNat 8 o.ring
  match getRing s c b n with
  | none => stall s .queues
  | some r => do
    if r.held = 0 then stall s .queues
    let rs := inBound r r.tag { r.extOf r.head with nulls := 0 }
    checkSlot s c b r r.head
    match rs.findSome? (fun x => unitsBad (getCore s c).badSpad (r.slotAt r.head + x.1) x.2) with
    | some u => raise s (flt .eccu (w64 (r.slotAt r.head)) 6 (w64 (u * 128)))
    | none =>
      let va := o.base + BitVec.ofNat 64 o.next * o.s0
      let (s, ps) ← imageAccess s (engReq s c b true) va rs (fun f =>
        if f = r.tag || f = 0 then .ok () else raise s (fmtFault f r.tag))
      let cells := (rangeOffsets rs).filterMap (fun x => (keyAt ps (va.toNat + x)).map (fun a =>
        (a, Mem.read (getCore s c).spad (r.slotAt r.head + x))))
      .ok (bumpEng (setRing (engineStore s c b (bankOrigin s c b (engineNo c b k.val) true) 4 cells) c b n r.pop) c b k o)

/-- One iteration of the first operation of an engine; an operation of no vectors completes in its turn, and
an RFILLG of no panels pops no index (DEDUCED, assumption 69). -/
def engStep (s : State) (c : CoreId) (b : BankId) (k : Fin 8) (o : EngOp) : Res State :=
  if o.form ≠ .qatomic && o.total ≤ o.next then .ok (finishEng s c b k)
  else match o.form with
    | .strm => strmStep s c b k o
    | .drn => drnStep s c b k o
    | .rfill => rfillStep s c b k o
    | .rfillg => rfillgStep s c b k o
    | .rdrain => rdrainStep s c b k o
    | .qatomic => stall s .queues

/-- The stream that issues an engine's operations. -/
def engStream (k : Fin 8) : Stream := if k.val < 4 then .l else .s

/-- R147: an engine's check fails: the operation stops and its issuer takes a deferred fault. -/
def faultEng (s : State) (c : CoreId) (b : BankId) (k : Fin 8) (o : EngOp) (f : FaultInfo) : State :=
  let s := modEng s c b (fun e => { e with ops := vmod e.ops k (fun l => { o with faulted := true } :: l.drop 1) })
  deferFault s { core := c, bank := b, stream := engStream k }
    { f with unit := 4, index := k.val, opnum := o.num, pos := w64 o.next } (.engine k)

/-- An iteration that waits has taken place only if it has begun something, such as a page move (R216). -/
def afterIteration (s : State) (r : Res State) (fail : State → FaultInfo → State) : Out :=
  match r with
  | .ok s' => .next s'
  | .error (.stall s' _) => if s'.nextId = s.nextId then .fault .notEnabled else .next s'
  | .error (.fault s' f) => .next (fail s' f)

/-- STREAM_ENGINE_STEP (R145, R147, R148, R326): engines advance on issue cycles, outside drain windows and slots. -/
def execStreamEngineStep (c : CoreId) (b : BankId) (k : Fin 8) (s : State) : Out :=
  match (getBank s c b).eng.ops.get k with
  | [] => .fault .notEnabled
  | o :: _ =>
    if o.faulted || !enginesRun s || !issueNow s c || (getBank s c b).task.isNone then .fault .notEnabled
    else afterIteration s (engStep s c b k o) (fun s f => faultEng s c b k o f)

end Sys2Proof.Machine
end

