-- ==== Sys2Proof/Machine/Atomics.lean ====
section
/-! DEFINITION. The atomics (R203 to R205), their performance at the home (R193) and the queue form's results (R204). -/

namespace Sys2Proof.Machine

/-! ### Operations (R205) -/

/-- R205: the new value. -/
def atomicNew (op : AOp) (t : EType) (old b c : Nat) : Nat :=
  let w := EType.width t
  let sg := EType.signed t
  match op with
  | .add => (old + b) % 2 ^ w
  | .fadd => (rn32 (addV (decodeF ffF32 old) (decodeF ffF32 b)).1).1
  | .min => if intOf sg w b < intOf sg w old then b else old
  | .max => if intOf sg w old < intOf sg w b then b else old
  | .and => old &&& b
  | .or => old ||| b
  | .xor => old ^^^ b
  | .swp => b
  | .cas => if old = b then c else old
  | .incw => if b ≤ old then 0 else old + 1

/-- R205: the operand B, and the new value of ACAS. -/
def atomicOperands (s : State) (g : Agent) (w : WordF) (op : AOp) : Word × Word :=
  match op with
  | .cas => (descReg s g w.srcB 0, descReg s g w.srcB 1)
  | .fadd => (match w.srcB with
    | .short v => BitVec.ofNat 64 (shortElem .f32 v)
    | _ => scal s g w [w.srcA, w.srcB] 1, 0)
  | _ => (scal s g w [w.srcA, w.srcB] 1, 0)

/-- R203: the sources that an atomic reads as operands. -/
def atomicSources (w : WordF) (op : AOp) : List Operand := if op = .cas then [w.srcA] else [w.srcA, w.srcB]

/-- R203: read permission, checked with write permission. -/
def needRead (s : State) (ps : List Part) : Res Unit :=
  match ps.find? (fun p => !eRD p.leaf.entry) with
  | some p => raise s (flt .prot (w64 p.va) 1)
  | none => .ok ()

/-- R203: the checks of an atomic: the state once served, and where the location stands. -/
def atomicAccess (s : State) (g : Agent) (va : Word) (n : Nat) : Res (State × Leaf) := do
  let q := reqOf s g true
  checkRange s va n
  checkAlign s va n
  let ps ← accessParts s q va.toNat n (needRead s)
  match ps.head? with
  | some p => .ok (countMisses (served s q ps) g (tlbMisses s g q va.toNat n), p.leaf)
  | none => raise s (flt .notmapped va)

/-- R204: the result form that mod[2:0] selects. -/
def atomicForm (w : WordF) : AForm :=
  let m := w.mod.toNat % 8
  if m = 0 then .reg else if m = 1 then .posted else .queue (Fin.ofNat 4 (m % 4))

/-- An atomic's request (R193, R204). -/
def atomicReq (s : State) (g : Agent) (w : WordF) (op : AOp) (l : Leaf) (va : Word) (id : Nat) (num : Word) : AtomicReq :=
  let (b, c) := atomicOperands s g w op
  let n := 2 ^ EType.width w.etype
  let t := taskOf s g
  { id := id, agent := g, ctx := t.ctx, form := atomicForm w, op := op, etype := w.etype, va := va, pa := leafKey l va.toNat
    home := homeOfByte s l va.toNat, arrived := homeOfByte s l va.toNat == agentDie g, b := BitVec.ofNat 64 (b.toNat % n), c := BitVec.ofNat 64 (c.toNat % n)
    order := w.order, scope := w.scope, mask := wordMask s g w, num := num, kinst := t.kinst, node := t.node, task := t.key
    after := acquiredNow s g.core g.bank }

/-- R345, R349: an atomic request leaves for its home, unless that is the issuer's die. -/
def postAtomic (s : State) (r : AtomicReq) : State :=
  if r.home = agentDie r.agent then s
  else post s { src := agentDie r.agent, dst := r.home, kind := .request r.id, ctx := some r.ctx, posted := r.form == .posted
                agent := r.sender }

/-- The request enters the atomic path. -/
def pushAtomic (s : State) (r : AtomicReq) : State := postAtomic (modMs s (fun m => { m with atomics := m.atomics ++ [r] })) r

/-- An atomic word (R203, R204): a register result is waited for, a posted request is done with its acceptance, and a
queue form is an operation of a stream engine. -/
def atomicWord (w : WordF) (op : AOp) (s : State) : Out :=
  let srcs := atomicSources w op
  runWord w false (fun s g => do
    takeSources s g srcs []
    if op = .cas then checkDesc s g w.srcB 2
    checkScope s g w
    match atomicForm w with
    | .queue k => do
      let e := engNo g k.val
      let q := (Operand.queue? w.dst).getD 0
      checkBind s g e q true
      let va := scal s g w srcs 0
      let (s1, l) ← atomicAccess s g va (elemLen w.etype)
      let num := (bankOf s g).eng.issued.get (engTl e) + 1
      let s ← orStall s (acceptEng s1 g e { form := .qatomic, num := 0, q := q.val, c0 := 1, c1 := 1 })
      let (s, id) := takeId s
      donePop (pushAtomic s (atomicReq s g w op l va id num)) srcs
    | .posted => do
      let va := scal s g w srcs 0
      let (s, l) ← atomicAccess s g va (elemLen w.etype)
      let (s, id) := takeId s
      donePop (pushAtomic s (atomicReq s g w op l va id 0)) srcs
    | .reg => do
      let va := scal s g w srcs 0
      let (s, l) ← atomicAccess s g va (elemLen w.etype)
      let (s, id) := takeId s
      .ok (.pend (pushAtomic s (atomicReq s g w op l va id 0)) .atomic id)) s

/-- AADD (R205). -/
def execAadd (w : WordF) (s : State) : Out := atomicWord w .add s
/-- AFADD (R205). -/
def execAfadd (w : WordF) (s : State) : Out := atomicWord w .fadd s
/-- AMIN (R205). -/
def execAmin (w : WordF) (s : State) : Out := atomicWord w .min s
/-- AMAX (R205). -/
def execAmax (w : WordF) (s : State) : Out := atomicWord w .max s
/-- AAND (R205). -/
def execAand (w : WordF) (s : State) : Out := atomicWord w .and s
/-- AOR (R205). -/
def execAor (w : WordF) (s : State) : Out := atomicWord w .or s
/-- AXOR (R205). -/
def execAxor (w : WordF) (s : State) : Out := atomicWord w .xor s
/-- ASWP (R205). -/
def execAswp (w : WordF) (s : State) : Out := atomicWord w .swp s
/-- ACAS (R205). -/
def execAcas (w : WordF) (s : State) : Out := atomicWord w .cas s
/-- AINCW (R205). -/
def execAincw (w : WordF) (s : State) : Out := atomicWord w .incw s

/-! ### At the home (R193, R204) -/

/-- The bytes of an atomic's location. -/
def AtomicReq.keys (r : AtomicReq) : List Nat := (List.range (elemLen r.etype)).map (fun i => r.pa + i)

/-- R193: may a request be performed before the earlier requests of its stream to its home? A register-result or
queue-form request passes posted ones to different bytes; the register-result request passes a faulted posted one to its
bytes too, which waits for a KRETRY that this word would keep from coming (assumption 62). -/
def atomicInOrder (earlier : List AtomicReq) (r : AtomicReq) : Bool :=
  earlier.all (fun e => e.agent != r.agent || e.home != r.home || e.result.isSome
    || (e.form == .posted && r.form != .posted && !e.keys.any (fun k => r.keys.contains k))
    || (e.form == .posted && e.fault.isSome && r.form == .reg))

/-- The requests before one on the atomic paths. -/
def atomicsBefore (s : State) (id : Nat) : List AtomicReq := s.ms.atomics.takeWhile (fun r => r.id != id)

/-- R92, R190: have the bank's own stores to the location taken their places before it? -/
def ownStoresPlaced (s : State) (r : AtomicReq) : Bool :=
  (bufferOf s r.agent).all (fun w => !w.cells.any (fun c => r.keys.contains c.1))
  && s.ms.unplaced.all (fun w => w.src != agentDie r.agent || !w.cells.any (fun c => r.keys.contains c.1))

/-- R195, R197: what an atomic's order waits for before it takes effect. -/
def atomicOrdered (s : State) (r : AtomicReq) : Bool :=
  match r.order with
  | .rlx | .acq => true
  | .rel | .acqrel => releaseBefore s r.agent r.scope r.mask r.id
  | .sc => scBefore s r.agent r.scope r.mask r.id

/-- R204, R372: the fault of an atomic: of a posted one it holds the operand. -/
def AtomicReq.faultOf (r : AtomicReq) (code : Code) (detail : Word) : FaultInfo :=
  if r.form = .posted then { flt code r.va r.b with unit := 8 } else flt code r.va detail

/-- R203, R204: a data fault found at the home. -/
def homeFault (s : State) (r : AtomicReq) : Option FaultInfo :=
  match translate s r.home none r.ctx r.va.toNat with
  | .leaf l => if ePSN l.entry then some (r.faultOf .poison 0) else none
  | _ => none

/-- The state with a request removed. -/
def dropAtomic (s : State) (id : Nat) : State :=
  modMs s (fun m => { m with atomics := m.atomics.filter (fun r => r.id != id) })

/-- The state with a request replaced. -/
def setAtomic (s : State) (r : AtomicReq) : State :=
  modMs s (fun m => { m with atomics := m.atomics.map (fun x => if x.id = r.id then r else x) })

/-- The stream's pending word takes its result (R204), with the number of the atomic's write. -/
def returnAtomic (s : State) (r : AtomicReq) (v : Word) (wrote : Nat) : State :=
  modStOf s r.agent (fun x => match x.pending with
    | some p => if p.sent = r.id && p.kind = .atomic then { x with pending := some { p with result := some v, wrote := wrote } }
        else x
    | none => x)

/-- A fault is taken by the issuer of a request (R204). -/
def faultAtomic (s : State) (r : AtomicReq) (f : FaultInfo) : State :=
  let r := { r with fault := some f, back := true, redo := .no }
  match r.form with
  | .reg => failPending (dropAtomic s r.id) r.agent r.id f
  | .posted => deferFault (setAtomic s { r with faulted := true }) r.agent f (.atomic r.id)
  | .queue k =>
    let e := engNo r.agent k.val
    match (bankOf s r.agent).eng.ops.get e with
    | o :: _ => if o.num = r.num then faultEng (setAtomic s { r with faulted := true }) r.agent.core r.agent.bank e o f
        else s
    | [] => dropAtomic s r.id

/-- Does the issuing task still run in the bank it issued from? -/
def issuerHere (s : State) (r : AtomicReq) : Bool :=
  match (bankOf s r.agent).task with
  | some t => t.key == r.task
  | none => false

/-- Is the issuing task parked (R239)? -/
def issuerParked (s : State) (r : AtomicReq) : Bool :=
  (getCaux s r.ctx).images.any (fun i => match i.bank.task with
    | some t => t.key == r.task
    | none => false)

/-- Does anyone still wait for the result of a queue-form request: its engine's operation, or its parked task? -/
def engineWaits (s : State) (r : AtomicReq) (k : Fin 4) : Bool :=
  ((bankOf s r.agent).eng.ops.get (engNo r.agent k.val)).any (fun o => o.num == r.num) || issuerParked s r

/-- The answer to a request is back at the issuer's die (R204, R349): the pending word of a register form takes it; the engine
of a queue form holds it for its turn, and the fault of a posted request waits for its stream. -/
def atomicBack (s : State) (r : AtomicReq) : State :=
  match r.form, r.fault, r.result with
  | .reg, some f, _ => failPending (dropAtomic s r.id) r.agent r.id f
  | .reg, none, some v => returnAtomic (dropAtomic s r.id) r v r.wrote
  | .reg, none, none => s
  | .posted, _, _ => setAtomic s { r with back := true }
  | .queue k, _, _ => if engineWaits s r k then setAtomic s { r with back := true } else dropAtomic s r.id

/-- The home answers a request (R349): at once where it is the issuer's own die. -/
def answerAtomic (s : State) (r : AtomicReq) : State :=
  if r.home = agentDie r.agent then atomicBack s r else postAnswer (setAtomic s r) r.home r.agent r.ctx r.id

/-- What an atomic's write comes from. -/
def AtomicReq.origin (r : AtomicReq) : Origin :=
  { ctx := some r.ctx, kinst := r.kinst, node := r.node, eng := r.form != .reg && r.form != .posted }

/-- R193: the location is read and written in one step of coherence order. A posted request has no answer. -/
def performAtomic (s : State) (r : AtomicReq) : State :=
  let old := ofBytes (r.keys.map (homeByte s.ms))
  let new := atomicNew r.op r.etype old r.b.toNat r.c.toNat
  let wrote := s.nextId
  let s := enterAtomic s r.home (some r.task) r.after r.origin (cellsAt r.pa (toBytes (elemLen r.etype) new))
  if r.form = .posted then dropAtomic s r.id
  else answerAtomic s { r with result := some (extendLoad r.etype old), wrote := wrote }

/-- Is a queue-form request that has faulted at the head of its engine? A fault waits for its turn. -/
def faultInTurn (s : State) (r : AtomicReq) : Bool :=
  match r.form with
  | .queue k => (match (bankOf s r.agent).eng.ops.get (engNo r.agent k.val) with
      | o :: _ => o.num = r.num
      | [] => true)
  | _ => true

/-- R19: does the calendar let a home serve a request now: not in a level change, and an engine's not in a slot? -/
def homeServes (s : State) (r : AtomicReq) : Bool :=
  s.cal.relock = 0 && (match r.form with
    | .queue _ => !inSlot s
    | .reg | .posted => true)

/-- R193, R195 to R197: does what stands before a request let its home perform it? -/
def atomicDue (s : State) (r : AtomicReq) : Bool :=
  atomicInOrder (atomicsBefore s r.id) r && ownStoresPlaced s r && atomicOrdered s r && afterMet s r.home r.after

/-- R204: the request that KRETRY has performed again is checked and translated as at its issue, and leaves for the home that
it has then. -/
def redoAtomic (s : State) (r : AtomicReq) : Out :=
  let q : Req := { ctx := r.ctx, die := agentDie r.agent, core := some r.agent.core, wr := true, kinst := r.kinst }
  match accessParts s q r.va.toNat (elemLen r.etype) (needRead s) with
  | .ok (p :: ps) =>
    let h := homeOfByte s p.leaf r.va.toNat
    let r := { r with pa := leafKey p.leaf r.va.toNat, home := h, redo := .perform, arrived := h == agentDie r.agent }
    .next (postAtomic (setAtomic (served s q (p :: ps)) r) r)
  | .ok [] => .fault .notEnabled
  | .error (.stall t _) => if t.nextId = s.nextId then .fault .notEnabled else .next t
  | .error (.fault t f) => .next (faultAtomic t r (r.faultOf f.code f.detail))

/-- A fault that is back at the issuer's die is taken: at once, in its turn, or, of a parked task, once that has resumed; it is
dropped with a task that has ended. -/
def takeAtomicFault (s : State) (r : AtomicReq) (f : FaultInfo) : Out :=
  if issuerHere s r then (if faultInTurn s r then .next (faultAtomic s r f) else .fault .notEnabled)
  else if issuerParked s r then .fault .notEnabled
  else .next (closeIfDone (dropAtomic s r.id) r.kinst r.node)

/-- ATOMIC_AT_HOME (R193, R203, R204, R349): a request that has arrived is performed, or its fault found; a fault that is back
is taken by the issuer, and a request that KRETRY has performed again starts anew. -/
def execAtomicAtHome (n : Nat) (s : State) : Out :=
  match s.ms.atomics.find? (fun r => r.id == n && !r.faulted) with
  | none => .fault .notEnabled
  | some r =>
    if r.redo = .translate then redoAtomic s r
    else match r.fault with
      | some f => if r.back then takeAtomicFault s r f else .fault .notEnabled
      | none =>
        if !r.arrived || r.result.isSome || !homeServes s r || !atomicDue s r then .fault .notEnabled
        else match homeFault s r with
          | some f => .next (answerAtomic s { r with fault := some f })
          | none => .next (closeIfDone (performAtomic s r) r.kinst r.node)

/-- QUEUE_ATOMIC_RESULT (R20, R190, R204): results are pushed in operation order, on an issue cycle, once the atomic's write is
in the view of its issuer's die, and the counter advances with the push. -/
def execQueueAtomicResult (c : CoreId) (b : BankId) (k : Fin 4) (s : State) : Out :=
  let e : Fin 8 := Fin.castLE (by omega) k
  match (getBank s c b).eng.ops.get e with
  | [] => .fault .notEnabled
  | o :: _ =>
    if o.form ≠ .qatomic || inSlot s || !issueNow s c then .fault .notEnabled
    else
      match s.ms.atomics.find? (fun r => r.agent.core == c && r.agent.bank == b && r.form == .queue k && r.num == o.num && r.back) with
      | none => .fault .notEnabled
      | some r =>
        match r.result with
        | none => .fault .notEnabled
        | some v =>
          let q : Fin 16 := Fin.ofNat 16 o.q
          if queueRoom (getBank s c b) q (now s) = 0 || !performedAt s r.wrote (dieOf c) then .fault .notEnabled
          else .next (finishEng (modBank (dropAtomic s r.id) c b (fun x =>
            pushQ x q (now s) [{ val := v.setWidth 2048 }])) c b e)

end Sys2Proof.Machine
end

