-- ==== Sys2Proof/Machine/Crc.lean ====
section
/-! DEFINITION. CRC-64/XZ (R361), which flits (R344) and collectives (R359, R361) use. -/

namespace Sys2Proof.Machine

/-- One bit of the reflected CRC. -/
def crcBit (c : Word) : Word := if c.getLsbD 0 then (c >>> 1) ^^^ 0xC96C5795D7870F42 else c >>> 1

/-- One byte. -/
def crcByte (c : Word) (b : Byte) : Word :=
  crcBit (crcBit (crcBit (crcBit (crcBit (crcBit (crcBit (crcBit (c ^^^ b.setWidth 64))))))))

/-- R361: CRC-64/XZ. -/
def crc64 (bs : List Byte) : Word := ~~~(bs.foldl crcByte (BitVec.allOnes 64))

end Sys2Proof.Machine
end

