-- ==== Sys2Proof/Machine/Moves.lean ====
section
/-! DEFINITION. Page moves, repairs and poison (R217 to R219), the migrator's pages (R228) and the residency events. -/

namespace Sys2Proof.Machine

/-! ### Moves (R218) -/

/-- R218: is a write to the frame that an entry names still on its way to its home or to a view? -/
def frameBusy (s : State) (e : Pte) : Bool :=
  let lo := frameKey e
  let hit (cs : List Host.Cell) := cs.any (fun c => lo ≤ c.1 && c.1 < lo + 65536)
  eTIER e != 0
  && (s.ms.unplaced.any (fun w => hit w.cells) || s.ms.writes.any (fun w => hit w.cells)
      || s.ms.atomics.any (fun r => r.result.isNone && !r.faulted && lo ≤ r.pa && r.pa < lo + 65536)
      || allBanks.any (fun p => (getAux s p.1 p.2).sb.any (fun w => hit w.cells)))

/-- The bytes of a page are copied from one frame to another; a frame given out reads zero before (R216). -/
def copyFrame (m : Mem) (src dst : Nat) : Mem :=
  Mem.writeCells (Mem.clear m dst 65536) (Mem.slice m src 65536 dst)

/-- R218 steps 5 and 6: the copy is committed. -/
def commitMove (s : State) (m : Move) : State :=
  let e := homePte s.ms m.at_
  let dst := if m.tier = 4 then hostKey (m.frame.toNat * 65536) else m.frame.toNat * 65536
  let s := if eTIER e = 0 then s else modMs s (fun v => { v with mem := copyFrame v.mem (frameKey e) dst })
  let e' := eSet (eSet (eSet (settledPte e) 11 3 m.tier) 15 4 m.home) 36 28 m.frame.toNat
  let e' := eBit (eBit e' 14 m.hsh) 8 m.own
  let s := updateLeaf s m.ctx (m.leaf e) e'
  moveEnded (dropMove (freePteFrame s m.ctx e) m.id) m 0

/-- The dies that home the bytes of a frame by an entry's fields (R214, R215). -/
def frameHomes (s : State) (tier : Nat) (hsh : Bool) (home : Nat) : List DieId :=
  if tier = 0 || 4 ≤ tier then [] else if hsh then s.boot.itable.toList.dedup else [Fin.ofNat 10 home]

/-- R12: can a move's source and target be reached, each through the die that owns it? -/
def moveReaches (s : State) (m : Move) (e : Pte) : Bool :=
  let d : DieId := match m.by_ with
    | .migr d _ _ => d
    | .access | .capo | .host | .wsload _ _ => 8
  (frameHomes s (eTIER e) (eHSH e) (eHOME e) ++ frameHomes s m.tier m.hsh m.home).all (fun h =>
    !dieGone s h && (h == d || routeUp s d.val h.val))

/-- The number of a tier (R212). -/
def Tier.num : Tier → Nat
  | .zero => 0 | .wstack => 1 | .hbm => 2 | .lpddr => 3 | .host => 4

/-- R235: may pages of a context move into or out of the weight stack now? -/
def wsOpen (s : State) (x : CtxId) : Bool :=
  (getCtx s x).krun = 0 && ((getCtx s x).st == .loading || (getCtx s x).st == .ready)

/-- R233, R235: may a move still change the weight stack? The page in progress of a WSLOAD that CTXQUIESCE ends may. -/
def wsStillOpen (s : State) (m : Move) : Bool :=
  wsOpen s m.ctx || (match m.by_ with
    | .wsload _ _ => (getCtx s m.ctx).st == .quiesced
    | .access | .migr _ _ _ | .capo | .host => false)

/-- R190, R223: is a store to an entry still on its way to its home? -/
def entryBusy (s : State) (at_ : Nat) : Bool :=
  s.ms.unplaced.any (fun w => w.cells.any (fun c => at_ ≤ c.1 && c.1 < at_ + 16))

/-- MOVE_COMMIT (R218): once every write that the source accepted has been applied, and every store to the entry that a die
has made has taken its place. A move of the weight stack that R235 forbids by then is abandoned; a copy that meets an error of
its source takes the page's row (R219). -/
def execMoveCommit (n : Nat) (s : State) : Out :=
  match s.ms.moves.find? (fun m => m.id == n && !m.repair) with
  | none => .fault .notEnabled
  | some m =>
    let e := homePte s.ms m.at_
    if eBit e 5 false ≠ eBit m.entry 5 false then .next (abandonMove s m 5)
    else if (eTIER e = 1 || m.tier = 1) && !wsStillOpen s m then .next (abandonMove s m 5)
    else if !enginesRun s || entryBusy s m.at_ || frameBusy s e || !moveReaches s m e then .fault .notEnabled
    else if 1 ≤ eTIER e && eTIER e ≤ 3 && s.ms.latent.contains (eFRAME e) then .next (meetError s (eFRAME e))
    else .next (commitMove s m)

/-! ### Poison and repair (R217, R219) -/

/-- A repair fails: the page becomes POISONED (R217). -/
def repairFailed (s : State) (m : Move) : State :=
  dropMove (updateLeaf s m.ctx (m.leaf 0) (poisonPte (homePte s.ms m.at_))) m.id

/-- R377: a frame is never given out again. While a page has it, it stays its context's (R379). -/
def withdrawFrame (s : State) (f : Nat) : State :=
  modMs s (fun m => { m with withdrawn := f :: m.withdrawn, free := withoutFrame f m.free })

/-- R217, R377: the failing row of a repaired frame is retired: by a spare row, after which the frame may be given out
again, or with its frame. Its own self-test is not due any more. -/
def retireFailing (s : State) (x : CtxId) (f : Nat) : State :=
  let s := { s with care := { s.care with tests := s.care.tests.filter (fun t => t.1 != .frame (BitVec.ofNat 28 f)) } }
  freeFrame (if s.care.spares < Config.spareRows then { s with care := { s.care with spares := s.care.spares + 1 } }
    else withdrawFrame s f) x f

/-- R219: the refetched bytes go to a new frame, and the failing row is retired. -/
def repairDone (s : State) (m : Move) (cells : Nat → List Host.Cell) : State :=
  let e := homePte s.ms m.at_
  match takeFrame s m.ctx 3 false (eHOME e) with
  | none => repairFailed s m
  | some (s, f) =>
    let s := enterAll s 8 (cells (f * 65536))
    let s := updateLeaf s m.ctx (m.leaf e) (eSet (settledPte e) 36 28 f)
    dropMove (retireFailing s m.ctx (eFRAME e)) m.id

/-- R219, R221: the handle that backs a page, if the page's range of it can be read: host address base + (VA − device
base). -/
def backing (s : State) (m : Move) : Option Handle :=
  ((getCaux s m.ctx).handles.find? (fun h => h.n.toNat == eBH (homePte s.ms m.at_))).filter (fun h =>
    h.rd && h.dev ≤ m.va && m.va - h.dev + 65536 ≤ h.len && !s.disp.linkDown)

/-- The bytes of a page's host range, given the host-physical address of each of its 4 KiB pages, at a frame. -/
def refetchCells (s : State) (pages : List (BitVec 44)) (at_ : Nat) : List Host.Cell :=
  (List.zip (List.range pages.length) pages).flatMap (fun p => Mem.slice (homeMem s.ms) (hostKey p.2.toNat) 4096 (at_ + 4096 * p.1))

/-- REFETCH_COMPLETE (R217, R219, R221): the host pages that PCIe ATS gives for the page's host range, or none where the
refetch failed. -/
def execRefetchComplete (n : Nat) (pages : Option (List (BitVec 44))) (s : State) : Out :=
  match s.ms.moves.find? (fun m => m.id == n && m.repair) with
  | none => .fault .notEnabled
  | some m => match pages, backing s m with
    | some ps, some _ =>
      if ps.length ≠ 16 then .fault .notEnabled else .next (repairDone s m (refetchCells s ps))
    | _, _ => .next (repairFailed s m)

/-- REPAIR_TIMEOUT (R217): after 64 calendar periods. -/
def execRepairTimeout (n : Nat) (s : State) : Out :=
  match s.ms.moves.find? (fun m => m.id == n && m.repair) with
  | none => .fault .notEnabled
  | some m => if m.since + 64 ≤ period s then .next (repairFailed s m) else .fault .notEnabled

/-! ### Pages of an operation (R217, R224, R228) -/

/-- What the migrator does with a page now. -/
inductive PageAct
  | status (s : State) (code : Nat)
  | begun (s : State)
  | again (s : State)
  | wait
  deriving DecidableEq, Repr

/-- What the migrator does with a page whose table it cannot read: it waits for a lost die; a table that an error has
struck is refused as malformed (assumption 61). -/
def tableAct (s : State) (c : Code) : PageAct := if c = .eccu then .status s 3 else .wait

/-- R224: the page is first split from its large page. -/
def splitFirst (s : State) (x : CtxId) (l : Leaf) : PageAct :=
  match splitLarge s x l with
  | some s => .again s
  | none => .status s 4

/-- Start a move with a new frame, or NOFRAME. -/
def startMove (s : State) (by_ : MoveBy) (x : CtxId) (l : Leaf) (down : Bool) (tier : Nat) (hsh : Bool) (home : Nat) :
    PageAct :=
  match takeFrame s x tier hsh home with
  | some (s, f) => .begun (beginMove s by_ x l down tier hsh home f false)
  | none => .status s 4

/-- R217: MIGR of one page to HBM4 (tier 2) or LPDDR6 (tier 3). Where R217 has no row or two, the model answers REFUSED for an
unpinned weight-stack page, for MIGR.lp of a host-owned flip page and for a pinned page that is where it is sent; it waits for a page
that moves up or is repaired; and a move within a tier goes up (DESIGN CHOICE, assumption 23). -/
def migrPage (s : State) (by_ : MoveBy) (x : CtxId) (va tier : Nat) (hsh : Bool) (home : Nat) : PageAct :=
  match homeLeaf s x va with
  | .none => .status s 7
  | .malformed _ => .status s 3
  | .failed c _ => tableAct s c
  | .leaf l =>
    let e := l.entry
    if leafBad l || !eRD e || eSHR e = 1 then .status s 3
    else if ePSN e then .status s 6
    else if eMV e = 1 && eDIR e && tier = 2 then
      (match moveOf s x va with
       | some m => .status (abandonMove s m 5) 0
       | none => .wait)
    else if eMV e ≠ 0 then .wait
    else if eTIER e = 0 then .status s 1
    else if ePIN e then .status s 3
    else if eTIER e = 4 then
      (if tier = 2 then (if hsh then startMove s by_ x l false 2 true 0 else startMove s by_ x l false 2 false home)
       else .status s 3)
    else if eTIER e = 1 then .status s 3
    else if eTIER e = tier && eHSH e = hsh && (hsh || eHOME e = home) then .status s 1
    else if l.large then splitFirst s x l
    else startMove s by_ x l (tier = 3 && eTIER e = 2) tier hsh (if hsh then 0 else home)

/-- Every byte of the frame that an entry names becomes zero (R216). -/
def zeroFrame (s : State) (e : Pte) : State :=
  let lo := frameKey e
  let out (cs : List Host.Cell) := cs.filter (fun c => c.1 < lo || lo + 65536 ≤ c.1)
  modMs s (fun m => { m with
    mem := Mem.clear m.mem lo 65536, badTables := m.badTables.filter (· != eFRAME e), latent := m.latent.filter (· != eFRAME e)
    writes := m.writes.map (fun w => { w with cells := out w.cells })
    unplaced := m.unplaced.map (fun w => { w with cells := out w.cells }) })

/-- R25: does another page of the context have the frame of a page? Recovery had returned it, and it was given out again. -/
def frameElsewhere (s : State) (x : CtxId) (l : Leaf) : Bool :=
  (leavesOf s x).any (fun k => k.at_ != l.at_ && 1 ≤ eTIER k.entry && eTIER k.entry ≤ 3 && eFRAME k.entry ≤ eFRAME l.entry
    && eFRAME l.entry < eFRAME k.entry + (if k.large then 4096 else 1))

/-- R228: PGZERO of one page. It leaves SHR as it is, so that a flip page it has put into ZERO meets R213's rule of SHR and TIER
(DESIGN CHOICE, assumption 23). -/
def pgzeroPage (s : State) (x : CtxId) (va : Nat) : PageAct :=
  match homeLeaf s x va with
  | .none => .status s 7
  | .malformed _ => .status s 3
  | .failed c _ => tableAct s c
  | .leaf l =>
    let e := l.entry
    if leafBad l || !eWR e || eSHR e = 1 || (eSHR e = 2 && eTIER e = 4) || (eTIER e = 1 && 0 < (getCtx s x).krun)
    then .status s 3
    else if eMV e ≠ 0 || frameBusy s e then .wait
    else if l.large then splitFirst s x l
    else if ePIN e then .status (updateLeaf (if eTIER e = 0 then s else zeroFrame s e) x l (eBit e 7 false)) 0
    else if eTIER e = 0 then (if ePSN e then .status (updateLeaf s x l (eBit e 7 false)) 0 else .status s 1)
    else
      let e' := eSet (eSet (eBit e 7 false) 11 3 0) 36 28 (eTIER e)
      let s' := updateLeaf s x l e'
      .status (if ePSN e && frameElsewhere s x l then s' else freePteFrame s' x e) 0

/-- R217: the Capo evicts a page to HBM4 or LPDDR6; a refusal, a busy page or a missing frame changes nothing. -/
def evictPage (s : State) (x : CtxId) (va tier : Nat) (hsh : Bool) (home : Nat) : PageAct :=
  match homeLeaf s x va with
  | .none | .malformed _ | .failed _ _ => .status s 3
  | .leaf l =>
    let e := l.entry
    if leafBad l || ePSN e || eMV e ≠ 0 || ePIN e || eTIER e = 0 || eTIER e = 4 || eTIER e = tier
      || (eTIER e = 1 && !wsOpen s x) then .status s 3
    else if l.large then splitFirst s x l
    else startMove s .capo x l (eTIER e < tier) tier hsh (if hsh then 0 else home)

/-- R198, R228: is a status byte that a migrator has written for a context still to be performed at some die? -/
def statusFlying (s : State) (x : CtxId) : Bool :=
  writeInFlight s (fun w => w.origin.ctx == some x && allDies.any (fun d => w.origin.agent == dieAgentNo d 8))

/-- The migrator's counter takes the number of its first operation, once its writes are in every view (R198, R225). The Capo's
own operations have no number. -/
def finishMigr (s : State) (d : DieId) : State :=
  modDie s d (fun k => match k.mgOps with
    | [] => k
    | o :: rest => { k with mg := if o.capo then k.mg else o.num, mgOps := rest })

/-- What the migrator does with the next page of an operation. -/
def pageOf (s : State) (d : DieId) (o : MigOp) : PageAct :=
  let va := o.first + 65536 * o.next
  if o.capo then evictPage s o.ctx va o.tier o.hsh o.home
  else if o.zero then pgzeroPage s o.ctx va
  else migrPage s (.migr d o.id o.next) o.ctx va o.tier o.hsh o.home

/-- MIGRATOR_PAGE (R225, R228): the next page of a die's migrator operation, in address order. A WSLOAD takes its pages by
`wsloadPage`. -/
def migratorOp (s : State) (d : DieId) : Option State :=
  match (getDie s d).mgOps with
  | [] => none
  | o :: _ =>
    if o.waiting || o.ws then none
    else if o.count ≤ o.next || o.discarded then
      (if statusFlying s o.ctx then none else some (closeIfDone (finishMigr s d) o.kinst o.node))
    else if !enginesRun s then none
    else match pageOf s d o with
      | .status s code => some (migrDone s d o.id o.next code)
      | .begun s => some (modDie s d (fun k => { k with mgOps := k.mgOps.map (fun p =>
          if p.id = o.id then { p with waiting := true } else p) }))
      | .again s => some s
      | .wait => none

/-- R217, R235: a page of a WSLOAD moves into the weight stack of its home. -/
def wsPage (s : State) (x : CtxId) (idx va home : Nat) : PageAct :=
  match homeLeaf s x va with
  | .none => .status s 7
  | .malformed _ => .status s 3
  | .failed c _ => tableAct s c
  | .leaf l =>
    let e := l.entry
    if leafBad l || !eRD e || eSHR e ≠ 0 then .status s 3
    else if ePSN e then .status s 6
    else if eMV e ≠ 0 then .wait
    else if eTIER e = 0 then .status s 1
    else if ePIN e then .status s 3
    else if eTIER e = 1 && eHOME e = home then .status s 1
    else if l.large then splitFirst s x l
    else startMove s (.wsload x idx) x l false 1 false home

/-- R225: a context's WSLOAD leaves the migrator. -/
def dropWsOp (s : State) (x : CtxId) : State :=
  foldAll s (allDies.filter (fun d => (getDie s d).mgOps.any (fun o => o.ws && o.ctx == x))) (fun s d =>
    modDie s d (fun k => { k with mgOps := k.mgOps.filter (fun o => !(o.ws && o.ctx == x)) }))

/-- R235, R259: a WSLOAD ends: its command status is written and it leaves the context and the migrator. -/
def finishWs (s : State) (x : CtxId) (w : WsLoad) : State :=
  let s := modCaux (dropWsOp s x) x (fun a => { a with ws := a.ws.drop 1 })
  writeStatus s w.ring w.seq w.statva w.irq (if w.cancelled then 5 else 0) 0

/-- R225, R235: the next page of a running WSLOAD in its turn on its home's migrator, in ascending order, or its end. -/
def wsloadPage (s : State) (d : DieId) : Option State :=
  match (getDie s d).mgOps with
  | [] => none
  | o :: _ =>
    let x := o.ctx
    match (getCaux s x).ws with
    | [] => none
    | w :: _ =>
      if !o.ws || !w.running || s.ms.moves.any (fun m => m.by_ == .wsload x w.next) then none
      else if w.count ≤ w.next then (if statusFlying s x then none else some (finishWs s x w))
      else if (getCtx s x).st ≠ .loading && (getCtx s x).st ≠ .ready then some (wsDone s x w.next 5)
      else if !enginesRun s then none
      else match wsPage s x w.next (w.first + 65536 * w.next) w.home with
        | .status s code => some (wsDone s x w.next code)
        | .begun s | .again s => some s
        | .wait => none

/-- MIGRATOR_PAGE (R217, R225, R228, R235): the next page of a die's migrator operation, or of a WSLOAD whose home it
is. -/
def execMigratorPage (d : DieId) (s : State) : Out :=
  match migratorOp s d with
  | some s => .next s
  | none => match wsloadPage s d with
    | some s => .next s
    | none => .fault .notEnabled

/-- R225: an operation that the Capo gives a migrator: one of its 16 places, and its turn in acceptance order. -/
def capoOp (s : State) (x : CtxId) (va : Nat) : MigOp :=
  { id := s.nextId, num := 0, agent := { core := 0, bank := .active, stream := .l }, task := 0, ctx := x, zero := false
    first := va / 65536 * 65536, count := 1, status := 0, tier := 0, hsh := false, home := 0, capo := true }

/-- R225: an operation enters a migrator. -/
def enterMig (s : State) (d : DieId) (o : MigOp) : State :=
  modDie (takeId s).1 d (fun k => { k with mgOps := k.mgOps ++ [o] })

/-- R225: has a die's migrator a free place? -/
def migRoom (s : State) (d : DieId) : Bool := (getDie s d).mgOps.length < 16

/-- CAPO_EVICT (R217, R225): the Capo gives bridge die 8's migrator the eviction of a page to HBM4 or LPDDR6. -/
def execCapoEvict (x : CtxId) (va : VAddr) (tier : Tier) (home : DieId) (s : State) : Out :=
  match homeLeaf s x va.toNat with
  | .leaf l =>
    let t := Tier.num tier
    if leafBad l || !(t = 2 || t = 3) || !homeOk t false home.val || !presentNo s home.val || !migRoom s 8
    then .fault .notEnabled
    else .next (enterMig s 8 { capoOp s x va.toNat with tier := t, home := home.val })
  | _ => .fault .notEnabled

/-- Where the Capo puts the page of a withdrawn frame (R377): out of LPDDR6 into HBM4, hashed, else to bridge die 8's LPDDR6
(assumption 52). -/
def evictionOp (s : State) (x : CtxId) (va : Nat) : MigOp :=
  match homeLeaf s x va with
  | .leaf l => if eTIER l.entry = 3 then { capoOp s x va with tier := 2, hsh := true } else { capoOp s x va with tier := 3, home := 8 }
  | .none | .malformed _ | .failed _ _ => capoOp s x va

/-- Would an operation move its page now? -/
def wouldMove (s : State) (o : MigOp) : Bool :=
  match pageOf s 8 o with
  | .begun _ | .again _ => true
  | .status _ _ | .wait => false

/-- R377: the Capo evicts the page that still has a withdrawn frame, once it can: when it is unpinned, its move has ended, or
a frame is free. -/
def evictWithdrawn (s : State) : Out :=
  if !migRoom s 8 then .fault .notEnabled
  else
    let ops := (s.ms.withdrawn.flatMap (pagesOfFrame s)).map (fun p => evictionOp s p.1 p.2)
    let queued (o : MigOp) : Bool := (getDie s 8).mgOps.any (fun p => p.capo && p.ctx == o.ctx && p.first == o.first)
    match ops.find? (fun o => !queued o && wouldMove s o) with
    | some o => .next (enterMig s 8 o)
    | none => .fault .notEnabled

/-- HOST_FLIP_ACCESS (R217): a host access to a device-owned flip page moves it down to the host; a pinned page refuses
it. -/
def execHostFlipAccess (x : CtxId) (va : VAddr) (s : State) : Out :=
  match homeLeaf s x va.toNat with
  | .leaf l =>
    let e := l.entry
    if leafBad l || eSHR e ≠ 2 || !(eTIER e = 2 || eTIER e = 3) || eMV e ≠ 0 || ePSN e || s.disp.linkDown
    then .fault .notEnabled
    else if ePIN e then .next s
    else .next (beginMove s .host x l true 4 false 0 (Config.hostFrame x.val l.base % 2 ^ 28) true)
  | _ => .fault .notEnabled

/-- ATS_INVALIDATE (R221): acknowledged when every translated request of the range has completed. A copy piece is one
step of the model, so none is in progress between steps. -/
def execAtsInvalidate (x : CtxId) (handle : BitVec 12) (s : State) : Out :=
  if (getCaux s x).handles.any (fun h => h.n == handle) then .next s else .fault .notEnabled

/-! ### Walks (R222) -/

/-- The entries that a walk reads, as a cache holds them, up to a table page that cannot be read (R12, R222). -/
def walkEntries (fails : Nat → Option Xlate) (read : Nat → Pte) (x : CtxId) (va : Nat) :
    (fuel level table : Nat) → List TlbEntry
  | 0, _, _ => []
  | fuel + 1, level, table => if (fails table).isSome then [] else
    let at_ := table + 16 * vaIndex va level
    let e := read at_
    let size := 2 ^ (52 - 12 * level)
    let t : TlbEntry := { ctx := x, level := level, base := va / size * size, entry := e, at_ := at_ }
    if !eV e then []
    else if eLF e then (if level = 1 then [] else [t])
    else if level = 3 || (pointerBad e).isSome then []
    else t :: walkEntries fails read x va fuel (level + 1) (eFRAME e * 65536)

/-- A cache takes new entries; when it is full, a victim leaves for each. -/
def fillTlb (cap victim : Nat) (tlb : List TlbEntry) (es : List TlbEntry) : List TlbEntry :=
  if cap = 0 then tlb else es.foldl (fun tlb e =>
    let tlb := tlb.filter (fun t => t.ctx != e.ctx || t.level != e.level || t.base != e.base)
    (if cap ≤ tlb.length then tlb.eraseIdx (victim % tlb.length) else tlb) ++ [e]) tlb

/-- R222, R377: how many entries a die's TLB, or a core's, still has: a lasting error disables a way. -/
def tlbRoom (s : State) (e : Structure) : Nat :=
  let (n, core) := match e with
    | .coreTlb _ => (256, true)
    | _ => (16384, false)
  n - Config.tlbWay core * s.care.lasting.count e

/-- PAGE_WALK (R222): a walker of a core's die completes a walk for a context with a task on the core. -/
def execPageWalk (c : CoreId) (x : CtxId) (va : VAddr) (victim : Option Nat) (s : State) : Out :=
  let d := dieOf c
  if (getDie s d).st ≠ .up || !(bankCtx (getBank s c .active) == some x || bankCtx (getBank s c .shadow) == some x)
  then .fault .notEnabled
  else
    let es := walkEntries (tableFails s d) (readPte s.ms d) x va.toNat 3 1 (getCtx s x).root.toNat
    let v := victim.getD 0
    let s := modDie s d (fun k => { k with tlb := fillTlb (tlbRoom s (.tlb d)) v k.tlb es })
    .next (modCore s c (fun k => { k with tlb := fillTlb (tlbRoom s (.coreTlb c)) v k.tlb es }))

end Sys2Proof.Machine
end

