-- ==== Sys2Proof/Machine/Transcendental.lean ====
section
/-! DEFINITION. The root and the transcendental functions of R120 and R121: their values to within 2⁻¹⁰⁰ of themselves,
which decides every rounding that the forms ask for (assumption 20). -/

namespace Sys2Proof.Machine

/-- The fixed point of this file: a number n stands for n × 2⁻²⁵⁶. -/
def fixP : Nat := 2 ^ 256

/-- floor(2²⁵⁶ × ln 2). -/
def ln2Fix : Nat := 0xB17217F7D1CF79ABC9E3B39803F2F6AF40F343267298B62D8A0D175B8BAAFA2B

/-- A rational in fixed point, rounded down. Every f32 is a multiple of 2⁻¹⁴⁹, so it is exact. -/
def toFix (q : Rat) : Int := (q * two 256).floor

/-- The sum of r^i / i! from i = n on, given the term at n; `fuel` terms. -/
def expTail (r : Nat) : (fuel n term : Nat) → Nat
  | 0, _, _ => 0
  | fuel + 1, n, term => term + expTail r fuel (n + 1) (term * r / fixP / (n + 1))

/-- e^r for r from 0 to 1, in fixed point. -/
def expFix (r : Nat) : Nat := expTail r 80 0 fixP

/-- The sum of t^(2i + 1) / (2i + 1) from i on, given t^(2i + 1); `fuel` terms. -/
def atanhTail (t2 : Nat) : (fuel i pow : Nat) → Nat
  | 0, _, _ => 0
  | fuel + 1, i, pow => pow / (2 * i + 1) + atanhTail t2 fuel (i + 1) (pow * t2 / fixP)

/-- ln m for m from 1 to 2, in fixed point. -/
def lnFix (m : Rat) : Nat :=
  let t := (toFix ((m - 1) / (m + 1))).toNat
  2 * atanhTail (t * t / fixP) 90 0 t

/-- e^x. Beyond 200 either way the value lies far outside the range of f32, and a power of two stands for it. -/
def expReal (x : Rat) : Rat :=
  if 200 < x then two 1000
  else if x < -200 then two (-1000)
  else
    let k := toFix x / (ln2Fix : Int)
    let r := (toFix x - k * ln2Fix).toNat
    (expFix r : Rat) * two (k - 256)

/-- 2^x. -/
def exp2Real (x : Rat) : Rat :=
  if 300 < x then two 1000
  else if x < -300 then two (-1000)
  else
    let k := x.floor
    let r := (toFix (x - k)).toNat * ln2Fix / fixP
    (expFix r : Rat) * two (k - 256)

/-- log2 x for x > 0. -/
def log2Real (x : Rat) : Rat :=
  let e := floorLog2 x
  (e : Rat) + (lnFix (x * two (-e)) : Rat) / (ln2Fix : Rat)

/-- tanh x for x > 0. -/
def tanhPos (x : Rat) : Rat :=
  if 60 < x then 1 - two (-150)
  else if x < two (-30) then x - x * x * x / 3
  else
    let e := expReal (2 * x)
    (e - 1) / (e + 1)

/-- The integer square root, bit by bit: the largest r built on `r` with bits below 2^n whose square is at most x. -/
def isqrtFrom (x : Nat) : (n r : Nat) → Nat
  | 0, r => r
  | n + 1, r => if (r + 2 ^ n) * (r + 2 ^ n) ≤ x then isqrtFrom x n (r + 2 ^ n) else isqrtFrom x n r

/-- √x for an f32 x > 0, and whether it is irrational. -/
def sqrtReal (x : Rat) : Rat × Bool :=
  let n := (x * two 400).floor.toNat
  let r := isqrtFrom n 270 0
  if r * r = n then ((r : Rat) * two (-200), false) else (((2 * r + 1 : Nat) : Rat) * two (-201), true)

/-- What a function of one f32 gives before rounding: a value, whether it is irrational, flags. -/
abbrev Fun1 := Val × Bool × Flagset

/-- R121: FSQRT. -/
def fsqrtV : Val → Fun1
  | .nan => (.nan, false, 0)
  | .zero n => (.zero n, false, 0)
  | .inf false => (.inf false, false, 0)
  | .inf true => (.nan, false, fNV)
  | .num q => if q < 0 then (.nan, false, fNV) else
      let r := sqrtReal q
      (.num r.1, r.2, 0)

/-- R121: FEXP. -/
def fexpV : Val → Fun1
  | .nan => (.nan, false, 0)
  | .zero _ => (.num 1, false, 0)
  | .inf false => (.inf false, false, 0)
  | .inf true => (.zero false, false, 0)
  | .num q => (.num (expReal q), true, 0)

/-- R121: FEXP2: exact at the integers. -/
def fexp2V : Val → Fun1
  | .nan => (.nan, false, 0)
  | .zero _ => (.num 1, false, 0)
  | .inf false => (.inf false, false, 0)
  | .inf true => (.zero false, false, 0)
  | .num q => if q.den = 1 && q < 1000 && -1000 < q then (.num (two q.num), false, 0)
      else (.num (exp2Real q), true, 0)

/-- R121: FLOG2: exact at the powers of two. -/
def flog2V : Val → Fun1
  | .nan => (.nan, false, 0)
  | .zero _ => (.inf true, false, fDZ)
  | .inf false => (.inf false, false, 0)
  | .inf true => (.nan, false, fNV)
  | .num q =>
    if q < 0 then (.nan, false, fNV)
    else if two (floorLog2 q) = q then (ofRat (floorLog2 q), false, 0)
    else (.num (log2Real q), true, 0)

/-- R121: FTANH. -/
def ftanhV : Val → Fun1
  | .nan => (.nan, false, 0)
  | .zero n => (.zero n, false, 0)
  | .inf n => (.num (if n then -1 else 1), false, 0)
  | .num q => (.num (if q < 0 then -tanhPos (-q) else tanhPos q), true, 0)

end Sys2Proof.Machine
end

