-- ==== Sys2Proof/Machine/VectorFloat.lean ====
section
/-! DEFINITION. The floating-point vector forms (R119 to R122). -/

namespace Sys2Proof.Machine

/-- The format of a floating type of R119. -/
def fmtOf (t : EType) : FloatFmt := (EType.float? t).getD ffF32

/-- A form that rounds an exact result of n elements once, by the mode in mod[1:0] (R119). -/
def floatForm (w : WordF) (n : Nat) (f : Val → Val → Val → Val × Flagset) (s : State) : Out :=
  let ff := fmtOf w.etype
  mapForm w (([w.srcA, w.srcB, w.srcC]).take n) (fun s g i e =>
    let x := f (decodeF ff (e 0)) (decodeF ff (e 1)) (decodeF ff (e 2))
    let r := roundF ff (xRnd s g (w.mod.toNat % 4) i) false false x.1
    (r.1, x.2 ||| r.2)) s true

/-- A form that picks or changes the sign of its operands: no rounding, no flag; NaN is canonical. -/
def exactForm (w : WordF) (n : Nat) (f : Val → Val → Val) (s : State) : Out :=
  let ff := fmtOf w.etype
  mapForm w (([w.srcA, w.srcB]).take n) (fun _ _ _ e =>
    ((roundF ff .rne false false (f (decodeF ff (e 0)) (decodeF ff (e 1)))).1, 0)) s

/-- A form of one f32 whose exact value may be irrational (R120, R121). -/
def fun1Form (w : WordF) (f : Val → Fun1) (s : State) : Out :=
  mapForm w [w.srcA] (fun s g i e =>
    let x := f (decodeF ffF32 (e 0))
    let r := roundF ffF32 (xRnd s g (w.mod.toNat % 4) i) false x.2.1 x.1
    (r.1, x.2.2 ||| r.2)) s true

/-- FADD (R120). -/
def execFadd (w : WordF) (s : State) : Out := floatForm w 2 (fun a b _ => addV a b) s
/-- FSUB (R120). -/
def execFsub (w : WordF) (s : State) : Out := floatForm w 2 (fun a b _ => addV a b.flip) s
/-- FMUL (R120). -/
def execFmul (w : WordF) (s : State) : Out := floatForm w 2 (fun a b _ => mulV a b) s
/-- FFMA (R120). -/
def execFfma (w : WordF) (s : State) : Out := floatForm w 3 fmaV s
/-- FFNMA (R120). -/
def execFfnma (w : WordF) (s : State) : Out := floatForm w 3 (fun a b c => fmaV a.flip b c) s
/-- FMIN (R120). -/
def execFmin (w : WordF) (s : State) : Out := exactForm w 2 minV s
/-- FMAX (R120). -/
def execFmax (w : WordF) (s : State) : Out := exactForm w 2 maxV s
/-- FABS (R120). -/
def execFabs (w : WordF) (s : State) : Out := exactForm w 1 (fun a _ => a.abs) s
/-- FNEG (R120). -/
def execFneg (w : WordF) (s : State) : Out := exactForm w 1 (fun a _ => a.flip) s
/-- FDIV (R120, R121). -/
def execFdiv (w : WordF) (s : State) : Out := floatForm w 2 (fun a b _ => divV a b) s
/-- FSQRT (R120, R121). -/
def execFsqrt (w : WordF) (s : State) : Out := fun1Form w fsqrtV s
/-- FEXP (R120, R121). -/
def execFexp (w : WordF) (s : State) : Out := fun1Form w fexpV s
/-- FEXP2 (R120, R121). -/
def execFexp2 (w : WordF) (s : State) : Out := fun1Form w fexp2V s
/-- FLOG2 (R120, R121). -/
def execFlog2 (w : WordF) (s : State) : Out := fun1Form w flog2V s
/-- FTANH (R120, R121). -/
def execFtanh (w : WordF) (s : State) : Out := fun1Form w ftanhV s

/-- R122: a value rounded to an integral value, keeping its sign; .dn and .up are modes 2 and 3. -/
def roundIntegral (mode : Nat) (v : Val) : Val :=
  match v with
  | .num q =>
    let k : Int := match mode with
      | 0 => (roundInt .rne q).1
      | 1 => (roundInt .rz q).1
      | 2 => q.floor
      | _ => q.ceil
    if k = 0 then .zero (q < 0) else .num k
  | _ => v

/-- FRND (R122): NX is never set. -/
def execFrnd (w : WordF) (s : State) : Out := exactForm w 1 (fun a _ => roundIntegral (w.mod.toNat % 4) a) s

/-- R122: the class of an encoding, as a bit position. -/
def classOf (f : FloatFmt) (v : Nat) : Nat :=
  let normal := 2 ^ f.fbits ≤ v % f.signBit
  match decodeF f v with
  | .inf true => 0
  | .num q => if q < 0 then (if normal then 1 else 2) else (if normal then 6 else 5)
  | .zero true => 3
  | .zero false => 4
  | .inf false => 7
  | .nan => 8

/-- FCLASS (R122). -/
def execFclass (w : WordF) (s : State) : Out :=
  mapForm w [w.srcA] (fun _ _ _ e => (2 ^ classOf (fmtOf w.etype) (e 0), 0)) s

end Sys2Proof.Machine
end

