-- ==== Sys2Proof/Machine/VectorConvert.lean ====
section
/-! DEFINITION. Conversion and block quantisation (R125 to R128). -/

namespace Sys2Proof.Machine

/-- The bits of a vector from one element to another of a width. -/
def rangeBits (w lo n : Nat) : Vec := BitVec.ofNat 2048 ((2 ^ (w * n) - 1) * 2 ^ (w * lo))

/-- R125: part p of a vector converted: the destination elements written, as first index and results. -/
def convertPart (s : State) (g : Agent) (src : EType) (dst : CvtDst) (mode : Nat) (sat : Bool) (p : Nat) (a : Vec) :
    Nat × List (Nat × Flagset) :=
  let ws := EType.width src
  let wd := CvtDst.width dst
  let n := 2048 / Nat.max ws wd
  let lo := if wd ≤ ws then p * n else 0
  let from_ := if wd ≤ ws then 0 else p * n
  (lo, (List.range n).map (fun i => convert src dst (xRnd s g mode (lo + i)) sat (elemAt a ws (from_ + i))))

/-- The flags of selected elements from an index on (R116). -/
def selFlagsFrom (w : Nat) (m : Word) (lo : Nat) (rs : List (Nat × Flagset)) : Flagset :=
  (List.range rs.length).foldl (fun f i =>
    if selects w m (lo + i) then f ||| ((rs[i]?).map (·.2)).getD 0 else f) 0

/-- R125: write converted elements; the others keep their values in a named register and are zero elsewhere. -/
def putPart (s : State) (g : Agent) (w : WordF) (wd lo : Nat) (rs : List (Nat × Flagset)) : State :=
  let m := laneMask (bankOf s g) w
  let v := BitVec.ofNat 2048 (ofElems wd (rs.map (·.1)) * 2 ^ (wd * lo))
  writeVec (setFp s g (selFlagsFrom wd m lo rs)) g w.dst (selBits wd m &&& rangeBits wd lo rs.length) v

/-- The value of a short literal field. -/
def fieldOf (o : Operand) : Nat :=
  match o with
  | .short v => v.toNat
  | _ => 0

/-- CVT (R125). -/
def execCvt (w : WordF) (s : State) : Out :=
  let srcs := [w.srcA]
  let d := (cvtDst w.srcB).getD .e8m0
  runX w true (fun s g => do
    takeSources s g srcs (dstPush w.dst)
    let r := convertPart s g w.etype d (w.mod.toNat % 4) (w.mod.getLsbD 2) (fieldOf w.srcC) (vecSource s g w.etype srcs 0)
    donePop (putPart s g w (CvtDst.width d) r.1 r.2) srcs) s true

/-- PACK (R126). -/
def execPack (w : WordF) (s : State) : Out :=
  let srcs := [w.srcA, w.srcB]
  let d := (cvtDst w.srcC).getD .e8m0
  let ws := EType.width w.etype
  let n := 2048 / ws
  runX w true (fun s g => do
    takeSources s g srcs (dstPush w.dst)
    let f (k i : Nat) := convert w.etype d (xRnd s g (w.mod.toNat % 4) (k * n + i)) (w.mod.getLsbD 2)
      (elemAt (vecSource s g w.etype srcs k) ws i)
    let rs := (List.range n).map (f 0) ++ (List.range n).map (f 1)
    donePop (putPart s g w (CvtDst.width d) 0 rs) srcs) s true

/-- UNPACK (R126). -/
def execUnpack (w : WordF) (s : State) : Out :=
  let srcs := [w.srcA]
  let d := (cvtDst w.srcB).getD .e8m0
  runX w true (fun s g => do
    takeSources s g srcs (dstPush w.dst)
    let r := convertPart s g w.etype d (w.mod.toNat % 4) (w.mod.getLsbD 2) (if w.mod.getLsbD 3 then 1 else 0)
      (vecSource s g w.etype srcs 0)
    donePop (putPart s g w (CvtDst.width d) r.1 r.2) srcs) s

/-! ### Blocks (R127, R128) -/

/-- R127: emax of an MX format. -/
def mxEmax (t : EType) : Int :=
  match t with
  | .e4m3 => 8
  | .e5m2 => 15
  | .e3m2 => 4
  | _ => 2

/-- The greatest magnitude of values. -/
def maxMag (vs : List Val) : Rat := (vs.map (fun v => v.abs.rat)).foldl max 0

/-- R127: one 32-element block encoded: its scale code and its codes; `rnd` gives the mode of element j of the block. A scale
that is clamped sets no SATF, which R127 does not name (DESIGN CHOICE, assumption 78). -/
def mxEncode (t : EType) (rnd : Nat → Rnd) (vs : List Val) : Nat × List Nat × Flagset :=
  let f := fmtOf t
  if vs.any Val.special then (0xFF, vs.map (fun _ => 0), fNV)
  else if vs.all Val.isZero then (0x7F, vs.map (fun v => if v.neg then f.signBit else 0), 0)
  else
    let e := floorLog2 (maxMag vs) - mxEmax t
    let x := (clampTo 0 254 (e + 127)).1
    let rs := (List.range vs.length).map (fun j =>
      roundF f (rnd j) true false (mulV ((vs[j]?).getD (.zero false)) (.num (two (127 - x)))).1)
    (x.toNat, rs.map (·.1), rs.foldl (fun a r => a ||| r.2) 0)

/-- R128 step 3: the block scale of NQ4: the least σ whose scale reaches the greatest magnitude, else the greatest
candidate, with SATF. -/
def nq4Choose (sup : Val) (top : Rat) : Nat × Flagset :=
  let cands := (List.range 256).filter (fun k => 1 ≤ k && !(nq4Scale k sup).special)
  match cands.find? (fun k => top ≤ (nq4Scale k sup).rat) with
  | some k => (k, 0)
  | none => (cands.getLast?.getD 1, fSATF)

/-- R128 step 4: the magnitude index of q ≥ 0 under a scale e > 0. -/
def nq4Index (e : Rat) (m : Rnd) (q : Rat) : Nat :=
  let lv (i : Nat) : Rat := ((nq4Mags[i]?).getD 0) * e
  let below := ((List.range 8).filter (fun i => lv i ≤ q)).length
  match m with
  | .rz => below - 1
  | .rne =>
    if below = 0 then 0
    else if below = 8 then 7
    else
      let lo := q - lv (below - 1)
      let hi := lv below - q
      if lo < hi then below - 1 else if hi < lo then below
      else if (below - 1) % 2 = 0 then below - 1 else below
  | .sr u =>
    if q ≤ lv 0 then 0
    else if lv 7 ≤ q then 7
    else
      let i := below - 1
      if (u : Rat) * two (-24) < (q - lv i) / (lv (i + 1) - lv i) then i + 1 else i

/-- R128: a block of 64 values encoded under a super-scale: block scale, codes, flags. -/
def nq4Encode (sup : Val) (rnd : Nat → Rnd) (vs : List Val) : Nat × List Nat × Flagset :=
  let bad := match sup with
    | .num q => decide (q < 0)
    | _ => true
  if bad || vs.any Val.special then (0, vs.map (fun _ => 0), fNV)
  else if vs.all Val.isZero then (0, vs.map (fun _ => 0), 0)
  else
    let (k, fl) := nq4Choose sup (maxMag vs)
    let e := (nq4Scale k sup).rat
    let codes := (List.range vs.length).map (fun j =>
      let v := (vs[j]?).getD (.zero false)
      (if v.neg then 8 else 0) + nq4Index e (rnd j) v.abs.rat)
    let nx := (List.zip vs codes).any (fun p => nq4Code p.2 * e != p.1.rat)
    (k, codes, fl ||| flagIf nx fNX)

/-- An encoded vector (R126): codes from element 0, and bytes 254 and 255. -/
def blockVec (w : Nat) (codes : List Nat) (b254 b255 : Nat) : Vec :=
  BitVec.ofNat 2048 (ofElems w codes + b254 * 2 ^ 2032 + b255 * 2 ^ 2040)

/-- QENC (R127, R128). -/
def execQenc (w : WordF) (s : State) : Out :=
  let nq := w.etype == .nq4
  let srcs := if nq then [w.srcA, w.srcB] else [w.srcA]
  runX w true (fun s g => do
    takeSources s g srcs (dstPush w.dst)
    let vs := (elemsOf 32 (vecSource s g .f32 srcs 0)).map (decodeF ffF32)
    let rnd := xRnd s g (w.mod.toNat % 4)
    let r := if nq then
        let e := nq4Encode (decodeF ffF32 ((scal s g w srcs 1).toNat % 2 ^ 32)) rnd vs
        (blockVec 4 e.2.1 e.1 0, e.2.2)
      else
        let a := mxEncode w.etype rnd (vs.take 32)
        let b := mxEncode w.etype (fun j => rnd (32 + j)) (vs.drop 32)
        (blockVec (EType.width w.etype) (a.2.1 ++ b.2.1) a.1 b.1, a.2.2 ||| b.2.2)
    donePop (putVec (setFp s g r.2) g w 32 r.1) srcs) s true

/-- QDEC (R127, R128). -/
def execQdec (w : WordF) (s : State) : Out :=
  let nq := w.etype == .nq4
  let srcs := if nq then [w.srcA, w.srcB] else [w.srcA]
  runX w true (fun s g => do
    takeSources s g srcs (dstPush w.dst)
    let v := vecSource s g w.etype srcs 0
    let b (i : Nat) := elemAt v 8 i
    let e := nq4Scale (b 254) (decodeF ffF32 ((scal s g w srcs 1).toNat % 2 ^ 32))
    let rs := (List.range 64).map (fun j =>
      if nq then rn32 (nq4Val (b 254) e (elemAt v 4 j))
      else
        let x := if j < 32 then b 254 else b 255
        let r := rn32 (mxVal (fmtOf w.etype) x (elemAt v (EType.width w.etype) j))
        (r.1, r.2 ||| flagIf (x = 0xFF) fSCNAN))
    donePop (putElems s g w 32 rs) srcs) s

end Sys2Proof.Machine
end

