-- ==== Sys2Proof/Machine/Stores.lean ====
section
/-! DEFINITION. The stores of S (R139 to R144), STREL (R207) and the maintenance forms (R156). -/

namespace Sys2Proof.Machine

/-- ST (R139). -/
def execSt (w : WordF) (s : State) : Out :=
  let srcs := [w.srcA, w.srcB, w.srcC]
  let n := elemLen w.etype
  runWord w false (fun s g => do
    takeSources s g srcs []
    let s ← wordStore s g (memAddr s g w srcs 0) (toBytes n (scal s g w srcs 2).toNat) n
    donePop s srcs) s

/-- STQ, raw (R140), with .sp to the scratchpad. -/
def execStq (w : WordF) (s : State) : Out :=
  let srcs := [w.srcA, w.srcB, w.srcC]
  let t := w.etype
  runWord w false (fun s g => do
    takeSources s g srcs []
    let a := memAddr s g w srcs 0
    let bs := rawBytes t (whole s g srcs 2)
    if w.mod.getLsbD 2 then
      spadCheck s g.core g.bank a (rawLen t) (rawAlign t) false
      donePop (spadWrite s g.core (some g) (unitLen t) a.toNat bs) srcs
    else
      let (s, ks) ← wordAccess s g true a bs.length (rawAlign t)
      donePop (bufferUnits s g.core g.bank (unitLen t) (keyCells ks bs)) srcs) s

/-! ### STQ.enc (R142) -/

/-- R142: the page formats that STQ.enc takes. -/
def encOk (sat : Bool) (f : Nat) : Bool :=
  f = 1 || f = 2 || f = 3 || (!sat && (isMxCode f || f = 10))

/-- STQ.enc (R142). Of its two stores that of the elements enters the store buffer first (DESIGN CHOICE, assumption 68). -/
def execStqEnc (w : WordF) (s : State) : Out :=
  let srcs := [w.srcA, w.srcB, w.srcC]
  let m : Rnd := if w.mod.getLsbD 1 then .rz else .rne
  let sat := w.mod.getLsbD 2
  runWord w false (fun s g => do
    takeSources s g srcs []
    let a := memAddr s g w srcs 0
    let vs := (elemsOf 32 (whole s g srcs 2)).map (decodeF ffF32)
    let (f, c) ← fmtAccess s (reqOf s g true) a (encOk sat)
    let put (s : State) (codes : List Nat) : State :=
      bufferUnits s g.core g.bank 4 (keyCells (keysOf c.parts) (toBytes (dec64Len f) (ofElems (fmtBits f) codes)))
    if isMxCode f then
      let x0 := mxEncode (mxType f) (fun _ => m) (vs.take 32)
      let x1 := mxEncode (mxType f) (fun _ => m) (vs.drop 32)
      let cs := scaleAddrs c.parts f a.toNat
      let k0 ← companion s g true cs.1 1
      let k1 ← companion s g true cs.2 1
      donePop (bufferUnits (put (wordServed s g [c, k0, k1]) (x0.2.1 ++ x1.2.1)) g.core g.bank 4
        (keyCells (keysOf k0.parts ++ keysOf k1.parts) (toBytes 1 x0.1 ++ toBytes 1 x1.1))) srcs
    else if f = 10 then
      let at_ := companionAt (leafFor c.parts a.toNat) f a.toNat
      let r ← companion s g false at_ 4
      let k ← companion s g true (at_ + 8 + nq4Block a.toNat) 1
      let x := nq4Encode (decodeF ffF32 (ofBytes (r.bytes s g))) (fun _ => m) vs
      donePop (bufferStore (put (wordServed s g [c, r, k]) x.2.1) g.core g.bank (keyCells (keysOf k.parts) (toBytes 1 x.1))) srcs
    else if f = 1 then donePop (put (wordServed s g [c]) (vs.map (fun v => (rn32 v).1))) srcs
    else donePop (put (wordServed s g [c]) (vs.map (fun v => (roundF (codeFloat f) m sat false v).1))) srcs) s

/-! ### Strided and scattered stores (R143, R144) -/

/-- The cells of elements at keys, in order of index: a later element overwrites an earlier one. -/
def elemCells (t : EType) (kss : List (List (Option Nat))) (v : Vec) : List Host.Cell :=
  (List.range kss.length).flatMap (fun i =>
    keyCells ((kss[i]?).getD []) (toBytes (elemLen t) (elemAt v (EType.width t) i)))

/-- STQS (R143). -/
def execStqs (w : WordF) (s : State) : Out :=
  let srcs := [w.srcA, w.srcB, w.srcC]
  let t := w.etype
  runWord w false (fun s g => do
    takeSources s g srcs []
    let vas := strideAddrs t (scal s g w srcs 0) (scal s g w srcs 1)
    let v := whole s g srcs 2
    let (s, kss) ← wordAccesses s g true (elemLen t) vas
    donePop (bufferUnits s g.core g.bank (unitLen t) (elemCells t kss v)) srcs) s

/-- SCATQ (R144). -/
def execScatq (w : WordF) (s : State) : Out :=
  let srcs := [w.srcA, w.srcB, w.srcC]
  let t := w.etype
  runWord w false (fun s g => do
    takeSources s g srcs []
    let vas := indexAddrs t (scal s g w srcs 0) (whole s g srcs 1)
    let v := whole s g srcs 2
    let (s, kss) ← indexedAccess s g true t vas
    donePop (bufferUnits s g.core g.bank (unitLen t) (elemCells t kss v)) srcs) s

/-! ### STREL (R207) -/

/-- The store of a STREL word enters the store buffer. -/
def strelStore (s : State) (g : Agent) (w : WordF) : Res State :=
  let srcs := [w.srcA, w.srcB]
  let n := elemLen w.etype
  wordStore s g (scal s g w srcs 0) (toBytes n (scal s g w srcs 1).toNat) n

/-- STREL (R207): the word waits past step 8 until R195's condition is met; an sc store then waits until it is performed
in its scope. -/
def execStrel (w : WordF) (s : State) : Out :=
  let srcs := [w.srcA, w.srcB]
  runWord w false (fun s g => do
    takeSources s g srcs []
    checkScope s g w
    let s1 ← strelStore s g w
    if !releaseReady s g w.scope (wordMask s g w) then .ok (.pend s .release 0)
    else if w.order = .sc then .ok (.pend s1 .storeSc 0)
    else donePop s1 srcs) s

/-! ### Maintenance (R156) -/

/-- R156: the range of a maintenance form and its checks: an address and a count of whole lines. -/
def lineRange (s : State) (g : Agent) (w : WordF) (srcs : List Operand) : Res (Nat × Nat) := do
  let a := memAddr s g w srcs 0
  let c := (scal s g w srcs 2).toNat
  if c = 0 && a.toNat % 128 = 0 then .ok (0, 0)
  else
    checkRange s a 1
    checkAlign s a 128
    if c % 128 ≠ 0 || 1048576 < c then raise s (flt .align a 128)
    checkRange s a c
    .ok (a.toNat, c)

/-- The whole access of a maintenance form: each check over every page before the next. -/
def lineAccess (s : State) (g : Agent) (wr : Bool) (va len : Nat) : Res (State × List (Option Nat)) := do
  let q := reqOf s g wr
  let pages := spanPages 18 va len
  let need := pages.map (·.1)
  let ps ← forPages (fun (p : Nat × Nat) => checkXlate s q need p.1 p.2) pages
  let ps ← forPages (checkPerm s q) ps
  let _ ← forPages (checkData s q need) ps
  .ok (served s q ps, keysOf ps)

/-- ZERO (R156): the buffer drains up to the word, then every byte of the range is zero in the die view. -/
def execZero (w : WordF) (s : State) : Out :=
  let srcs := [w.srcA, w.srcB, w.srcC]
  runWord w false (fun s g => do
    takeSources s g srcs []
    let (a, c) ← lineRange s g w srcs
    let (s, ks) ← lineAccess s g true a c
    let s := drainAll s g.core g.bank
    donePop (engineStore s g.core g.bank (bankOrigin s g.core g.bank (streamNo g) false) 4 (ks.filterMap (fun k => k.map (fun k => (k, (0 : Byte)))))) srcs) s

/-- R156: is a store to some bytes, of the bank or of any die, still to reach the home? -/
def lineDirty (s : State) (g : Agent) (ks : List (Option Nat)) : Bool :=
  let hit (cs : List Host.Cell) : Bool := cs.any (fun c => ks.contains (some c.1))
  (bufferOf s g).any (fun w => hit w.cells) || s.ms.unplaced.any (fun w => hit w.cells)

/-- R156, R189: CLEAN and INVAL complete once every store to the range has its place at the home. Caches hold no value of their
own in the model (R188), so the two have one effect. -/
def cleanForm (w : WordF) (s : State) : Out :=
  let srcs := [w.srcA, w.srcB, w.srcC]
  runWord w false (fun s g => do
    takeSources s g srcs []
    let (a, c) ← lineRange s g w srcs
    let (t, ks) ← lineAccess s g false a c
    if lineDirty s g ks then stall s .op
    donePop t srcs) s

/-- CLEAN (R156). -/
def execClean (w : WordF) (s : State) : Out := cleanForm w s
/-- INVAL (R156): the lines are then removed from every cache of the module. -/
def execInval (w : WordF) (s : State) : Out := cleanForm w s

end Sys2Proof.Machine
end

