-- ==== Sys2Proof/Machine/PageForms.lean ====
section
/-! DEFINITION. The copy engines and the migrator as words address them (R225 to R228), PIN and UNPIN (R229), TLBINV
(R230), and the pieces of a copy. -/

namespace Sys2Proof.Machine

/-! ### Descriptors and acceptance (R225) -/

/-- R225, R372: a descriptor register is refused. -/
def descFault (w : WordF) (i : Nat) : FaultInfo := flt .align 0 0 (w64 ((regNo w.srcA).val + i))

/-- A check of one descriptor register. -/
def checkReg (s : State) (w : WordF) (i : Nat) (ok : Bool) : Res Unit :=
  if ok then .ok () else raise s (descFault w i)

/-- R225: an accepted operation of a die engine: its number, as the bank sees the counter, goes to the destination and to
what the bank keeps of its last operations (R35, R243). -/
def noteDieOp (s : State) (g : Agent) (w : WordF) (i : Fin 10) (num : Word) : State :=
  let v := num + (bankOf s g).eng.view.get i
  let s := writeScalar s g w.dst v
  modBankOf s g (fun b =>
    let b := { b with eng := { b.eng with lastDie := vset b.eng.lastDie i num } }
    b.modRegs g.stream (fun r => { r with last := vset r.last ⟨9 + i.val, by omega⟩ v }))

/-- R225: does a context have a task on a die? -/
def taskOnDie (s : State) (d : DieId) (x : CtxId) : Bool :=
  (bankTasks s).any (fun t => dieOf t.1 == d && t.2.2.ctx == x)

/-- R225: may a context use a copy context of a die now? -/
def copyOpen (s : State) (d : DieId) (k : CopyCtx) (x : CtxId) : Bool :=
  match k.holder with
  | none => true
  | some y => y == x || (k.ops.isEmpty && !taskOnDie s d y)

/-- R225: a copy operation is accepted, or the word waits at step 8. -/
def acceptCopy (s : State) (g : Agent) (w : WordF) (dst src : Word) (len : Nat)
    (host : Option (BitVec 12 × Nat × Bool)) : Res State :=
  let n : Fin 8 := Fin.ofNat 8 w.mod.toNat
  let d := agentDie g
  let k := (getDie s d).cp.get n
  let t := taskOf s g
  if !copyOpen s d k t.ctx || 16 ≤ k.ops.length then stall s .op
  else
    let s := drainAll s g.core g.bank
    let (s, id) := takeId s
    let num := k.issued + 1
    let o : CopyOp := { id := id, num := num, agent := g, task := t.key, ctx := t.ctx, kinst := t.kinst, node := t.node
                        dst := dst, src := src, len := len, host := host }
    let s := modDie s d (fun e => { e with cp := vset e.cp n { k with
      holder := some t.ctx, issued := num, ops := k.ops ++ [o] } })
    .ok (noteDieOp s g w (Fin.castLE (by omega) n) num)

/-- CPY (R226). -/
def execCpy (w : WordF) (s : State) : Out :=
  runWord w false (fun s g => do
    takeSources s g [] []
    checkDesc s g w.srcA 3
    let d := descReg s g w.srcA
    checkReg s w 0 ((d 0).toNat % 128 == 0)
    checkReg s w 1 ((d 1).toNat % 128 == 0)
    checkReg s w 2 ((d 2).toNat % 128 == 0 && (d 2).toNat ≤ 2 ^ 40)
    let s ← acceptCopy s g w (d 0) (d 1) (d 2).toNat none
    done s) s

/-- R221: a context's handle. -/
def findHandle (s : State) (x : CtxId) (h : BitVec 12) : Option Handle := (getCaux s x).handles.find? (fun k => k.n == h)

/-- CPYH (R227). -/
def execCpyh (w : WordF) (s : State) : Out :=
  runWord w false (fun s g => do
    takeSources s g [] []
    checkDesc s g w.srcA 4
    let d := descReg s g w.srcA
    checkReg s w 0 ((d 0).toNat % 128 == 0)
    checkReg s w 1 ((d 1).toNat < 4096)
    checkReg s w 2 ((d 2).toNat % 128 == 0)
    checkReg s w 3 (bits (d 3) 62 40 == 0 && bits (d 3) 39 0 % 128 == 0)
    let n := BitVec.ofNat 12 (d 1).toNat
    let len := bits (d 3) 39 0
    match findHandle s (taskOf s g).ctx n with
    | none => raise s (flt .prot 0 6)
    | some h => do
      if n = 0 || h.len < (d 2).toNat + len then raise s (flt .prot 0 6)
      let s ← acceptCopy s g w (d 0) 0 len (some (n, (d 2).toNat, bit (d 3) 63))
      done s) s

/-! ### The migrator's forms (R228) -/

/-- R225: an operation of the die's migrator is accepted, or the word waits at step 8. -/
def acceptMig (s : State) (g : Agent) (w : WordF) (zero : Bool) (first : Word) (count : Nat) (status : Word)
    (tier : Nat) (hsh : Bool) (home : Nat) : Res State :=
  let d := agentDie g
  let e := getDie s d
  let t := taskOf s g
  if 16 ≤ e.mgOps.length then stall s .op
  else
    let s := drainAll s g.core g.bank
    let (s, id) := takeId s
    let num := e.mgIssued + 1
    let o : MigOp := { id := id, num := num, agent := g, task := t.key, ctx := t.ctx, kinst := t.kinst, node := t.node, zero := zero
                       first := first.toNat, count := count, status := status, tier := tier, hsh := hsh, home := home }
    let s := modDie s d (fun e => { e with mgIssued := num, mgOps := e.mgOps ++ [o] })
    .ok (noteDieOp s g w 8 num)

/-- R228: the registers that MIGR and PGZERO share. -/
def checkPages (s : State) (w : WordF) (d : Nat → Word) : Res Unit := do
  checkReg s w 0 ((d 0).toNat % 65536 == 0)
  checkReg s w 1 (1 ≤ (d 1).toNat && (d 1).toNat ≤ 65536)

/-- R228: the status array is checked at step 8. -/
def checkStatus (s : State) (g : Agent) (array : Word) (count : Nat) : Res State :=
  if array = 0 then .ok s
  else do
    let (s, _) ← wordAccess s g true array count 1
    .ok s

/-- MIGR (R228). -/
def execMigr (w : WordF) (s : State) : Out :=
  runWord w false (fun s g => do
    takeSources s g [] []
    checkDesc s g w.srcA 4
    let d := descReg s g w.srcA
    checkPages s w d
    checkReg s w 3 (bits (d 3) 63 5 == 0)
    let home := bits (d 3) 3 0
    let hsh := bit (d 3) 4
    let up := w.mod.toNat = 0
    let ok := if up then hsh || (home < 8 && presentNo s home) else !hsh && (home = 8 || home = 9)
    if !ok then raise s (flt .mask 0 (w64 home))
    let s1 ← checkStatus s g (d 2) (d 1).toNat
    let s ← orStall s <| acceptMig s1 g w false (d 0) (d 1).toNat (d 2) (if up then 2 else 3) hsh home
    done s) s

/-- PGZERO (R228). -/
def execPgzero (w : WordF) (s : State) : Out :=
  runWord w false (fun s g => do
    takeSources s g [] []
    checkDesc s g w.srcA 3
    let d := descReg s g w.srcA
    checkPages s w d
    let s1 ← checkStatus s g (d 2) (d 1).toNat
    let s ← orStall s <| acceptMig s1 g w true (d 0) (d 1).toNat (d 2) 0 false 0
    done s) s

/-! ### PIN and UNPIN (R229) -/

/-- PIN or UNPIN of one page, in its leaf as the home holds it: a page moving down is first abandoned (R217). -/
def pinPage (pin : Bool) (x : CtxId) (s : State) (p : Part) : State :=
  match homeLeaf s x p.va with
  | .leaf l =>
    let s := match moveOf s x p.va with
      | some m => if pin && eDIR m.entry && !m.repair then abandonMove s m 5 else s
      | none => s
    writePte s l.at_ (eBit (homePte s.ms l.at_) 5 pin)
  | .none | .malformed _ | .failed _ _ => s

/-- Does PIN wait for a page that is moving up? -/
def pinWaits (s : State) (x : CtxId) (p : Part) : Bool :=
  match moveOf s x p.va with
  | some m => !eDIR m.entry && !m.repair
  | none => false

/-- PIN and UNPIN. -/
def pinForm (w : WordF) (pin : Bool) (s : State) : Out :=
  let srcs := [w.srcA, w.srcB]
  runWord w false (fun s g => do
    takeSources s g srcs []
    let a := scal s g w srcs 0
    let len := (scal s g w srcs 1).toNat
    checkRange s a (if len ≤ 2 ^ 32 then len else 0)
    checkAlign s a 65536
    if len % 65536 ≠ 0 || 2 ^ 32 < len then raise s (flt .align a 65536)
    let q := reqOf s g false
    let pages := spanPages 65536 a.toNat len
    let need := pages.map (·.1)
    let ps ← forPages (fun (p : Nat × Nat) => checkXlate s q need p.1 p.2) pages
    let ps ← forPages (checkPerm s q) ps
    let _ ← forPages (checkData s q need) ps
    if pin && ps.any (pinWaits s q.ctx) then stall s .op
    donePop (foldAll s ps (pinPage pin q.ctx)) srcs) s

/-- PIN (R229). -/
def execPin (w : WordF) (s : State) : Out := pinForm w true s
/-- UNPIN (R229). -/
def execUnpin (w : WordF) (s : State) : Out := pinForm w false s

/-! ### TLBINV (R230) -/

/-- TLBINV (R230): the word completes when every die of the scope has dropped the range, which takes no step of its own. -/
def execTlbinv (w : WordF) (s : State) : Out :=
  let every := w.mod.getLsbD 0
  runWord w false (fun s g => do
    takeSources s g [] []
    let t := taskOf s g
    if !(getCtx s t.ctx).attr.getLsbD 1 then raise s (flt .priv 0 0x147)
    checkDesc s g w.srcA 3
    let d := descReg s g w.srcA
    if !every then checkPages s w d
    checkReg s w 2 (bits (d 2) 63 6 == 0)
    checkScope s g w
    let mask := wordMask s g w
    match lostDie s w.scope mask with
    | some l => raise s (flt .dielost 0 (w64 l.val))
    | none =>
      let x : CtxId := Fin.ofNat 64 (bits (d 2) 5 0)
      let lo := if every then 0 else (d 0).toNat
      let hi := if every then 2 ^ 52 else (d 0).toNat + 65536 * (d 1).toNat
      done (foldAll s (scopeDies s w.scope (agentDie g) mask) (fun s e => invalidateDie s x lo hi e))) s

/-! ### Copy pieces (R226, R227) -/

/-- The state with an operation of a copy context replaced. -/
def setCopy (s : State) (d : DieId) (k : Fin 8) (o : CopyOp) : State :=
  modDie s d (fun e => { e with cp := vmod e.cp k (fun c => { c with
    ops := c.ops.map (fun p => if p.id = o.id then o else p) }) })

/-- R198: is a write of a die's operation still to be performed at some die? -/
def opFlying (s : State) (id : Nat) : Bool := writeInFlight s (fun w => w.origin.op == some id)

/-- R198, R225: the first operation of a copy context is complete and the counter takes its number. -/
def finishCopy (s : State) (d : DieId) (k : Fin 8) : State :=
  modDie s d (fun e => { e with cp := vmod e.cp k (fun c => match c.ops with
    | [] => c
    | o :: rest => { c with count := o.num, ops := rest }) })

/-- Does a bank hold a task? -/
def Bank.holds (k : Bank) (task : Word) : Bool :=
  match k.task with
  | some t => t.key == task
  | none => false

/-- A fault of a die engine's operation reaches the task that issued it, in its bank or in its image (R147, R239); OPNUM
is in the bank's view (R371). -/
def deferTask (s : State) (g : Agent) (x : CtxId) (task : Word) (i : Fin 10) (f : FaultInfo) (src : FaultSrc) : State :=
  let seen (k : Bank) : FaultInfo := { f with opnum := f.opnum + k.eng.view.get i, cycle := dieCycle s (agentDie g) }
  if (bankOf s g).holds task then deferFault s g (seen (bankOf s g)) src
  else modCaux s x (fun a => { a with images := a.images.map (fun m =>
    if m.bank.holds task then { m with bank := m.bank.modSt g.stream (fun y =>
      { y with deferred := y.deferred ++ [{ info := seen m.bank, src := src }] }) } else m) })

/-- R147, R226: a piece fails. -/
def faultCopy (s : State) (d : DieId) (k : Fin 8) (o : CopyOp) (f : FaultInfo) : State :=
  deferTask (setCopy s d k { o with faulted := true }) o.agent o.ctx o.task (Fin.castLE (by omega) k)
    { f with unit := 6, index := k.val, opnum := o.num, pos := w64 o.piece } (.copy o.id)

/-- R226: the length of the next piece, cut at the next 4 KiB boundary of the destination. -/
def pieceLen (o : CopyOp) (dst : Nat) : Nat := Nat.min (4096 - (dst + o.done) % 4096) (o.len - o.done)

/-- A piece is done. -/
def pieceDone (s : State) (d : DieId) (k : Fin 8) (o : CopyOp) (n : Nat) : State :=
  setCopy s d k { o with done := o.done + n, piece := o.piece + 1 }

/-- What a piece's write comes from. -/
def copyOrigin (d : DieId) (k : Fin 8) (o : CopyOp) : Origin :=
  { ctx := some o.ctx, kinst := o.kinst, node := o.node, op := some o.id, eng := true, agent := dieAgentNo d k.val }

/-- The request of a copy engine. -/
def copyReq (d : DieId) (o : CopyOp) (wr : Bool) : Req := 
  { ctx := o.ctx, die := d, core := none, wr := wr, eng := true, kinst := o.kinst }

/-- R226: one piece of a CPY. -/
def cpyPiece (s : State) (d : DieId) (k : Fin 8) (o : CopyOp) : Res State := do
  let n := pieceLen o o.dst.toNat
  let at_ := BitVec.ofNat 64 o.done
  let (s, from_) ← access s (copyReq d o false) (o.src + at_) n 1
  let (s, to_) ← access s (copyReq d o true) (o.dst + at_) n 1
  .ok (pieceDone (dieStore s d (copyOrigin d k o) 4 (keyCells to_ (readKeys s [] d from_))) d k o n)

/-- R221: the 4 KiB host pages that a range of host addresses spans: where in the range each begins, and how many of the
range's bytes it holds. -/
def hostSpans (host len : Nat) : List (Nat × Nat) :=
  let first := Nat.min len (4096 - host % 4096)
  (0, first) :: (if first < len then [(first, len - first)] else [])

/-- R227: one piece of a CPYH, given the host-physical address of the piece's first byte and that of the next host page
where it spans two; an address that is missing is one that PRI could not resolve. -/
def cpyhPiece (s : State) (d : DieId) (k : Fin 8) (o : CopyOp) (n : BitVec 12) (off : Nat) (toHost : Bool)
    (hpa : List (BitVec 44)) : Res State :=
  match findHandle s o.ctx n with
  | none => raise s (flt .prot o.dst 6)
  | some h => do
    let va := o.dst + BitVec.ofNat 64 o.done
    let host := h.base + off
    let len := pieceLen o (if toHost then host else o.dst.toNat)
    let (s, dev) ← access s (copyReq d o (!toHost)) va len 1
    if !(if toHost then h.wr else h.rd) then raise s (flt .prot va 6)
    if s.disp.linkDown then raise s (flt .linkdown va 0x200)
    let spans := hostSpans (host + o.done) len
    match spans[hpa.length]? with
    | some p => raise s (flt .hostpage va (w64 (host + o.done + p.1)) (w64 n.toNat))
    | none =>
      let hk := (List.zip hpa spans).flatMap (fun p => (List.range p.2.2).map (fun i => some (hostKey (p.1.toNat + i))))
      let (from_, to_) := if toHost then (dev, hk) else (hk, dev)
      let s := touch s o.ctx 8
      .ok (pieceDone (dieStore s d (copyOrigin d k o) 4 (keyCells to_ (readKeys s [] d from_))) d k o len)

/-- COPY_PIECE (R147, R198, R226, R227, R326): the next piece of a copy context's first operation, or its end, once its writes
are performed at every die. -/
def execCopyPiece (d : DieId) (k : Fin 8) (hpa : List (BitVec 44)) (s : State) : Out :=
  match ((getDie s d).cp.get k).ops with
  | [] => .fault .notEnabled
  | o :: _ =>
    if o.discarded || o.len ≤ o.done then (if opFlying s o.id then .fault .notEnabled else .next (finishCopy s d k))
    else if o.faulted || !enginesRun s then .fault .notEnabled
    else
      let r := match o.host with
        | none => cpyPiece s d k o
        | some (n, off, toHost) => cpyhPiece s d k o n off toHost hpa
      (match r with
       | .ok s' => .next s'
       | .error (.stall s' _) => if s'.nextId = s.nextId then .fault .notEnabled else .next s'
       | .error (.fault s' f) => .next (faultCopy s' d k o f))

end Sys2Proof.Machine
end

