-- ==== Sys2Proof/Machine/Collective.lean ====
section
/-! DEFINITION. The collective engine (R355 to R363): COLL, DIGEST and the steps of a communicator. -/

namespace Sys2Proof.Machine

/-! ### Acceptance (R360 to R362) -/

/-- R355: a communicator of a context. -/
def findComm (s : State) (x : CtxId) (h : BitVec 8) : Option Comm := (getCaux s x).comms.find? (fun c => c.handle == h)

/-- R355: the issuing die is the one that the communicator names for this rank. -/
def commDie (c : Comm) (d : DieId) : Bool :=
  match c.ranks[c.rank]? with
  | some r => r.2.2 == d.val
  | none => false

/-- The next step of a communicator, which counts it (R356). -/
def takeStep (s : State) (x : CtxId) (h : BitVec 8) : State × Nat :=
  let n := (match findComm s x h with
    | some c => c.steps
    | none => 0) + 1
  (modCaux s x (fun a => { a with comms := a.comms.map (fun c => if c.handle = h then { c with steps := n } else c) }), n)

/-- R362: why a step of a communicator has failed before this rank has issued its operation, if it has. -/
def failedBefore (s : State) (x : CtxId) (h : BitVec 8) (step : Nat) : Option FaultInfo :=
  (findComm s x h).bind (fun c => (c.failed.find? (fun f => f.1 == step)).map (·.2))

/-- R225, R362: an operation is accepted, or the word waits at step 8. -/
def acceptColl (s : State) (g : Agent) (w : WordF) (o : CollOp) (counted : Bool) : Res State :=
  let d := agentDie g
  let e := getDie s d
  let t := taskOf s g
  if 16 ≤ e.coOps.length then stall s .op
  else
    let s := drainAll s g.core g.bank
    let (s, id) := takeId s
    let (s, step) := if counted then takeStep s t.ctx o.handle else (s, 0)
    let num := e.coIssued + 1
    let o := { o with id := id, num := num, agent := g, task := t.key, ctx := t.ctx
                      kinst := t.kinst, node := t.node, step := step, lost := if counted then failedBefore s t.ctx o.handle step else none }
    let s := modDie s d (fun e => { e with coIssued := num, coOps := e.coOps ++ [o] })
    .ok (noteDieOp s g w 9 num)

/-- R360: the bytes of a block of n elements, of S and of D, by operation. -/
def collSizes (op p n w : Nat) : Nat × Nat :=
  let b := n * (w / 8)
  if op = 0 then (b, b) else if op = 1 then (b, p * b) else (p * b, b)

/-- R360: S and D are disjoint, or equal in an all-reduce. -/
def buffersOk (op : Nat) (s d : Word) (sizes : Nat × Nat) : Bool :=
  s.toNat + sizes.1 ≤ d.toNat || d.toNat + sizes.2 ≤ s.toNat || (s == d && op == 0)

/-- An operation before its acceptance gives it its number and its issuer. -/
def newColl (g : Agent) (op : Nat) (t : EType) (s d : Word) (n red : Nat) (handle : BitVec 8) : CollOp :=
  { id := 0, num := 0, agent := g, task := 0, ctx := 0, kinst := 0, op := op, etype := t, s := s, d := d, n := n, red := red
    handle := handle, step := 0 }

/-- R360, R372: ILLOP found at step 8, with the word's bits. -/
def wordIllop (i : Instr) : FaultInfo :=
  let raw := ofBytes (encodeBytes i)
  flt .illop 0 (w64 (raw / 2 ^ 64 % 2 ^ 64)) (w64 (raw % 2 ^ 64))

/-- COLL (R360). The other types of .max and .min, and of .allgather, are found when the word is decoded. -/
def execColl (w : WordF) (s : State) : Out :=
  runWord w false (fun s g => do
    takeSources s g [] []
    checkDesc s g w.srcA 4
    let r := descReg s g w.srcA
    let op := w.mod.toNat % 8
    let n := bits (r 2) 31 0
    checkReg s w 0 ((r 0).toNat % 256 == 0)
    checkReg s w 1 ((r 1).toNat % 256 == 0)
    checkReg s w 2 (1 ≤ n && n < 2 ^ 31 && bits (r 2) 33 32 != 3 && bits (r 2) 63 34 == 0)
    if op = 1 && bits (r 2) 33 32 ≠ 0 then raise s (wordIllop (.coll w))
    let h : BitVec 8 := (r 3).setWidth 8
    match findComm s (taskOf s g).ctx h with
    | none => raise s (descFault w 3)
    | some c =>
      checkReg s w 3 (bits (r 3) 63 8 == 0)
      checkReg s w 1 (buffersOk op (r 0) (r 1) (collSizes op c.p n (EType.width w.etype)))
      if !commDie c (agentDie g) then raise s (flt .mask 0 (w64 (agentDie g).val))
      let s ← acceptColl s g w (newColl g op w.etype (r 0) (r 1) n (bits (r 2) 33 32) h) true
      done s) s

/-- DIGEST (R361). -/
def execDigest (w : WordF) (s : State) : Out :=
  let x := w.mod.getLsbD 0
  runWord w false (fun s g => do
    takeSources s g [] []
    checkDesc s g w.srcA 4
    let r := descReg s g w.srcA
    checkReg s w 1 ((r 1).toNat ≤ 2 ^ 40)
    checkReg s w 2 ((r 2).toNat % 8 == 0)
    let h : BitVec 8 := (r 3).setWidth 8
    if x then
      match findComm s (taskOf s g).ctx h with
      | none => raise s (descFault w 3)
      | some c =>
        checkReg s w 3 (bits (r 3) 63 8 == 0)
        if !commDie c (agentDie g) then raise s (flt .mask 0 (w64 (agentDie g).val))
        let s ← acceptColl s g w (newColl g 3 w.etype (r 0) (r 2) (r 1).toNat 0 h) true
        done s
    else do
      checkReg s w 3 ((r 3) == 0)
      let s ← acceptColl s g w (newColl g 4 w.etype (r 0) (r 2) (r 1).toNat 0 0) false
      done s) s

/-! ### Reductions (R357, R360) -/

/-- Element by element, one contribution after another. -/
def redBytes (red : Nat) (t : EType) (a b : List Byte) : List Byte :=
  let w := EType.width t
  let k := w / 8
  (List.range (a.length / k)).flatMap (fun i =>
    toBytes k (redElem red t (ofBytes ((a.drop (k * i)).take k)) (ofBytes ((b.drop (k * i)).take k))))

/-- The fold of a list from its first element on. -/
def foldFirst (red : Nat) (t : EType) : List (List Byte) → List Byte
  | [] => []
  | a :: as => as.foldl (redBytes red t) a

/-- R357: ranks in order within each group, then the groups in order. -/
def reduceRanks (red : Nat) (t : EType) (groups : List Nat) (xs : List (List Byte)) : List Byte :=
  let ends := groups.drop 1 ++ [xs.length]
  foldFirst red t ((List.zip groups ends).map (fun g => foldFirst red t ((xs.take g.2).drop g.1)))

/-! ### Pieces (R226, R360) -/

/-- A range cut at 4 KiB boundaries; an empty range has no piece. -/
def rangePieces (va len : Nat) : List (Nat × Nat) :=
  if len = 0 then []
  else (List.range ((va % 4096 + len + 4095) / 4096)).map (fun i =>
    let lo := Nat.max va (va / 4096 * 4096 + 4096 * i)
    let hi := Nat.min (va + len) (va / 4096 * 4096 + 4096 * (i + 1))
    (lo, hi - lo))

/-- The request of a die's collective engine. -/
def collReq (d : DieId) (o : CollOp) (wr : Bool) : Req := 
  { ctx := o.ctx, die := d, core := none, wr := wr, kinst := o.kinst }

/-- What the stores of a collective operation come from. -/
def collOrigin (d : DieId) (o : CollOp) : Origin :=
  { ctx := some o.ctx, kinst := o.kinst, node := o.node, op := some o.id, eng := true, agent := dieAgentNo d 9 }

/-- Read pieces in order; a fault names its piece. -/
def readPieces (s : State) (q : Req) : (i : Nat) → List (Nat × Nat) → Res (State × List Byte)
  | _, [] => .ok (s, [])
  | i, p :: ps => do
    let (s, ks) ← atPos i (access s q (w64 p.1) p.2 1)
    let (s', bs) ← readPieces s q (i + 1) ps
    .ok (s', readKeys s [] q.die ks ++ bs)

/-- Write the pieces of an operation's result from the next on: the state, the operation's progress, and the stop. -/
def writePieces (s : State) (d : DieId) (o : CollOp) (bs : List Byte) : List (Nat × Nat) → State × CollOp × Option Stop
  | [] => (s, o, none)
  | p :: ps =>
    match access s (collReq d o true) (w64 p.1) p.2 1 with
    | .error x => (s, o, some x)
    | .ok (s, ks) =>
      let s := dieStore s d (collOrigin d o) 4 (keyCells ks (bs.take p.2))
      writePieces s d { o with piece := o.piece + 1 } (bs.drop p.2) ps

/-! ### Steps (R356 to R359, R362) -/

/-- The state with an operation of the engine replaced. -/
def setColl (s : State) (d : DieId) (o : CollOp) : State :=
  modDie s d (fun e => { e with coOps := e.coOps.map (fun p => if p.id = o.id then o else p) })

/-- Operations that are done leave from the oldest on, and the counter takes their numbers. -/
def retireColl (co : Word) : List CollOp → Word × List CollOp
  | [] => (co, [])
  | o :: os => if o.finished then retireColl o.num os else (co, o :: os)

/-- R362: an operation is done; tl.co takes its number once every lower one is. -/
def finishColl (s : State) (d : DieId) (o : CollOp) : State :=
  let s := setColl s d { o with finished := true }
  closeIfDone (modDie s d (fun e => let r := retireColl e.co e.coOps; { e with co := r.1, coOps := r.2 })) o.kinst o.node

/-- R147, R362: an operation's fault goes to its issuer. -/
def faultColl (s : State) (d : DieId) (o : CollOp) (f : FaultInfo) : State :=
  deferTask (setColl s d { o with faulted := true }) o.agent o.ctx o.task 9
    { f with unit := 7, opnum := o.num } (.coll o.id)

/-- R356: what this rank gives of its operation; a digest has no count of elements. -/
def opWord (o : CollOp) : Nat × Nat × Nat × Nat :=
  if o.op = 3 then (3, 0, 0, 0) else (o.op, EType.code o.etype, o.n, o.red)

/-- The four fields, in their order. -/
def opFields (a : Nat × Nat × Nat × Nat) : List Nat := [a.1, a.2.1, a.2.2.1, a.2.2.2]

/-- R356: the first field, in its order, in which the ranks of a step differ. -/
def differs (ops : List (Nat × Nat × Nat × Nat)) : Option Nat :=
  (List.range 4).find? (fun i => (ops.map (fun a => (opFields a)[i]?)).dedup.length > 1)

/-- R358, R367: a port's counter rises, to its maximum at most. -/
def countPort (s : State) (i : Fin 5) (p : Fin 12) : State :=
  { s with fabs := vmod s.fabs p (fun l => { l with counters := vmod l.counters i (fun c => if c = BitVec.allOnes 32 then c else c + 1) }) }

/-- R359, R361: a digest mismatch writes a DIGEST event. -/
def digestEvent (s : State) (d : DieId) (o : CollOp) (ports : List (Fin 12)) : State :=
  logEvent (foldAll s ports (fun s p => countPort s 4 p)) o.ctx 0x0A d.val 0xFFFF o.step o.kinst 0

/-- The contributions of every rank, this rank's own in its place. -/
def withOwn {α : Type} (xs : List α) (r : Nat) (x : α) : List α := xs.take r ++ x :: xs.drop (r + 1)

/-- What an operation reads. -/
def collIn (c : Comm) (o : CollOp) : Nat :=
  if 3 ≤ o.op then o.n else (collSizes o.op c.p o.n (EType.width o.etype)).1

/-- R357, R360, R361: what an operation writes, from every rank's contribution or digest. -/
def collOut (c : Comm) (o : CollOp) (own : List Byte) (bytes : List (List Byte)) (digests : List Word) : List Byte :=
  let xs := withOwn bytes c.rank own
  let w := EType.width o.etype
  match o.op with
  | 0 => reduceRanks o.red o.etype c.groups xs
  | 1 => xs.flatten
  | 2 =>
    let b := o.n * (w / 8)
    reduceRanks o.red o.etype c.groups (xs.map (fun x => (x.drop (b * c.rank)).take b))
  | 3 => (withOwn digests c.rank (crc64 own)).flatMap (fun v => toBytes 8 v.toNat)
  | _ => toBytes 8 (crc64 own).toNat

/-- R359: under DET the step's digests agree: those of the bytes every rank wrote, or of this rank's block. -/
def digestsAgree (c : Comm) (o : CollOp) (digests : List Word) (out : List Byte) : Bool :=
  let v := crc64 out
  if o.op = 2 then digests[c.rank]? == some v else (withOwn digests c.rank v).all (· == v)

/-- A communicator of one rank, for a DIGEST without one. -/
def noComm : Comm := { handle := 0, p := 1, rank := 0, ranks := [], groups := [0] }

/-- A wait of an engine has taken place only if it has begun something (R216, R217). -/
def waited (s s' : State) : Out := if s'.nextId = s.nextId then .fault .notEnabled else .next s'

/-- R361: are the digests in a DIGEST.x result all equal? -/
def sameDigests (bs : List Byte) : Bool := (List.range (bs.length / 8)).all (fun i => (bs.drop (8 * i)).take 8 == bs.take 8)

/-- A step that has failed as a whole begins again from this rank's own data if its word is retried (R359). -/
def CollOp.anew (o : CollOp) : CollOp := { o with lost := none, own := none, result := none, piece := 0 }

/-- R359, R361: every piece of a result is written and performed: the digests are compared, and the operation ends. -/
def closeColl (s : State) (d : DieId) (o : CollOp) (c : Comm) (bs : List Byte) (digests : List Word)
    (mismatches : List (Fin 12)) : State :=
  if o.op = 3 then finishColl (if sameDigests bs then s else digestEvent s d o mismatches) d o
  else if o.op < 3 && (getCtx s o.ctx).attr.getLsbD 0 && !digestsAgree c o digests bs then
    faultColl (digestEvent s d o mismatches) d o.anew (flt .digest 0 (w64 o.step))
  else finishColl s d o

/-- A result's remaining pieces are written; `s0` is the state in which the step began. -/
def putColl (s0 s : State) (d : DieId) (o : CollOp) (bs : List Byte) : Out :=
  let ps := rangePieces o.d.toNat bs.length
  let skip := ((ps.take o.piece).map (·.2)).sum
  match writePieces s d o (bs.drop skip) (ps.drop o.piece) with
  | (_, o, some (.fault s f)) => .next (faultColl s d o { f with pos := w64 o.piece })
  | (_, o, some (.stall s _)) => waited s0 (setColl s d o)
  | (s, o, none) => .next (setColl s d o)

/-! ### Contributions between ranks (R354, R358, R362) -/

/-- R352, R353: the bridge die by which fabric packets leave the module: one with a port that carries traffic. -/
def portDie (s : State) : Option DieId :=
  if (List.range 6).any (fun p => (s.fabs.get (Fin.ofNat 12 p)).st.carries) then some 8
  else if (List.range 6).any (fun p => (s.fabs.get (Fin.ofNat 12 (6 + p))).st.carries) then some 9
  else none

/-- The ranks of a communicator with their numbers, but for its own. -/
def Comm.others (c : Comm) : List (Nat × (BitVec 16 × CtxId × Nat)) :=
  ((List.range c.ranks.length).zip c.ranks).filter (fun q => q.1 != c.rank)

/-- R354: where the packets of die d for a rank leave the mesh: its own die, if it is of this module, else a bridge die with
a port; or why it cannot be reached (R352, R362, R372). -/
def rankDie (s : State) (d : DieId) (r : BitVec 16 × CtxId × Nat) : Except Word DieId :=
  let to_ := if r.1 = s.boot.node then dieNo r.2.2 else portDie s
  match to_ with
  | none => .error (if r.1 = s.boot.node then w64 (8 * r.2.2) else 0x100)
  | some e => if dieGone s e then .error (w64 (8 * e.val))
      else if e ≠ d && !routeUp s d.val e.val then .error (w64 (downDetail s d.val e.val))
      else .ok e

/-- R358, R362: a step of a communicator can have no end any more at a rank of this module: its operation of the step fails, or
the one that it has still to issue. -/
def failAt (s : State) (x : CtxId) (h : BitVec 8) (step : Nat) (f : FaultInfo) : State :=
  match findComm s x h with
  | none => s
  | some c =>
    if c.steps < step then modCaux s x (fun a => { a with comms := a.comms.map (fun c =>
      if c.handle = h then { c with failed := c.failed ++ [(step, f)] } else c) })
    else { s with dies := s.dies.map (fun d => { d with coOps := d.coOps.map (fun o =>
      if o.ctx = x && o.handle = h && o.step = step && o.op != 4 && !o.finished then { o with lost := some (o.lost.getD f) } else o) }) }

/-- The communicators of this module that have some ranks: those of one communicator of the fabric. -/
def commsOf (s : State) (ranks : List (BitVec 16 × CtxId × Nat)) : List (CtxId × BitVec 8) :=
  allCtxs.flatMap (fun x => ((getCaux s x).comms.filter (fun c => c.ranks == ranks)).map (fun c => (x, c.handle)))

/-- R358, R362: a step fails at every rank of this module. -/
def failStep (s : State) (ranks : List (BitVec 16 × CtxId × Nat)) (step : Nat) (f : FaultInfo) : State :=
  foldAll s (commsOf s ranks) (fun s k => failAt s k.1 k.2 step f)

/-- R354, R362: a packet of a collective engine for a rank. -/
def collPacket (s : State) (d e : DieId) (o : CollOp) (r : BitVec 16 × CtxId × Nat) (k : PacketKind) : Payload :=
  { src := d, dst := e, kind := k, ctx := some o.ctx, agent := dieAgentNo d 9
    node := if r.1 = s.boot.node then none else some (s.boot.node, r.1) }

/-- R354, R358: this rank's contribution leaves for another rank; one that cannot leave fails the step at every rank. -/
def giveRank (d : DieId) (o : CollOp) (c : Comm) (s : State) (q : Nat × (BitVec 16 × CtxId × Nat)) : State :=
  match rankDie s d q.2 with
  | .error detail => failStep s c.ranks o.step (flt .linkdown 0 detail)
  | .ok e =>
    if e = d && q.2.1 = s.boot.node then s
    else
      let (s, id) := takeId s
      let s := modMs s (fun m => { m with contribs := m.contribs ++ [{ id := id, ranks := c.ranks, step := o.step, rank := q.1 }] })
      post s (collPacket s d e o q.2 (.contribution id))

/-- R362: a rank whose operation is discarded by cancellation or shed sends an abort of its step. -/
def abortStep (s : State) (d : DieId) (o : CollOp) : State :=
  match findComm s o.ctx o.handle with
  | none => s
  | some c =>
    if !o.aborts || o.op = 4 then s
    else foldAll s c.others (fun s q =>
      let h := (((getCaux s q.2.2.1).comms.find? (fun k => k.ranks == c.ranks && k.rank == q.1)).map (·.handle)).getD o.handle
      match rankDie s d q.2 with
      | .error _ => s
      | .ok e => if e = d && q.2.1 = s.boot.node then failAt s q.2.2.1 h o.step (flt .cancelled 0 (w64 o.step))
          else post s (collPacket s d e o q.2 (.abort q.2.2.1 h o.step)))

/-- Is a rank's contribution to a step here: of a rank of this module, has it issued and read what it gives, the operation and
the bytes that the step takes from it, and is it on its way no more (R349)? -/
def rankGave (s : State) (c : Comm) (o : CollOp) (ops : List (Nat × Nat × Nat × Nat)) (bytes : List (List Byte))
    (q : Nat × (BitVec 16 × CtxId × Nat)) : Bool :=
  q.2.1 != s.boot.node ||
    ((getCaux s q.2.2.1).comms.any (fun k => k.ranks == c.ranks && k.rank == q.1 && o.step ≤ k.steps)
      && allDies.all (fun e => e.val != q.2.2.2 || (getDie s e).coOps.all (fun p =>
          p.ctx != q.2.2.1 || p.step != o.step || p.op == 4 || p.finished
            || (findComm s p.ctx p.handle).all (fun k => k.ranks != c.ranks || k.rank != q.1)
            || (p.own.isSome && ops[q.1]? == some (opWord p) && (2 < p.op || opWord p != opWord o || bytes[q.1]? == p.own)))))

/-- Have the contributions of every rank arrived, as far as this module knows them? -/
def allGave (s : State) (c : Comm) (o : CollOp) (ops : List (Nat × Nat × Nat × Nat)) (bytes : List (List Byte)) : Bool :=
  c.others.all (rankGave s c o ops bytes)
    && s.ms.contribs.all (fun k => k.ranks != c.ranks || k.step != o.step || k.rank != c.rank)

/-! ### COLLECTIVE_STEP -/

/-- R356 to R361: this rank reads what it gives, and sends it to the other ranks. -/
def giveStep (s : State) (d : DieId) (o : CollOp) (c : Comm) : Out :=
  match readPieces s (collReq d o false) 0 (rangePieces o.s.toNat (collIn c o)) with
  | .error (.fault s f) => .next (faultColl s d o f)
  | .error (.stall s' _) => waited s s'
  | .ok (s, own) => .next (foldAll (setColl s d { o with own := some own }) (if o.op = 4 then [] else c.others) (giveRank d o c))

/-- Are the data those of the step's ranks? -/
def dataFits (c : Comm) (o : CollOp) (ops : List (Nat × Nat × Nat × Nat)) (bytes : List (List Byte)) (digests : List Word) :
    Bool :=
  ops.length == c.p && digests.length == c.p
    && (2 < o.op || (bytes.length == c.p && bytes.all (fun b => b.length == collIn c o)))

/-- R356 to R361: with every rank's data: what this rank computes, and the first writes of it. -/
def dataStep (s : State) (d : DieId) (o : CollOp) (c : Comm) (own : List Byte) (ops : List (Nat × Nat × Nat × Nat))
    (bytes : List (List Byte)) (digests : List Word) (fallbacks : List (Fin 12)) : Out :=
  match differs (withOwn ops c.rank (opWord o)) with
  | some i => .next (faultColl s d o.anew { flt .barrier 0 (w64 o.step) with aux := Config.differingField i })
  | none =>
    let out := collOut c o own bytes digests
    putColl s (foldAll s fallbacks (fun s p => countPort s 3 p)) d { o with result := some out } out

/-- R352, R358, R362: why an operation's step can have no end: an abort, the loss of a contribution, or of a rank. -/
def stepLost (s : State) (o : CollOp) (c : Comm) (peers : PeerData) : Option FaultInfo :=
  if o.op = 4 then none
  else match o.lost, peers with
    | some f, _ => some f
    | none, .aborted => some (flt .cancelled 0 (w64 o.step))
    | none, .lost detail => some (flt .linkdown 0 detail)
    | none, .data _ _ _ _ _ =>
      if o.result.isSome then none
      else (c.others.find? (fun q => q.2.1 == s.boot.node && (dieNo q.2.2.2).any (dieGone s))).map (fun q =>
        flt .linkdown 0 (w64 (8 * q.2.2.2)))

/-- The step goes on: this rank gives its own, takes what every rank gives, writes the result, and ends once the writes are
performed at every die (R198). -/
def runColl (s : State) (d : DieId) (o : CollOp) (c : Comm) (ops : List (Nat × Nat × Nat × Nat)) (bytes : List (List Byte))
    (digests : List Word) (fallbacks mismatches : List (Fin 12)) : Out :=
  match o.own, o.result with
  | none, _ => giveStep s d o c
  | some own, none =>
    if o.op = 4 then dataStep s d o c own [opWord o] [] [0] []
    else if !dataFits c o ops bytes digests || !allGave s c o ops bytes then .fault .notEnabled
    else dataStep s d o c own ops bytes digests fallbacks
  | some _, some bs =>
    if o.piece < (rangePieces o.d.toNat bs.length).length then putColl s s d o bs
    else if opFlying s o.id || (o.op < 3 && (getCtx s o.ctx).attr.getLsbD 0 && digests.length != c.p) then .fault .notEnabled
    else .next (closeColl s d o c bs digests mismatches)

/-- COLLECTIVE_STEP (R326, R352, R356 to R362): the first operation of a communicator on a die. -/
def execCollectiveStep (d : DieId) (k : CommKey) (peers : PeerData) (s : State) : Out :=
  match (getDie s d).coOps.find? (fun o => o.ctx == k.ctx && o.handle == k.handle && !o.finished) with
  | none => .fault .notEnabled
  | some o =>
    if o.discarded then (if opFlying s o.id then .fault .notEnabled else .next (finishColl (abortStep s d o) d o))
    else if o.faulted || !enginesRun s then .fault .notEnabled
    else match (if o.op = 4 then some noComm else findComm s k.ctx k.handle) with
      | none => .next (faultColl s d o.anew (flt .cancelled 0 (w64 o.step)))
      | some c => match stepLost s o c peers, peers with
        | some f, _ => .next (faultColl s d o.anew f)
        | none, .data ops bytes digests fallbacks mismatches => runColl s d o c ops bytes digests fallbacks mismatches
        | none, _ => .fault .notEnabled

end Sys2Proof.Machine
end

