-- ==== Sys2Proof/Machine/Schedule.lean ====
section
/-! DEFINITION. How a core takes its next task (R246, R278), the swap to the shadow bank and back (R96, R98, R99), tile
queues (R248, R271), continuations (R254), group barriers at the dispatcher (R297), store buffers (R189) and the
application of writes (R190, R191). -/

namespace Sys2Proof.Machine

/-! ### Entries of the work queues (R245, R246) -/

/-- An entry that a core may take: its task, what starts, its place in arrival order, whether it is a continuation, and
whether it has risen to P2. -/
structure QEntry where
  task : Task
  what : Enters
  order : Nat
  cont : Bool
  raised : Bool
  deriving DecidableEq, Repr

/-- An entry of the engine or tile queue. -/
def QTask.entry (q : QTask) : QEntry := { task := q.task, what := .start q, order := q.order, cont := false, raised := q.raised }

/-- An entry of the continuation-ready queue. -/
def readyCand (s : State) (r : Ready) : Option QEntry :=
  (readyTask s r).map (fun t => { task := t, order := r.order, cont := true, raised := r.raised
                                  what := match r.what with
                                    | .start q => .start q
                                    | .slot x n => .slot x n })

/-- R246: the four sources of a core, in order, each entry with the number of its arrival. -/
def coreSources (s : State) (c : CoreId) : List (List QEntry) :=
  let w := (getCore s c).work
  [(w.ready.filter (·.pinned)).filterMap (readyCand s), w.engine.map QTask.entry,
   (w.ready.filter (fun r => !r.pinned)).filterMap (readyCand s), w.tile.map (fun q => { q.entry with order := q.arrived })]

/-- R233: does the dispatcher dispatch for a context? -/
def dispatches (s : State) (x : CtxId) : Bool := (getCtx s x).st == .running || (getCtx s x).st == .parked

/-- R247, R274: does a freeze of its node instance hold a task back? It holds back no handler. -/
def heldByFreeze (s : State) (t : Task) : Bool :=
  match t.kind with
  | .handler _ => false
  | .member | .spawned | .renq | .cont => (getInst s t.kinst t.node).any (fun i => i.st == .frozen)

/-- R246, R247, R274, R278, R313: is an entry eligible on a core? -/
def candOk (s : State) (c : CoreId) (k : QEntry) : Bool :=
  let t := k.task
  dispatches s t.ctx && !heldByFreeze s t && classAllowed s t.eclass && replayAllows s c t k.cont

/-- The priority by which an entry is taken: a risen P3 entry counts as P2. -/
def QEntry.prio (k : QEntry) : Nat := if k.raised then 2 else k.task.prio.val

/-- Of eligible entries of one source, the one of highest priority that arrived first. -/
def firstCand (s : State) (ks : List QEntry) : Option QEntry := argMin (fun k => k.prio * (s.disp.order + 1) + k.order) ks

/-- R246: the entry that the active bank takes, P1 to P3, or the shadow bank, P0. -/
def nextCand (s : State) (c : CoreId) (urgent : Bool) : Option QEntry :=
  (coreSources s c).findSome? (fun ks =>
    firstCand s (ks.filter (fun k => (k.task.prio.val == 0) == urgent && candOk s c k)))

/-- An entry leaves the queues of a core. -/
def takeCand (s : State) (c : CoreId) (order : Nat) : State :=
  modCore s c (fun k => { k with work := {
    tile := k.work.tile.filter (fun q => q.arrived != order)
    engine := k.work.engine.filter (fun q => q.order != order)
    ready := k.work.ready.filter (fun r => r.order != order) } })

/-- R246: a decision passes over the eligible P3 entries that it leaves; the 64th makes one P2. -/
def passP3 (s : State) (c : CoreId) : State :=
  let over_ := ((coreSources s c).flatten.filter (fun k => k.task.prio.val == 3 && !k.raised && candOk s c k)).map (·.order)
  let q (order : Nat) (x : QTask) : QTask :=
    if over_.contains order then { x with passed := x.passed + 1, raised := x.raised || 64 ≤ x.passed + 1 } else x
  let r (x : Ready) : Ready :=
    if over_.contains x.order then { x with passed := x.passed + 1, raised := x.raised || 64 ≤ x.passed + 1 } else x
  if over_.isEmpty then s
  else modCore s c (fun k => { k with work := {
    tile := k.work.tile.map (fun x => q x.arrived x), engine := k.work.engine.map (fun x => q x.order x), ready := k.work.ready.map r } })

/-- What an entry starts in a bank. -/
def enterBank (s : State) (c : CoreId) (b : BankId) (e : Enters) : State :=
  match e with
  | .start q => startTask s c b q
  | .slot x n => (match (getCaux s x).conts.find? (fun k => k.slot == n) with
      | some k => startCont s c b x k
      | none => s)
  | .image _ _ => s

/-- Does a core take tasks: its die UP, the core not fenced (R22, R378)? -/
def coreServes (s : State) (c : CoreId) : Bool := (getDie s (dieOf c)).st == .up && !(s.ctl.get c).fenced

/-- The cores that an instance reserves, if it does (R289). -/
def reserved (i : NodeInst) : Option (List CoreId) :=
  match i.gang with
  | .reserving _ cs => some cs
  | .none | .pending _ | .placed => none

/-- R289: does a gang group that still reserves its core hold a bank? -/
def heldNow (s : State) (c : CoreId) (b : BankId) : Bool :=
  match (getAux s c b).hold with
  | none => false
  | some (k, n) => match (getInst s k n).bind reserved with
    | some cs => cs.contains c
    | none => false

/-- R289: the bank that a node's priority uses. -/
def prioBank (node : Node) : BankId := if node.prio.val = 0 then .shadow else .active

/-- R289: does a gang group that reserves list a bank of a core? When it is FREE it takes no other task. -/
def listedNow (s : State) (c : CoreId) (b : BankId) : Bool :=
  s.disp.kerns.any (fun k => (List.zip k.graph.nodes k.insts).any (fun p =>
    ((reserved p.2).getD []).contains c && prioBank p.1 == b))

/-- TASK_DISPATCH (R246). -/
def execTaskDispatch (c : CoreId) (s : State) : Out :=
  if !coreServes s c || (getBank s c .active).task.isSome || (getCore s c).swap ≠ .none || listedNow s c .active
  then .fault .notEnabled
  else match nextCand s c false with
    | none => .fault .notEnabled
    | some k => .next (enterBank (passP3 (takeCand s c k.order) c) c .active k.what)

/-! ### The swap (R96, R98, R99, R293) -/

/-- R96: a stream of the active bank at a swap: a word that has not begun is evaluated again from step 3. -/
def suspendStream (x : StreamSt) : StreamSt :=
  match x.run with
  | .free => x
  | .stalled .op => { x with suspended := true }
  | .running | .stalled _ | .halted | .stopped => { x with suspended := true, passed := 2 }

/-- R95, R99: the state held before, with the slip count of the words that completed meanwhile. -/
def unsuspend (x : StreamSt) : StreamSt := { x with suspended := false, slip := slipCount x, slipDue := none }

/-- R99: the state held before; a WAITADDR reads its location again. -/
def releaseStream (x : StreamSt) : StreamSt := { unsuspend x with watching := none }

/-- The three streams of a bank changed. -/
def Bank.onStreams (k : Bank) (f : StreamSt → StreamSt) : Bank := { k with l := f k.l, x := f k.x, s := f k.s }

/-- R159: the contributions that a swap discards: held for nb28 to nb31, or for bytes of the reserved scratchpad. -/
def lostHeld (n : Nat) (x : Contribution) : Bool := 28 ≤ n || 0x380000 < x.off + 256

/-- R159: the barriers that lose contributions at a swap. -/
def losingNbs (s : State) (c : CoreId) : List (Fin 32) :=
  ((List.range 32).map (Fin.ofNat 32)).filter (fun n => ((getCore s c).nb.get n).held.any (lostHeld n.val))

/-- R98, R159, R293: the reserved resources are cleared at a swap; L of the active bank's task takes a deferred BARRIER
for each barrier that lost contributions. -/
def swapReserved (s : State) (c : CoreId) : State :=
  let lost := losingNbs s c
  let s := if (getBank s c .active).task.isNone then s
    else foldAll s lost (fun s n => deferFault s { core := c, bank := .active, stream := .l } (nbFault n) .held)
  let s := modCore s c (fun k => { k with
    nb := Vector.ofFn (fun (i : Fin 32) =>
      let b := k.nb.get i
      { b with held := b.held.filter (fun x => !lostHeld i.val x) }) })
  zeroReserved s c

/-- R96: a core swaps to its shadow bank. -/
def beginSwap (s : State) (c : CoreId) (e : Enters) : State :=
  let s := modBank s c .active (fun k => k.onStreams suspendStream)
  let s := modCore s c (fun k => { k with urgen := true, swap := .toShadow (s.cal.cycle + 64) e })
  swapReserved s c

/-- SHADOW_SWAP (R96, R246). -/
def execShadowSwap (c : CoreId) (s : State) : Out :=
  if !coreServes s c || (getBank s c .shadow).task.isSome || (getCore s c).swap ≠ .none || listedNow s c .shadow
  then .fault .notEnabled
  else match nextCand s c true with
    | none => .fault .notEnabled
    | some k => .next (beginSwap (takeCand s c k.order) c k.what)

/-- Is what a swap has taken still to start: not cancelled or shed meanwhile (R254, R275)? -/
def entersLive (s : State) (e : Enters) : Bool :=
  match e with
  | .start q => (match getInst s q.task.kinst q.task.node with
      | some i => i.st != .closed
      | none => false)
  | .slot x n => (getCaux s x).conts.any (fun k => k.slot == n)
  | .image x n => (getCaux s x).images.any (fun i => i.slot == n)

/-- R99: the swap back. -/
def endSwap (s : State) (c : CoreId) : State :=
  let s := swapReserved s c
  let s := modBank s c .active (fun k => k.onStreams releaseStream)
  modCore s c (fun k => { k with urgen := false, swap := .none })

/-- ACTIVE_BANK_RESUME (R99). Whether a further P0 task is ready is judged on cycle e + 64 (DESIGN CHOICE, assumption 67). -/
def execActiveBankResume (c : CoreId) (s : State) : Out :=
  match (getCore s c).swap with
  | .toActive due =>
    if s.cal.cycle < due then .fault .notEnabled
    else match (if coreServes s c && !listedNow s c .shadow then nextCand s c true else none) with
      | some k =>
        let s := takeCand s c k.order
        .next (enterBank (modCore s c (fun k => { k with swap := .urgent })) c .shadow k.what)
      | none => .next (endSwap s c)
  | .none | .toShadow _ _ | .urgent => .fault .notEnabled

/-! ### Tile queues (R248, R271, R278) -/

/-- R271, R278: the core that a pool entry goes to. -/
def poolCore (s : State) (k : Kernel) (node : Node) (q : QTask) : Option CoreId :=
  let room (c : CoreId) : Bool := (getCore s c).work.tile.length < 8
  match replayPlace s q.task false with
  | some c => c.bind (fun c => if room c then some c else none)
  | none => placeCore s k.kinst q.task.node node.affinity room

/-- R247, R289: the pool entries of an instance that may move: none of a frozen one, none of a gang's members. -/
def poolReady (i : NodeInst) : List QTask :=
  if i.st ≠ .open_ then []
  else match i.gang with
    | .pending _ | .reserving _ _ => i.pool.filter (fun q => !q.task.member)
    | .none | .placed => i.pool

/-- A score for entries: the highest priority first, then the oldest. -/
def poolScore (s : State) (q : QTask) : Nat := q.task.prio.val * (s.disp.order + 1) + q.order

/-- R248, R286, R290: the entry that an instance's pool gives next: the highest priority, the oldest within one, and of
the members the lowest rank. An entry of a barred class stays. -/
def poolNext (s : State) (i : NodeInst) : Option QTask :=
  let es := (poolReady i).filter (fun q => classAllowed s q.task.eclass)
  match argMin (poolScore s) es with
  | none => none
  | some q => if q.task.member then argMin (fun q => q.task.rank) (es.filter (fun q => q.task.member)) else some q

/-- R248: the entries that may move into a core's tile queue. -/
def fillCands (s : State) (c : CoreId) : List QTask :=
  (s.disp.kerns.filter (fun k => dispatches s k.ctx)).flatMap (fun k =>
    (List.zip k.graph.nodes k.insts).flatMap (fun p =>
      (poolNext s p.2).toList.filter (fun q => poolCore s k p.1 q == some c)))

/-- R245, R271: the core whose queue has room for an entry that waits. -/
def waitCore (s : State) (w : WaitEntry) : Option CoreId :=
  match w.what, w.core with
  | .engine q, at_ => engineCore s at_ q.task
  | .ready _, some c => if (getCore s c).work.ready.length < 64 then some c else none
  | .ready r, none => (readyTask s r).bind (fun t => (getNode s t.kinst t.node).bind (fun n =>
      placeCore s t.kinst t.node n.affinity (fun c => (getCore s c).work.ready.length < 64)))

/-- An entry that waited enters its queue. -/
def enterWait (s : State) (c : CoreId) (w : WaitEntry) : State :=
  match w.what with
  | .engine q => modCore s c (fun k => { k with work := { k.work with engine := k.work.engine ++ [q] } })
  | .ready r => pushReady s c r

/-- The list without its first element that satisfies a test. -/
def dropFirst {α : Type} (p : α → Bool) : List α → List α
  | [] => []
  | a :: as => if p a then as else a :: dropFirst p as

/-- R248: a pool entry moves into a core's tile queue. -/
def fillTile (s : State) (c : CoreId) (q : QTask) : State :=
  let (s, o) := takeOrder s
  let s := modInst s q.task.kinst q.task.node (fun i => { i with pool := i.pool.filter (fun y => y.order != q.order) })
  modCore s c (fun k => { k with work := { k.work with tile := k.work.tile ++ [{ q with arrived := o }] } })

/-- TILE_QUEUE_FILL (R248, R271): an entry that waits for a place in the core's other queues takes it first. -/
def execTileQueueFill (c : CoreId) (s : State) : Out :=
  let mine (w : WaitEntry) : Bool := waitCore s w == some c
  match s.disp.waits.find? mine with
  | some w => .next (enterWait (modDisp s (fun d => { d with waits := dropFirst mine d.waits })) c w)
  | none =>
    if 8 ≤ (getCore s c).work.tile.length then .fault .notEnabled
    else match argMin (poolScore s) (fillCands s c) with
      | none => .fault .notEnabled
      | some q => .next (fillTile s c q)

/-! ### Continuations (R254, R255) -/

/-- R252, R254: does a waiting continuation's condition hold? A YIELD.arr is woken by its SENDH (R255). -/
def contHolds (s : State) (k : Cont) : Bool :=
  match k.cond with
  | .tl i target => target.toNat ≤ (dieCounter s (dieOf k.core) (if i = 1 then 9 else 8)).toNat
  | .nb n last arrived => !arrived || ((getCore s k.core).nb.get n).phase != last
  | .gb g => gbCond s k.task g
  | .arr => false

/-- R254, R271, R278, R288: the core whose queue a ready continuation enters. -/
def contCore (s : State) (k : Cont) : Option CoreId :=
  let room (c : CoreId) : Bool := (getCore s c).work.ready.length < 64
  if k.pinned then (if room k.core then some k.core else none)
  else match replayPlace s k.task true, getNode s k.task.kinst k.task.node with
    | some c, _ => c.bind (fun c => if room c then some c else none)
    | none, some n => placeCore s k.task.kinst k.task.node n.affinity room
    | none, none => none

/-- CONT_READY (R254): a continuation whose condition holds is READY; one that waits as READY enters its queue. -/
def execContReady (x : CtxId) (slot : Nat) (s : State) : Out :=
  match (getCaux s x).conts.find? (fun k => k.slot == slot && !k.queued) with
  | none => .fault .notEnabled
  | some k =>
    let to_ := contCore s k
    if (k.ready && to_.isNone) || (!k.ready && !contHolds s k) then .fault .notEnabled
    else .next (readyCont s x slot to_)

/-! ### Group barriers at the dispatcher (R297) -/

/-- R297: the record of a rank's arrival. -/
def noteRank (s : State) (t : Task) (g : Fin 64) (phase : BitVec 32) : State :=
  modInst s t.kinst t.node (fun i => { i with
    ranks := { g := g, rank := t.rank, last := phase } :: i.ranks.filter (fun r => r.g != g || r.rank != t.rank) })

/-- R297: what an arrival makes of a barrier; none where it raises BARRIER. -/
def gbArrive (b : GBar) (me : Word × Nat) (g : Nat) (again : Bool) : Option GBar :=
  match b.owner with
  | none => if g = 1 then some { b with phase := b.phase + 1 } else some { b with owner := some me, arrivals := 1 }
  | some o =>
    if o ≠ me || again then none
    else if b.arrivals + 1 = g then some { phase := b.phase + 1, arrivals := 0, owner := none }
    else some { b with arrivals := b.arrivals + 1 }

/-- The dispatcher's answer to an arrival leaves bridge die 8 (R349). -/
def answerGbar (s : State) (r : GbReq) (f : Option FaultInfo) : State :=
  postAnswer (modMs s (fun m => { m with gbars := m.gbars.map (fun y => if y.id = r.id then { y with answer := some f } else y) }))
    8 r.agent r.task.ctx r.id

/-- The answer is back: the word completes, or takes the fault. -/
def gbarBack (s : State) (r : GbReq) (f : Option FaultInfo) : State :=
  let s := modMs s (fun m => { m with gbars := m.gbars.filter (fun y => y.id != r.id) })
  match f with
  | none => ackPending s r.agent r.id
  | some f => failPending s r.agent r.id f

/-- GBAR_COUNT (R297, R298, R349): the dispatcher counts an arrival that has reached it, once what the task did before it is
performed, or its word takes BARRIER. -/
def execGbarCount (n : Nat) (s : State) : Out :=
  match s.ms.gbars.find? (fun r => r.id == n && r.arrived && r.answer.isNone) with
  | none => .fault .notEnabled
  | some r =>
    let t := r.task
    if !releaseBefore s r.agent .device 0 r.id then .fault .notEnabled
    else
    let refuse := answerGbar s r (some (gbFault r.g.val))
    if !t.member then .next refuse
    else match getInst s t.kinst t.node with
      | none => .next refuse
      | some i =>
        let b := (getCaux s t.ctx).gb.get r.g
        let again := (rankRec s t r.g).any (fun k => k.last == b.phase)
        match gbArrive b (t.kinst, t.node) i.g again with
        | none => .next refuse
        | some b' =>
          let s := noteRank (answerGbar s r none) t r.g b.phase
          .next (modCaux s t.ctx (fun a => { a with gb := vset a.gb r.g b' }))

/-! ### Stores on their way (R189 to R191) -/

/-- STORE_BUFFER_DRAIN (R189). -/
def execStoreBufferDrain (c : CoreId) (b : BankId) (s : State) : Out :=
  if (getAux s c b).sb.isEmpty then .fault .notEnabled else .next (drainOne s c b)

/-- The elements before the first that satisfies a test. -/
def before {α : Type} (l : List α) (p : α → Bool) : List α := l.takeWhile (fun a => !p a)

/-- R19, R326, R327: does the calendar let a write go on now: not in a change of the clock's level, and one of an engine or of a
park image not in a slot? -/
def writeServes (s : State) (w : Write) : Bool := s.cal.relock = 0 && !(w.origin.eng && inSlot s)

/-- WRITE_APPLY (R19, R190, R191, R326): a write takes its place at its home, or a die's view applies it. -/
def execWriteApply (n : Nat) (at_ : Option DieId) (s : State) : Out :=
  match at_ with
  | none =>
    (match s.ms.unplaced.find? (fun w => w.id == n) with
     | none => .fault .notEnabled
     | some w => if writeServes s w && canPlace s (before s.ms.unplaced (fun v => v.id == n)) w then .next (placeWrite s w)
         else .fault .notEnabled)
  | some d =>
    match s.ms.writes.find? (fun w => w.id == n) with
    | none => .fault .notEnabled
    | some w => if writeServes s w && canApply s d (before s.ms.writes (fun v => v.id == n)) w then .next (applyWrite s d w)
        else .fault .notEnabled

end Sys2Proof.Machine
end

