-- ==== Sys2Proof/Machine/Resume.lean ====
section
/-! DEFINITION. Ending a freeze (R84, R251, R282, R315): how a frozen bank or image goes on after KRETRY or QTHAW, and the
two words. -/

namespace Sys2Proof.Machine

/-! ### Frozen tasks -/

/-- Where a frozen task stands: in a bank, or in a park image by its slot. -/
inductive FrozenAt
  | bank (c : CoreId) (b : BankId)
  | image (slot : Nat)
  deriving DecidableEq, Repr

/-- R251: the frozen task of a context that a handle names. A frozen image whose handler has decided is frozen no more
to its handler. -/
def frozenTask (s : State) (x : CtxId) (a : Word) : Option (FrozenAt × Task × Freeze) :=
  let inBank := (bankTasks s).findSome? (fun t =>
    match (getAux s t.1 t.2.1).freeze with
    | some z => if z.done && t.2.2.ctx == x && t.2.2.handle == a then some (FrozenAt.bank t.1 t.2.1, t.2.2, z) else none
    | none => none)
  match inBank with
  | some f => some f
  | none => (getCaux s x).images.findSome? (fun i =>
      match i.bank.task, i.aux.freeze with
      | some t, some z => if t.handle == a && z.decided.isNone then some (.image i.slot, t, z) else none
      | _, _ => none)

/-! ### Going on (R251, R282) -/

/-- R84: a halted or stopped stream runs again, from step 3. -/
def wakeStream (x : StreamSt) : StreamSt :=
  match x.run with
  | .halted | .stopped => { x with run := .running, passed := 2, stalledFor := 0 }
  | .free | .running | .stalled _ => x

/-- The list with its first element changed. -/
def onHead {α : Type} (l : List α) (f : α → α) : List α :=
  match l with
  | [] => []
  | a :: as => f a :: as

/-- R251, R282: what the decision does in the bank: the streams run again; a faulted engine operation or record goes on,
or its rest is discarded and its counter takes its number; a thawed word is evaluated as one whose predicate is false. -/
def resumeBank (k : Bank) (z : Freeze) (retry : Bool) : Bank :=
  let k := { k with l := wakeStream k.l, x := wakeStream k.x, s := wakeStream k.s }
  match z.src with
  | .word => if retry then k else k.modSt z.stream (fun x => { x with thaw := true })
  | .engine e =>
    let l := k.eng.ops.get e
    if retry then { k with eng := { k.eng with ops := vset k.eng.ops e (onHead l (fun o => { o with faulted := false })) } }
    else
      let tl := match l with
        | [] => k.eng.tl
        | o :: _ => vset k.eng.tl (engTl e) o.num
      { k with eng := { k.eng with ops := vset k.eng.ops e (l.drop 1), tl := tl } }
  | .matrix =>
    let l := k.eng.recs
    if retry then { k with eng := { k.eng with recs := onHead l (fun m => { m with faulted := false }) } }
    else
      let tl := match l with
        | [] => k.eng.tl
        | m :: _ => vset k.eng.tl 0 m.num
      { k with eng := { k.eng with recs := l.drop 1, tl := tl } }
  | .copy _ | .coll _ | .atomic _ | .image | .held => k

/-- The request of a queue-form atomic that is the first operation of an engine of a bank. -/
def headAtomic (s : State) (c : CoreId) (b : BankId) (e : Fin 8) : Option AtomicReq :=
  match (getBank s c b).eng.ops.get e with
  | [] => none
  | o :: _ => s.ms.atomics.find? (fun r => r.agent.core == c && r.agent.bank == b && r.num == o.num
      && (match r.form with
          | .queue k => engNo r.agent k.val == e
          | _ => false))

/-- R204: a faulted request that is to be performed once more. -/
def AtomicReq.again (r : AtomicReq) : AtomicReq :=
  { r with faulted := false, fault := none, back := false, arrived := false, redo := .translate }

/-- R251, R282: what the decision does outside the bank. A posted atomic is performed before L resumes (`redoHolds`), or
discarded. -/
def resumeOps (s : State) (c : CoreId) (b : BankId) (z : Freeze) (retry : Bool) : State :=
  match z.src with
  | .copy id =>
    { s with dies := s.dies.map (fun d => { d with cp := d.cp.map (fun k => { k with ops := k.ops.map (fun o =>
        if o.id = id then { o with faulted := false, discarded := o.discarded || !retry } else o) }) }) }
  | .coll id =>
    { s with dies := s.dies.map (fun d => { d with coOps := d.coOps.map (fun o =>
        if o.id = id then { o with faulted := false, discarded := o.discarded || !retry } else o) }) }
  | .atomic id =>
    (match s.ms.atomics.find? (fun r => r.id == id) with
     | none => s
     | some r =>
       if !retry then dropAtomic s id
       else setAtomic s r.again)
  | .engine e =>
    (match headAtomic s c b e with
     | none => s
     | some r => if retry then setAtomic s r.again else dropAtomic s r.id)
  | .word | .matrix | .image | .held => s

/-- R84, R247: a frozen bank goes on, and its node queue follows. -/
def resumeFrozen (s : State) (c : CoreId) (b : BankId) (z : Freeze) (retry : Bool) : State :=
  let s := resumeOps s c b z retry
  let s := modBank s c b (fun k => resumeBank k z retry)
  let s := modAux s c b (fun a => { a with freeze := none })
  match (getBank s c b).task with
  | some t => thawNode (dropFrozen s t.ctx t.key) t.kinst t.node
  | none => s

/-- R268, R282: the entry of a task's fret row. -/
def rowEntry (s : State) (t : Task) : Word :=
  match (getNode s t.kinst t.node).bind (fun n => n.rows[t.row]?) with
  | some r => r.entry
  | none => t.entry

/-- R244, R282, R291: a lost image's task starts afresh: from its pool, or with the images of its gang. -/
def restartImage (s : State) (x : CtxId) (slot : Nat) (t : Task) : State :=
  let st : Start := { pc := rowEntry s t }
  match (getCaux s x).images.find? (fun i => i.slot == slot) with
  | none => s
  | some i =>
    let s := if i.gang
      then modCaux s x (fun a => { a with images := a.images.map (fun m => if m.slot = slot
        then { m with bank := freshBank m.bank t st, aux := {}, fresh := true } else m) })
      else
        let (s, o) := takeOrder s
        let s := modCaux s x (fun a => { a with images := a.images.filter (fun m => m.slot != slot) })
        modInst s t.kinst t.node (fun n => { n with pool := n.pool ++ [{ task := t, start := st, order := o }] })
    thawNode (dropFrozen s x t.key) t.kinst t.node

/-- R251, R282, R315: a handler's decision on a frozen task; on a park image it takes effect when the image resumes. -/
def decideFrozen (s : State) (x : CtxId) (f : FrozenAt × Task × Freeze) (retry : Bool) : State :=
  match f.1 with
  | .bank c b => resumeFrozen s c b f.2.2 retry
  | .image slot =>
    if f.2.2.src = .image then restartImage s x slot f.2.1
    else modCaux s x (fun a => { a with images := a.images.map (fun m => if m.slot = slot
      then { m with aux := { m.aux with freeze := m.aux.freeze.map (fun z => { z with decided := some retry }) } } else m) })

/-! ### KRETRY and QTHAW -/

/-- R251: is a task the handler of a node instance? -/
def handlerOf (t : Task) (kinst : Word) (node : Nat) : Bool :=
  match t.kind with
  | .handler _ => t.isOf kinst node
  | _ => false

/-- R247: is a node instance CLOSED? -/
def nodeClosed (s : State) (kinst : Word) (n : Nat) : Bool :=
  match getInst s kinst n with
  | some i => i.st == .closed
  | none => false

/-- R251, R282, R283: what a word that acts on a frozen task answers, in this order: 1 for none, 2 for a closed node,
PRIV outside the handler, else 0 with the effect. -/
def onFrozen (w : WordF) (opcode : Nat) (eff : State → CtxId → FrozenAt × Task × Freeze → State) (s : State) : Out :=
  let srcs := [w.srcA]
  runWord w false (fun s g => do
    takeSources s g srcs (dstPush w.dst)
    let me := taskOf s g
    match frozenTask s me.ctx (scal s g w srcs 0) with
    | none => donePop (writeScalar s g w.dst 1) srcs
    | some f =>
      if nodeClosed s f.2.1.kinst f.2.1.node then donePop (writeScalar s g w.dst 2) srcs
      else if !handlerOf me f.2.1.kinst f.2.1.node then raise s (flt .priv 0 (w64 opcode))
      else donePop (eff (writeScalar s g w.dst 0) me.ctx f) srcs) s

/-- QTHAW (R251). -/
def execQthaw (w : WordF) (s : State) : Out := onFrozen w 0x0CE (fun s x f => decideFrozen s x f false) s
/-- KRETRY (R282). -/
def execKretry (w : WordF) (s : State) : Out := onFrozen w 0x0CC (fun s x f => decideFrozen s x f true) s
/-- KCANCEL.task (R275, R283). -/
def execKcancelTask (w : WordF) (s : State) : Out :=
  onFrozen w 0x0CD (fun s _ f => cancelNode s f.2.1.kinst f.2.1.node false) s

end Sys2Proof.Machine
end

