-- ==== Sys2Proof/Machine/TaskForms.lean ====
section
/-! DEFINITION. SPAWN (R249), RENQ (R250), YIELD (R252, R253), KLAUNCH, KWAIT, KCANCEL.kern, KTRIG and TEND (R280 to
R285). -/

namespace Sys2Proof.Machine

/-! ### SPAWN (R249) -/

/-- The entries that a node instance's pool can still take (R247). -/
def poolRoom (s : State) (t : Task) : Nat :=
  match getInst s t.kinst t.node with
  | some i => 65536 - i.pool.length
  | none => 65536

/-- R249: tasks i to n - 1 of a SPAWN enter the pool; the last argument counts those still to enter. -/
def spawnTasks (s : State) (me : Task) (first n : Nat) (b : Word) : Nat → State
  | 0 => s
  | m + 1 =>
    let i := n - (m + 1)
    let (s, h) := takeHandle s
    let (s, o) := takeOrder s
    let g := match getInst s me.kinst me.node with
      | some k => k.g
      | none => me.gsize
    let t : Task := { me with handle := h, kind := .spawned, rank := first + i, gsize := g, own := 0 }
    let q : QTask := { task := t, start := { pc := rowEntry s me, la := [(0, b), (1, w64 i)], sa := [(0, b), (1, w64 i)] }
                       order := o }
    spawnTasks (modInst s me.kinst me.node (fun k => { k with pool := k.pool ++ [q], spawned := k.spawned + 1 }))
      me first n b m

/-- R249: the rank of the first task that a SPAWN makes. -/
def spawnFirst (s : State) (t : Task) : Nat :=
  match getInst s t.kinst t.node with
  | some i => i.g + i.spawned
  | none => t.gsize

/-- SPAWN (R249). -/
def execSpawn (w : WordF) (s : State) : Out :=
  let srcs := [w.srcA, w.srcB]
  runWord w false (fun s g => do
    takeSources s g srcs (dstPush w.dst)
    let n := (scal s g w srcs 0).toNat
    let me := taskOf s g
    if 65536 < n then raise s (flt .queue 0 (w64 n))
    if poolRoom s me < n || !releaseReady s g .device 0 then stall s .op
    let b := scal s g w srcs 1
    let first := spawnFirst s me
    let s := spawnTasks s me first n b n
    donePop (writeScalar s g w.dst (w64 first)) srcs) s

/-! ### RENQ (R250) -/

/-- R245, R250: the task that a RENQ enters in its target's engine queue, of the priority and class of its node. -/
def renqTask (s : State) (g : Agent) (c : CoreId) (a e : Word) : State :=
  let me := taskOf s g
  let (s, h) := takeHandle s
  let (s, o) := takeOrder s
  let t : Task := { nodeTask s me with handle := h, kind := .renq, entry := e, own := 0 }
  let q : QTask := { task := t, start := { pc := e, la := [(0, a), (1, w64 g.core.val)], sa := [(0, a)] }, order := o }
  modCore s c (fun k => { k with work := { k.work with engine := k.work.engine ++ [q] } })

/-- RENQ (R250). The DETAIL of its QUEUE fault is not stated (R372): it is a free value. -/
def execRenq (w : WordF) (s : State) : Out :=
  let srcs := [w.srcA, w.srcB, w.srcC]
  runWord w false (fun s g => do
    takeSources s g srcs (dstPush w.dst)
    let a := scal s g w srcs 1
    let e := scal s g w srcs 2
    let c ← targetCore s id (scal s g w srcs 0) true
    checkAlign s e 16
    if 2 ^ 52 ≤ e.toNat then raise s (flt .notmapped e)
    checkReach s (agentDie g) (dieOf c)
    let s := touch s (taskOf s g).ctx (dieOf c)
    let room := (getCore s c).work.engine.length < 16
    if room then
      if !releaseReady s g .device 0 then stall s .op
      donePop (writeScalar (renqTask s g c a e) g w.dst 1) srcs
    else if w.mod.getLsbD 0 then donePop (writeScalar s g w.dst 0) srcs
    else if c = g.core then raise { s with fresh := s.fresh + 1 } (flt .queue 0 (Config.freeWord s.fresh))
    else stall s .op) s

/-! ### YIELD (R252, R253) -/

/-- R372: the queues and token FIFOs that are not empty, by bit. -/
def fullBits (k : Bank) : Nat :=
  ((List.range 16).map (fun i => if (k.q.get (Fin.ofNat 16 i)).items.isEmpty then 0 else 2 ^ i)).sum
    + ((List.range 6).map (fun i => if (k.tk.get (Fin.ofNat 6 i)).items.isEmpty then 0 else 2 ^ (16 + i))).sum

/-- R225: is a copy operation of a task outstanding? -/
def copiesOf (s : State) (task : Word) : Bool :=
  s.dies.toList.any (fun d => d.cp.toList.any (fun k => k.ops.any (fun o => o.task == task)))

/-- R225, R252, R285: is a stream-engine, matrix or copy operation of the bank outstanding? -/
def opsOut (s : State) (g : Agent) : Bool :=
  let k := bankOf s g
  !k.eng.recs.isEmpty || k.eng.ops.toList.any (fun l => !l.isEmpty) || copiesOf s (taskOf s g).key

/-- R253: the lowest free continuation slot of a context. -/
def contSlot (s : State) (x : CtxId) : Option Nat :=
  (List.range 8192).find? (fun n => (getCaux s x).conts.all (fun c => c.slot != n))

/-- R253, R256: the record of a bank that yields. -/
def yieldRecord (s : State) (g : Agent) (slot : Nat) (cond : ContCond) (pinned : Bool) (live : BitVec 32) : Cont :=
  let k := bankOf s g
  let reg (i : Nat) : Vec := if h : i < 32 then (if i < 16 then k.vec.v.get ⟨i, h⟩ else (k.vec.h.get (Fin.ofNat 16 (i - 16))).val)
    else 0
  { slot := slot, task := taskOf s g, pcL := (k.l.pc + 16).setWidth 64, pcX := (k.x.pc + 16).setWidth 64
    pcS := (k.s.pc + 16).setWidth 64, lc := k.lr.lc.toList ++ k.xr.lc.toList ++ k.sr.lc.toList
    aL := k.a.l.toList.take 8, aS := k.a.s.toList.take 8, live := live
    vecs := ((List.range 32).filter (fun i => live.getLsbD i)).map reg, cond := cond, pinned := pinned, core := g.core
    viewV := viewV s (agentDie g) k }

/-- R252: the live mask: a literal of srcB. -/
def yieldMask (o : Operand) : BitVec 32 :=
  match o with
  | .short v => v.signExtend 32
  | .lit v => v
  | _ => 0

/-- R376: is what a continuation record saves marked? -/
def yieldBad (k : Bank) (live : BitVec 32) : Option Nat :=
  (List.range 32).find? (fun i => live.getLsbD i
    && (if i < 16 then k.vec.badV.getLsbD i else (k.vec.h.get (Fin.ofNat 16 (i - 16))).bad))

/-- R252: YIELD, with its condition and its pin. -/
def yieldForm (w : WordF) (pinned : Bool) (cond : State → Agent → Res ContCond) (s : State) : Out :=
  runB w (fun s g => do
    let k := bankOf s g
    let c ← cond s g
    if fullBits k ≠ 0 then raise s (flt .yieldstate 0 (w64 (fullBits k)))
    if opsOut s g || !releaseReady s g .device 0 then stall s .op
    match contSlot s (taskOf s g).ctx with
    | none => stall s .op
    | some n =>
      match yieldBad k (yieldMask w.srcB) with
      | some i => raise s (eccRegs (i % 16))
      | none =>
        let r := yieldRecord s g n c pinned (yieldMask w.srcB)
        let s := enterAs s (dieOf g.core) [] { ctx := some r.task.ctx, agent := dieAgentNo (dieOf g.core) 11 } (contCells r)
        let s := modCaux s r.task.ctx (fun a => { a with conts := a.conts ++ [r] })
        .ok (.commit (freeBank s g.core g.bank) [] none)) s

/-- YIELD.tl (R252): the counter of the die reaches the target as the bank sees it. -/
def execYieldTl (w : WordF) (s : State) : Out :=
  yieldForm w (w.mod.getLsbD 2) (fun s g => do
    let k := bankOf s g
    if k.a.badL.getLsbD (regNo w.srcC).val then raise s (eccRegs (regNo w.srcC).val)
    let i : Fin 10 := if tlNo w.srcA = .co then 9 else 8
    let off := k.eng.view.get i
    let t := k.a.l.get (regNo w.srcC)
    let reached := t.toNat ≤ (dieCounter s (agentDie g) i + off).toNat
    .ok (.tl (if i = 9 then 1 else 0) (if reached then 0 else t - off))) s

/-- R252, R294: the last of some phases before a phase, all of them modulo 2^32. -/
def lastPhase (now_ : BitVec 32) (ps : List (BitVec 32)) : BitVec 32 :=
  (argMin (fun p => (now_ - p).toNat) ps).getD 0

/-- YIELD.nb (R252): the phase in which the bank last arrived, by any of its streams. -/
def execYieldNb (w : WordF) (s : State) : Out :=
  let n := nbNo w.srcA
  yieldForm w true (fun s g => do
    checkNb s g n
    let k := bankOf s g
    let vs := (streams.map (fun t => (k.regs t).nb.get n)).filter (fun v => v.arrived)
    .ok (.nb n (lastPhase ((getCore s g.core).nb.get n).phase (vs.map (fun v => v.last))) (!vs.isEmpty))) s

/-- YIELD.gb (R252). -/
def execYieldGb (w : WordF) (s : State) : Out :=
  yieldForm w (w.mod.getLsbD 2) (fun s _ => do
    let v := w64 (shortNat w.srcA)
    .ok (.gb (← gbIndex s v))) s

/-- YIELD.arr (R252, R255). -/
def execYieldArr (w : WordF) (s : State) : Out := yieldForm w true (fun _ _ => .ok .arr) s

/-! ### KLAUNCH (R280) -/

/-- Launch records held and not admitted (R258). -/
def heldCount (s : State) : Nat := (s.disp.kerns.filter (fun k => k.st == .held)).length

/-- R265, R267: is a handle one that the context has assigned to a launch? -/
def everLaunched (s : State) (x : CtxId) (k : Word) : Bool :=
  k.toNat % 64 == x.val && 0 < k.toNat / 64 && k.toNat / 64 ≤ (getCaux s x).serial

/-- R265: the next handle of a context. -/
def nextKinst (s : State) (x : CtxId) : State × Word :=
  let n := (getCaux s x).serial + 1
  (modCaux s x (fun a => { a with serial := n }), w64 (x.val + 64 * n))

/-- R266, R267: AFTER names no launch before this one. -/
def afterBad (s : State) (x : CtxId) (after : Word) : Bool := after != 0 && !everLaunched s x after

/-- R266: a launch enters HELD, or retires at once as CANCELLED. -/
def enterLaunch (s : State) (k : Kernel) (dead : Bool) : State :=
  let s := modDisp s (fun d => { d with kerns := d.kerns ++ [k] })
  if dead then retireHeld s k .cancelled else s

/-- R376: the block of a word in X is of vector registers (R88). -/
def blockBad (s : State) (g : Agent) (o : Operand) (n : Nat) : Option Nat :=
  match g.stream with
  | .x => ((List.range n).find? (fun i => (bankOf s g).vec.badV.getLsbD (((regNo o).val + i) % 32))).map (fun i => (regNo o).val + i)
  | _ => descBad s g o n

/-- Register i of a block: of X, bits [63:0] of a vector register (R88). -/
def blockReg (s : State) (g : Agent) (o : Operand) (i : Nat) : Word :=
  match g.stream with
  | .x => ((bankOf s g).vec.v.get (Fin.ofNat 32 ((regNo o).val + i))).setWidth 64
  | _ => descReg s g o i

/-- R372: a refused register of a descriptor. -/
def blockFault (w : WordF) (i : Nat) : FaultInfo := flt .align 0 0 (w64 ((regNo w.srcA).val + i))

/-- KLAUNCH (R280). -/
def execKlaunch (w : WordF) (s : State) : Out :=
  runWord w false (fun s g => do
    takeSources s g [] (dstPush w.dst)
    match blockBad s g w.srcA 6 with
    | some n => raise s (eccRegs n)
    | none =>
      let r (i : Nat) := blockReg s g w.srcA i
      if (r 0).toNat % 64 ≠ 0 then raise s (blockFault w 0)
      if (r 3).toNat % 64 ≠ 0 then raise s (blockFault w 3)
      if (r 5) &&& ~~~(0x107FF : Word) ≠ 0 then raise s (blockFault w 5)
      if 2 ^ 52 ≤ (r 0).toNat then raise s (flt .notmapped (r 0))
      if 2 ^ 52 ≤ (r 3).toNat then raise s (flt .notmapped (r 3))
      if 4096 ≤ heldCount s || !releaseReady s g .device 0 then stall s .queues
      let x := (taskOf s g).ctx
      let dead := afterBad s x (r 4)
      let (s1, h) := nextKinst s x
      let k : Kernel := {
        kinst := h, ctx := x, image := r 0, argp := r 1, seed := r 2, cpl := r 3, after := r 4
        cvec := (r 5).toNat % 2048, noirq := (r 5).getLsbD 16 }
      done (writeScalar (enterLaunch s1 k dead) g w.dst h)) s

/-! ### KWAIT (R281) -/

/-- R281: what KWAIT finds of an instance: its answer, or none while it has not retired. -/
def kwaitValue (s : State) (me : Task) (a : Word) : Option Word :=
  if a = me.kinst && a ≠ 0 then some 0xFC
  else match (getCaux s me.ctx).retired.find? (fun r => r.1 == a) with
    | some r => some (w64 r.2.1.num)
    | none =>
      if !everLaunched s me.ctx a then some 0xFF
      else if (findKern s a).isSome then none else some 0xFE

/-- R281: does an access or an operation of a kernel's tasks still run? -/
def kernBusy (s : State) (a : Word) : Bool :=
  kernFlying s a
  || s.dies.toList.any (fun d => d.cp.toList.any (fun c => c.ops.any (fun o => o.kinst == a))
      || d.mgOps.any (fun o => o.kinst == a) || d.coOps.any (fun o => o.kinst == a))

/-- KWAIT (R281): it acquires the kernel's writes, which are all performed by then. -/
def execKwait (w : WordF) (s : State) : Out :=
  let srcs := [w.srcA]
  runWord w false (fun s g => do
    takeSources s g srcs (dstPush w.dst)
    let a := scal s g w srcs 0
    if (findKern s a).isNone && kernBusy s a then stall s .queues
    match kwaitValue s (taskOf s g) a with
    | some v => donePop (writeScalar s g w.dst v) srcs
    | none =>
      if w.mod.getLsbD 0 then donePop (writeScalar s g w.dst 0xFD) srcs
      else stall s .queues) s

/-! ### KCANCEL.kern (R275, R283) -/

/-- R283: every node instance of a kernel that has not retired is cancelled. -/
def cancelKernel (s : State) (k : Kernel) : State :=
  if k.st = .held then retireHeld s k .cancelled
  else foldAll s (List.range k.insts.length) (fun s n => match getInst s k.kinst n with
    | some i => if i.retired.isSome then s else cancelNode s k.kinst n false
    | none => s)

/-- KCANCEL.kern (R283). -/
def execKcancelKern (w : WordF) (s : State) : Out :=
  let srcs := [w.srcA]
  runWord w false (fun s g => do
    takeSources s g srcs (dstPush w.dst)
    let a := scal s g w srcs 0
    let x := (taskOf s g).ctx
    if !everLaunched s x a then donePop (writeScalar s g w.dst 1) srcs
    else match findKern s a with
      | none => donePop (writeScalar s g w.dst 2) srcs
      | some k =>
        let s := if k.ending.isSome then writeScalar s g w.dst 2 else cancelKernel (writeScalar s g w.dst 0) k
        donePop s srcs) s

/-! ### KTRIG and TEND (R273, R284, R285) -/

/-- R273: a member of the sink counts toward the trigger; with the last the trigger fires. -/
def countTrigger (s : State) (t : Task) : State :=
  match findKern s t.kinst with
  | none => s
  | some k =>
    if k.graph.sink ≠ t.node || !t.member then s
    else
      let s := modInst s t.kinst t.node (fun i => { i with
        trig := if i.trig.contains t.rank then i.trig else t.rank :: i.trig })
      match getInst s t.kinst t.node with
      | none => s
      | some i => if i.trig.length = i.g && k.st = .admitted
          then modKern s t.kinst (fun k => { k with st := .triggered }) else s

/-- KTRIG (R199, R284). -/
def execKtrig (w : WordF) (s : State) : Out :=
  runB w (fun s g => do
    if !releaseReady s g .device 0 then stall s .op
    let s := modAux s g.core g.bank (fun a => { a with ktrig := true })
    done (countTrigger s (taskOf s g))) s

/-- R274: a handler that ends without a decision cancels its faulting task's node. -/
def undecided (s : State) (t : Task) : Bool :=
  match t.kind with
  | .handler a => (frozenTask s t.ctx a).any (fun f => f.2.2.handler == t.handle)
  | _ => false

/-- R273, R274, R285, R292: a task ends. -/
def endTask (s : State) (c : CoreId) (b : BankId) (t : Task) : State :=
  let s := countTrigger s t
  let s := dropForward s t.ctx t.key
  let und := undecided s t
  let s := freeBank s c b
  if und then cancelNode s t.kinst t.node false else closeIfDone s t.kinst t.node

/-- TEND (R285). -/
def execTend (w : WordF) (s : State) : Out :=
  runB w (fun s g => do
    if opsOut s g || !postedDone s g then stall s .op
    let s := drainAll s g.core g.bank
    .ok (.commit (endTask s g.core g.bank (taskOf s g)) [] none)) s

end Sys2Proof.Machine
end

