-- ==== Sys2Proof/Machine/Contexts.lean ====
section
/-! DEFINITION. The host command rings (R257 to R259) and the commands of the context object (R231 to R235). -/

namespace Sys2Proof.Machine

/-! ### Ring records (R257, R258) -/

/-- The head of a record: its SEQ, OP, CTX, FLAGS and STATVA, and its 64 bytes. -/
structure RingRecord where
  seq : Nat
  op : Nat
  ctx : Nat
  flags : Nat
  statva : Nat
  bytes : List Byte
  deriving DecidableEq, Repr

/-- A field of a record's body. -/
def RingRecord.field (c : RingRecord) (off len : Nat) : Nat := ofBytes ((c.bytes.drop off).take len)

/-- A host ring. -/
def getRing16 (s : State) (r : Fin 16) : HostRing := s.disp.rings.get r

/-- The state with a host ring changed. -/
def modRing16 (s : State) (r : Fin 16) (f : HostRing → HostRing) : State :=
  modDisp s (fun d => { d with rings := vmod d.rings r f })

/-- The records posted and not yet read (R258). -/
def HostRing.count (g : HostRing) : Nat := (g.tail - g.head).toNat

/-- R258, R366: does the dispatcher serve the ring? -/
def ringServed (s : State) (g : HostRing) : Bool := g.st = 1 && !g.starting && s.boot.stat = 1 && !s.disp.linkDown

/-- The record at a ring's HEAD (R257). -/
def headRecord (s : State) (g : HostRing) : RingRecord :=
  let bs := viewBytes s.ms 8 (hostKey (g.rb.toNat + 256 + 64 * (if g.n = 0 then 0 else g.head.toNat % g.n))) 64
  let f (off len : Nat) := ofBytes ((bs.drop off).take len)
  { seq := f 0 4, op := f 4 1, ctx := f 5 1, flags := f 6 2, statva := f 8 8, bytes := bs }

/-- R258: the ring stops with HEAD unchanged. -/
def stopRing (s : State) (r : Fin 16) : State := modRing16 s r (fun g => { g with st := 2 })

/-- R258: HEAD advances in the register and, with a release, in the ring. -/
def advanceHead (s : State) (r : Fin 16) : State :=
  let g := getRing16 s r
  let h := g.head + 1
  let s := modRing16 s r (fun g => { g with head := h })
  enterAll s 8 (cellsAt (hostKey (g.rb.toNat + 128)) (toBytes 4 h.toNat))

/-- R259: the status of a record. -/
def answer (s : State) (r : Fin 16) (c : RingRecord) (code : Nat) (result : Word) : State :=
  writeStatus s r (BitVec.ofNat 32 c.seq) (if c.statva % 16 = 0 then w64 c.statva else 0) (c.flags % 2 = 1) code result

/-- R258, R259: the record at the head of a ring is read by one of the six commands: the ring stops on a wrong SEQ; what
is common to every record is checked; then the command runs for its context. `mine` says which OPs the command takes. -/
def serveRecord (s : State) (r : Fin 16) (mine : Nat → Bool) (zeros : RingRecord → Bool)
    (body : State → RingRecord → CtxId → State) : Out :=
  let g := getRing16 s r
  if !ringServed s g || g.count = 0 || g.n < g.count then .fault .notEnabled
  else
    let c := headRecord s g
    if c.seq ≠ g.head.toNat then .next (stopRing s r)
    else if !mine c.op then .fault .notEnabled
    else
      let s := advanceHead s r
      if !([0x01, 0x10, 0x11, 0x12, 0x13, 0x14].contains c.op) then .next (answer s r c 3 0)
      else if 2 ≤ c.flags || c.statva % 16 ≠ 0 then .next (answer s r c 2 0)
      else match ctxNo c.ctx with
        | none => .next (answer s r c 2 0)
        | some x =>
          if !g.allow.getLsbD c.ctx then .next (answer s r c 4 0)
          else if !zeros c then .next (answer s r c 2 0)
          else .next (body s c x)

/-- R258, R392: is a write that has entered bridge die 8's view still to be performed at some die? -/
def hostFlying (s : State) : Bool := writeInFlight s (fun w => w.src == 8)

/-- RING_TAIL_READ (R258, R392): TAIL is read again, with an acquire: once every write that the host has made before is
performed; a count above N stops the ring. -/
def execRingTailRead (r : Fin 16) (s : State) : Out :=
  let g := getRing16 s r
  if !ringServed s g || hostFlying s then .fault .notEnabled
  else
    let t : BitVec 32 := BitVec.ofNat 32 (ofBytes (viewBytes s.ms 8 (hostKey g.rb.toNat) 4))
    let s := modRing16 s r (fun g => { g with tail := t })
    .next (if g.n < (t - g.head).toNat then stopRing s r else s)

/-! ### LAUNCH (R232, R233, R258, R266) -/

/-- R257: the body of a LAUNCH is in range. -/
def launchOk (c : RingRecord) : Bool :=
  c.field 16 8 % 64 = 0 && c.field 16 8 < 2 ^ 52 && c.field 40 8 % 64 = 0 && c.field 40 8 < 2 ^ 52
    && c.field 56 2 ≤ 2047 && c.field 58 6 = 0

/-- How many launches the dispatcher holds (R258). -/
def heldLaunches (s : State) : Nat := (s.disp.kerns.filter (fun k => k.st == .held)).length

/-- R258, R266: a LAUNCH record makes an instance, unless the context is FREE or the dispatcher holds its fill. -/
def launchBody (r : Fin 16) (s : State) (c : RingRecord) (x : CtxId) : State :=
  let st := (getCtx s x).st
  if st = .free then answer s r c 1 0
  else if 4096 ≤ heldLaunches s then
    answer (modRing16 s r (fun g => { g with fullcnt := if g.fullcnt = BitVec.allOnes 32 then g.fullcnt else g.fullcnt + 1 }))
      r c 6 0
  else
    let after := w64 (c.field 48 8)
    let dead := afterBad s x after || st == .quiesced || st == .faulted || st == .lost
    let (s, h) := nextKinst s x
    let k : Kernel := {
      kinst := h, ctx := x, image := w64 (c.field 16 8), argp := w64 (c.field 24 8), seed := w64 (c.field 32 8)
      cpl := w64 (c.field 40 8), after := after, cvec := c.field 56 2
      ring := some (r, BitVec.ofNat 32 c.seq, w64 c.statva, c.flags % 2 = 1) }
    enterLaunch s k dead

/-- LAUNCH (R257, R258, R266). A record with an unknown OP is answered here, with BADOP (R259). -/
def execLaunch (r : Fin 16) (s : State) : Out :=
  serveRecord s r (fun o => o = 0x01 || !([0x10, 0x11, 0x12, 0x13, 0x14].contains o)) launchOk (launchBody r)

/-! ### CTXOPEN and CTXREADY (R231 to R234) -/

/-- R231, R232: the fields of a CTXOPEN are in range. -/
def openOk (c : RingRecord) : Bool :=
  let root := c.field 24 8
  let log := c.field 32 8
  c.field 20 1 < 4 && c.field 21 3 = 0 && c.field 42 22 = 0 && root ≠ 0 && root % 65536 = 0 && root < 2 ^ 44
    && log ≠ 0 && log % 131072 = 0 && log < 2 ^ 52 && c.field 40 2 ≤ 2047

/-- R232: the park area of a context: one of the 64 areas at the end of bridge die 8's LPDDR6 (assumption 30). -/
def parkArea (x : CtxId) : Nat := 65536 * (2 ^ 25 + 2 ^ 24 - 2 ^ 21) + 2 ^ 31 * ((Config.parkFirst + x.val) % 64)

/-- Cells outside a range. -/
def cellsOff (lo n : Nat) (cs : List Host.Cell) : List Host.Cell := cs.filter (fun c => c.1 < lo || lo + n ≤ c.1)

/-- R234: a range of memory is made zero, writes in flight to it included. -/
def zeroRange (s : State) (lo n : Nat) : State :=
  modMs s (fun m => { m with
    mem := Mem.clear m.mem lo n
    writes := m.writes.map (fun w => { w with cells := cellsOff lo n w.cells })
    unplaced := m.unplaced.map (fun w => { w with cells := cellsOff lo n w.cells }) })

/-- R232, R234: a context opens. -/
def openContext (s : State) (c : RingRecord) (x : CtxId) : State :=
  let a := parkArea x
  let s := modCtx s x (fun k => { st := k.st, attr := BitVec.ofNat 8 (c.field 20 1), owner := BitVec.ofNat 32 (c.field 16 4)
                                  root := w64 (c.field 24 8), evlog := w64 (c.field 32 8), park := w64 a
                                  fvec := c.field 40 2 })
  let s := modCaux s x (fun k => { epoch := k.epoch + 1, handles := k.handles, comms := k.comms })
  setCtxSt (zeroRange (zeroRange s a (2 ^ 31)) (contArea x) (2 ^ 26)) x .loading

/-- CTXOPEN (R232, R234). -/
def execCtxopen (r : Fin 16) (s : State) : Out :=
  serveRecord s r (fun o => o = 0x10) openOk (fun s c x =>
    if (getCtx s x).st ≠ .free then answer s r c 1 0 else answer (openContext s c x) r c 0 0)

/-- R257: a body that is zero. -/
def zeroBody (c : RingRecord) : Bool := c.field 16 48 = 0

/-- CTXREADY (R232, R233). -/
def execCtxready (r : Fin 16) (s : State) : Out :=
  serveRecord s r (fun o => o = 0x11) zeroBody (fun s c x =>
    if (getCtx s x).st ≠ .loading then answer s r c 1 0 else answer (setCtxSt s x .ready) r c 0 0)

/-! ### WSLOAD (R235) -/

/-- R257: the body of a WSLOAD is in range. -/
def wsloadOk (s : State) (c : RingRecord) : Bool :=
  c.field 16 8 % 65536 = 0 && 1 ≤ c.field 24 4 && c.field 24 4 ≤ 65536 && c.field 28 1 < 8
    && presentNo s (c.field 28 1) && c.field 29 3 = 0 && c.field 40 24 = 0

/-- WSLOAD (R232, R235): the load is held; it begins by WSLOAD_BEGIN. -/
def execWsload (r : Fin 16) (s : State) : Out :=
  serveRecord s r (fun o => o = 0x12) (wsloadOk s) (fun s c x =>
    let st := (getCtx s x).st
    if st == .loading || st == .ready || st == .running || st == .parked then
      modCaux s x (fun a => { a with ws := a.ws ++ [{
        first := c.field 16 8, count := c.field 24 4, home := c.field 28 1, status := w64 (c.field 32 8), ring := r
        seq := BitVec.ofNat 32 c.seq, statva := w64 c.statva, irq := c.flags % 2 = 1 }] })
    else answer s r c 1 0)

/-- R225, R235: a load begins: it takes its place on its home's migrator. -/
def beginWs (s : State) (x : CtxId) (w : WsLoad) (rest : List WsLoad) : State :=
  let o : MigOp := { capoOp s x w.first with count := w.count, home := w.home, capo := false, ws := true }
  enterMig (modCaux s x (fun a => { a with ws := { w with running := true } :: rest })) (Fin.ofNat 10 w.home) o

/-- WSLOAD_BEGIN (R225, R233, R235): the first load of a context begins once KRUN is 0 and its home's migrator has a place; its
status array is checked by R135. One that CTXQUIESCE has ended before it began writes its command status. -/
def execWsloadBegin (x : CtxId) (s : State) : Out :=
  match (getCaux s x).ws with
  | [] => .fault .notEnabled
  | w :: rest =>
    if w.cancelled && !w.running then (if statusFlying s x then .fault .notEnabled else .next (finishWs s x w))
    else if w.running || !wsOpen s x || !migRoom s (Fin.ofNat 10 w.home) then .fault .notEnabled
    else
      if w.status = 0 then .next (beginWs s x w rest)
      else match access s { ctx := x, die := 8, core := none, wr := true } w.status w.count 1 with
        | .ok (s, _) => .next (beginWs s x w rest)
        | .error (.stall s' _) => if s'.nextId = s.nextId then .fault .notEnabled else .next s'
        | .error (.fault s _) =>
          .next (writeStatus (modCaux s x (fun a => { a with ws := rest })) w.ring w.seq w.statva w.irq 2 0)

/-! ### CTXQUIESCE (R233) -/

/-- R228: pages from one on, of a load that ends, report ABANDONED. -/
def abandonWs (s : State) (x : CtxId) (w : WsLoad) (i : Nat) : Nat → State
  | 0 => s
  | n + 1 => abandonWs (putStatus s 8 x w.status i 5) x w (i + 1) n

/-- R233: how many pages of a load that CTXQUIESCE ends have their own status: the page in progress, if there is one, is the
last. -/
def wsKept (s : State) (x : CtxId) (w : WsLoad) : Nat :=
  if w.running && s.ms.moves.any (fun m => m.by_ == .wsload x w.next) then w.next + 1 else w.next

/-- R233, R259: the loads of a context end: their remaining pages report ABANDONED, and each writes its command status in its
turn, once its status bytes are performed. -/
def cancelWsAll (s : State) (x : CtxId) : State :=
  let ws := (getCaux s x).ws
  let s := foldAll s ws (fun s w => abandonWs s x w (wsKept s x w) (w.count - wsKept s x w))
  modCaux s x (fun a => { a with ws := ws.map (fun w => { w with count := wsKept s x w, cancelled := true }) })

/-- R233: every task of a context leaves the work queues, the continuations and the images. -/
def dropContextTasks (s : State) (x : CtxId) : State :=
  let s := modDisp s (fun d => { d with waits := d.waits.filter (fun w => !((waitTask s w).any (fun t => t.ctx == x))) })
  let s := foldAll s allCores (fun s c =>
    let w := (getCore s c).work
    if w.tile.isEmpty && w.engine.isEmpty && w.ready.isEmpty then s
    else modCore s c (fun k => { k with work := {
      tile := k.work.tile.filter (fun q => q.task.ctx != x)
      engine := k.work.engine.filter (fun q => q.task.ctx != x)
      ready := k.work.ready.filter (fun r => match r.what with
        | .start q => q.task.ctx != x
        | .slot y _ => y != x) } }))
  modCaux s x (fun a => { a with conts := [], images := [], fwd := [], frozen := [] })

/-- R174, R225, R233: banks and images end as by cancellation; every kernel not yet retired retires as CANCELLED. -/
def quiesce (s : State) (x : CtxId) : State :=
  let s := setCtxSt s x .quiesced
  let s := foldAll s ((bankTasks s).filter (fun t => t.2.2.ctx == x)) (fun s t =>
    cancelBank (drainAll s t.1 t.2.1) t.1 t.2.1)
  let s := foldAll s (getCaux s x).images (fun s i => match i.bank.task with
    | some t => discardDieOps s t.key
    | none => s)
  let s := dropDeliveries (dropContextTasks s x) (fun t => t.ctx == x)
  let s := foldAll s (s.disp.kerns.filter (fun k => k.ctx == x)) (fun s k =>
    if k.st = .held then retireHeld s k .cancelled
    else
      let s := modStats s k.kinst (fun y => { y with cancelled := true })
      endKernel s k.kinst (((findKern s k.kinst).map (fun k => finalStatus k.stats)).getD .cancelled))
  cancelWsAll s x

/-- CTXQUIESCE (R232, R233). -/
def execCtxquiesce (r : Fin 16) (s : State) : Out :=
  serveRecord s r (fun o => o = 0x13) zeroBody (fun s c x =>
    let st := (getCtx s x).st
    if st == .free || st == .quiesced then answer s r c 1 0
    else modCaux (quiesce s x) x (fun a => { a with
      quiesce := some (r, BitVec.ofNat 32 c.seq, w64 c.statva, c.flags % 2 = 1) }))

/-- R233: is a copy, migrator or collective operation, a load, a kernel or a write of a context still to end? -/
def dieOpsLeft (s : State) (x : CtxId) : Bool :=
  allDies.any (fun d => (getDie s d).cp.toList.any (fun k => k.ops.any (fun o => o.ctx == x))
    || (getDie s d).mgOps.any (fun o => o.ctx == x) || (getDie s d).coOps.any (fun o => o.ctx == x))
  || !(getCaux s x).ws.isEmpty || s.disp.kerns.any (fun k => k.ctx == x)
  || writeInFlight s (fun w => w.origin.ctx == some x)

/-- QUIESCE_COMPLETE (R233, R259). -/
def execQuiesceComplete (x : CtxId) (s : State) : Out :=
  match (getCaux s x).quiesce with
  | none => .fault .notEnabled
  | some (r, seq, va, irq) =>
    if dieOpsLeft s x then .fault .notEnabled
    else .next (writeStatus (modCaux s x (fun a => { a with quiesce := none })) r seq va irq 0 0)

/-! ### CTXRELEASE (R233, R234) -/

/-- R234: what the context held returns. -/
def releaseContext (s : State) (x : CtxId) : State :=
  let s := setCtxSt s x .free
  let s := foldAll s (s.ms.moves.filter (fun m => m.ctx == x)) (fun s m => dropMove s m.id)
  let s := foldAll s (s.ms.owners.filter (fun o => o.2 == x)) (fun s o => freeFrame s x o.1)
  let s := foldAll s allDies (fun s d => modDie s d (fun k => { k with
    tlb := k.tlb.filter (fun t => t.ctx != x)
    mgOps := k.mgOps.filter (fun o => o.ctx != x)
    cp := k.cp.map (fun p => if p.holder = some x then { p with holder := none } else p) }))
  let s := foldAll s allCores (fun s c => modCore s c (fun k => { k with tlb := k.tlb.filter (fun t => t.ctx != x) }))
  let s := modCaux s x (fun a => { a with handles := [], comms := [], dbgHold := false, frozen := [], kept := none, frozenN := 0 })
  modCtx s x (fun k => { k with touched := 0, krun := 0, energy := 0, evseq := 0 })

/-- Is a context's CTXQUIESCE under way, by the number that a record gives? -/
def quiescing (s : State) (n : Nat) : Bool := (ctxNo n).any (fun x => (getCaux s x).quiesce.isSome)

/-- R234: has a context, by the number that a record gives, atomics that their homes have still to perform? -/
def atomicsLeft (s : State) (n : Nat) : Bool := (ctxNo n).any (fun x => s.ms.atomics.any (fun r => r.ctx == x))

/-- CTXRELEASE (R232, R234): it is accepted in QUIESCED, and a record for a context whose CTXQUIESCE is under way, or of which
an accepted atomic is on its way, waits in its ring until that has completed (DEDUCED, assumption 34). -/
def execCtxrelease (r : Fin 16) (s : State) : Out :=
  let n := (headRecord s (getRing16 s r)).ctx
  if quiescing s n || atomicsLeft s n then .fault .notEnabled
  else serveRecord s r (fun o => o = 0x14) zeroBody (fun s c x =>
    if (getCtx s x).st ≠ .quiesced then answer s r c 1 0
    else answer (releaseContext s x) r c 0 0)

end Sys2Proof.Machine
end

