-- ==== Sys2Proof/Machine/Image.lean ====
section
/-! DEFINITION. The Capo firmware images of the boot flash (R382). -/

namespace Sys2Proof.Machine

/-- A field of an image's body. -/
def imageField (slot off len : Nat) : Nat := ofBytes (((Config.imageBytes slot).drop off).take len)

/-- R382: the length of an image's body: bytes [3:0]. -/
def imageLen (slot : Nat) : Nat := imageField slot 0 4

/-- R382: the security version of an image: bytes [7:4] of its body. -/
def imageSvn (slot : Nat) : BitVec 32 := BitVec.ofNat 32 (imageField slot 4 4)

/-- The body of an image. -/
def imageBody (slot : Nat) : List Byte := (Config.imageBytes slot).take (imageLen slot)

/-- R382: an image passes: a body of 1 to 4 MiB, followed by both signatures on it in the layout of R305, which verify against
the key hashes fused into bridge die 8; its SVN is at least the fused minimum. -/
def imagePasses (slot minSvn : Nat) : Bool :=
  let n := imageLen slot
  let sigs := (Config.imageBytes slot).drop n
  0x100000 ≤ n && n ≤ 0x400000 && (Config.imageBytes slot).length == n + 2764
    && Config.fusedEcdsaVerifies (imageBody slot) (sigs.take 96) && Config.fusedLmsVerifies (imageBody slot) (sigs.drop 96)
    && minSvn ≤ (imageSvn slot).toNat

end Sys2Proof.Machine
end

