-- ==== Sys2Proof/Machine/Packets.lean ====
section
/-! DEFINITION. What a packet does where it arrives (R349), and what its loss does (R23, R204, R352, R358). -/

namespace Sys2Proof.Machine

/-! ### Arrival (R349) -/

/-- A request has arrived at a die: its home, its target, or the dispatcher. -/
def reachRequest (s : State) (d : DieId) (id : Nat) : State :=
  modMs s (fun m => { m with
    atomics := m.atomics.map (fun r => if r.id = id then { r with arrived := true } else r)
    sends := m.sends.map (fun r => if r.id = id then { r with at_ := some d } else r)
    gbars := m.gbars.map (fun r => if r.id = id then { r with arrived := true } else r) })

/-- An answer has arrived: its requester takes it. One whose request has failed completes nothing (R24). -/
def takeAnswer (s : State) (id : Nat) : State :=
  match s.ms.atomics.find? (fun r => r.id == id), s.ms.sends.find? (fun r => r.id == id), s.ms.gbars.find? (fun r => r.id == id) with
  | some r, _, _ => closeIfDone (atomicBack s r) r.kinst r.node
  | none, some r, _ => (match r.answer with
      | some a => sendBack s r a
      | none => s)
  | none, none, some r => (match r.answer with
      | some a => gbarBack s r a
      | none => s)
  | none, none, none => s

/-- A contribution is on its way no more. -/
def dropContrib (s : State) (id : Nat) : State := modMs s (fun m => { m with contribs := m.contribs.filter (fun c => c.id != id) })

/-- R349: a packet takes effect at its target die. -/
def arrivePacket (s : State) (p : Payload) : State :=
  match p.kind with
  | .write id => reachWrite s p.dst id
  | .request id => reachRequest s p.dst id
  | .answer id => takeAnswer s id
  | .contribution id => dropContrib s id
  | .abort x h step => failAt s x h step (flt .cancelled 0 (w64 step))
  | .other => s

/-! ### Loss (R23, R204, R352, R358) -/

/-- R23, R352: a request fails at its requester. -/
def failRequest (s : State) (id : Nat) (code : Code) (detail : Word) : State :=
  let s := match s.ms.atomics.find? (fun r => r.id == id) with
    | none => s
    | some r =>
      let f := r.faultOf code detail
      (match r.form with
       | .reg => failPending (dropAtomic s id) r.agent id f
       | .posted | .queue _ => setAtomic s { r with result := none, fault := some f, back := true })
  let s := match s.ms.sends.find? (fun r => r.id == id) with
    | none => s
    | some r => failPending (dropSend s id) r.agent id (flt code 0 detail)
  match s.ms.gbars.find? (fun r => r.id == id) with
  | none => s
  | some r => failPending (modMs s (fun m => { m with gbars := m.gbars.filter (fun y => y.id != id) })) r.agent id (flt code 0 detail)

/-- R204, R352: the outcome of a posted atomic whose packet was lost is unknown, a free value: it is never performed, or it is as
if its packet had arrived. -/
def losePosted (s : State) (d : DieId) (id : Nat) : State :=
  if Config.packetLost id then dropAtomic s id else reachRequest s d id

/-- R358: a contribution is lost: its step fails at every rank. -/
def loseContrib (s : State) (id : Nat) (detail : Word) : State :=
  match s.ms.contribs.find? (fun c => c.id == id) with
  | none => s
  | some c => failStep (dropContrib s id) c.ranks c.step (flt .linkdown 0 detail)

/-- R352: a packet is lost with a hop. -/
def losePacket (s : State) (detail : Word) (p : Payload) : State :=
  match p.kind with
  | .write id => loseWrite s p.dst id
  | .request id => if p.posted then losePosted s p.dst id else failRequest s id .linkdown detail
  | .answer id => failRequest s id .linkdown detail
  | .contribution id => loseContrib s id detail
  | .abort _ _ _ | .other => s

/-- R352: the contexts of lost packets trap with LINKDOWN; AUX says whether a posted atomic was among theirs. -/
def trapPackets (s : State) (detail : Word) (ps : List Payload) : State :=
  foldAll s (ps.filterMap (fun p => p.ctx)).dedup (fun s x =>
    trapContext s x .linkdown detail (if ps.any (fun p => p.ctx == some x && p.posted) then 1 else 0))

/-- R352: packets are lost with a hop, and their contexts trap. -/
def lostPackets (s : State) (detail : Word) (ps : List Payload) : State :=
  trapPackets (foldAll s ps (fun s p => losePacket s detail p)) detail ps

/-- R22 to R24: a packet from or to a lost die goes with it: what was outstanding to the die has failed by R23, and a write of it
that has its place reaches its targets without (assumption 64). -/
def dropPacket (s : State) (p : Payload) : State :=
  match p.kind with
  | .write id => reachWrite s p.dst id
  | .contribution id => loseContrib s id (w64 (8 * p.dst.val))
  | .request _ | .answer _ | .abort _ _ _ | .other => s

/-- Packets that a lost die d takes with it: its own and those to it (R22), and those that it was to forward, which are lost as
with a hop (assumption 64). -/
def takeDown (s : State) (d : DieId) (ps : List Payload) : State :=
  let own (p : Payload) : Bool := p.src == d || p.dst == d
  lostPackets (foldAll s (ps.filter own) dropPacket) (w64 (8 * d.val)) (ps.filter (fun p => !own p))

end Sys2Proof.Machine
end

