-- ==== Sys2Proof/Machine/Links.lean ====
section
/-! DEFINITION. Die-link modules and fabric ports: flits, replay, marks and states (R344 to R353, R366). -/

namespace Sys2Proof.Machine

/-! ### Modules and their other ends -/

/-- A module or port. -/
def getLink (s : State) (l : LinkId) : Link :=
  match l with
  | .dl d m => dlink s d.val m.val
  | .fab p => s.fabs.get p

/-- The state with a module or port changed. -/
def modLink (s : State) (l : LinkId) (f : Link → Link) : State :=
  match l with
  | .dl d m =>
    if h : 8 * d.val + m.val < 80 then { s with dlinks := vmod s.dlinks ⟨8 * d.val + m.val, h⟩ f } else s
  | .fab p => { s with fabs := vmod s.fabs p f }

/-- The neighbours of a die (R10). -/
def neighbours (d : Nat) : List Nat := (List.range 10).filter (fun e => (hopModules d e).isSome)

/-- The die at the other end of a module, and the module's place among those of the hop. -/
def linkPeer (d : DieId) (m : Fin 8) : Option (Nat × Nat) :=
  (neighbours d.val).findSome? (fun e => match hopModules d.val e with
    | some (f, n) => if f ≤ m.val && m.val < f + n then some (e, m.val - f) else none
    | none => none)

/-- The module at the other end of a die-link module; a port's other end lies outside the package. -/
def partner (l : LinkId) : Option LinkId :=
  match l with
  | .fab _ => none
  | .dl d m => match linkPeer d m with
    | none => none
    | some (e, i) => match dieNo e, hopModules e d.val with
      | some e', some (f, _) => some (.dl e' (Fin.ofNat 8 (f + i)))
      | _, _ => none

/-- Both ends of a link. -/
def ends (l : LinkId) : List LinkId := l :: (partner l).toList

/-- The state with both ends of a link changed: the link has one state and one pair of marks. -/
def modEnds (s : State) (l : LinkId) (f : Link → Link) : State := foldAll s (ends l) (fun s e => modLink s e f)

/-- Every die-link module that exists. -/
def dieLinks : List LinkId :=
  allDies.flatMap (fun d => (List.range 8).filterMap (fun m =>
    let l := LinkId.dl d (Fin.ofNat 8 m)
    if (partner l).isSome then some l else none))

/-- The twelve ports (R353). -/
def fabLinks : List LinkId := (List.range 12).map (fun p => LinkId.fab (Fin.ofNat 12 p))

/-- The die whose module or port a link is (R353). -/
def linkDie (l : LinkId) : DieId :=
  match l with
  | .dl d _ => d
  | .fab p => if p.val < 6 then 8 else 9

/-- R346: the flits that a replay buffer holds. -/
def bufferSize (l : LinkId) : Nat :=
  match l with
  | .dl _ _ => 128
  | .fab _ => 2048

/-- A counter of R367 rises by one, up to its maximum. -/
def countLink (k : Link) (i : Fin 5) : Link :=
  { k with counters := vmod k.counters i (fun v => if v = BitVec.allOnes 32 then v else v + 1) }

/-! ### States (R351, R352) -/

/-- R372: a link in a fault's detail (assumption 31). -/
def linkDetail (l : LinkId) : Nat :=
  match l with
  | .dl d m => 8 * d.val + m.val
  | .fab p => 0x100 + p.val

/-- A link's buffers and numbers are cleared. -/
def freshLink (k : Link) (st : LinkSt) : Link :=
  { k with st := st, txNext := 0, buffer := [], wire := [], replay := [], rxNext := 0, nakOut := false, nakDue := false
           ackSent := 0xFFFF, failed := [], failCount := 0 }

/-- The modules of a hop, or the ports of a bridge die, that carry traffic. -/
def carriers (s : State) (l : LinkId) : List LinkId :=
  match l with
  | .fab _ => fabLinks.filter (fun k => linkDie k == linkDie l && (getLink s k).st.carries)
  | .dl d m => match linkPeer d m with
    | none => []
    | some (e, _) => match hopModules d.val e with
      | none => []
      | some (f, n) => ((List.range n).map (fun i => LinkId.dl d (Fin.ofNat 8 (f + i)))).filter (fun k =>
          (getLink s k).st.carries)

/-- R345: the module of a hop that carries an agent's packets: the agent's number modulo the number of modules that carry
traffic. -/
def moduleOf (cs : List LinkId) (agent : Nat) : Option LinkId := cs[agent % cs.length]?

/-- R347: does a SEQ stand at or after another? -/
def seqFrom (n q : BitVec 16) : Bool := (q - n).toNat < 2 ^ 15

/-- R349: the packets of a sender's unacknowledged flits that the other end has not accepted. What a port's other end has
accepted shows in its ACK alone. -/
def unaccepted (s : State) (l : LinkId) : List Payload :=
  ((getLink s l).buffer.filter (fun f => (partner l).all (fun e => seqFrom (getLink s e).rxNext f.seq))).flatMap (·.pays)

/-- R345: packets that have not been accepted leave again before any other of their die. -/
def sendAgain (s : State) (d : DieId) (ps : List Payload) : State := modDie s d (fun k => { k with outbox := ps ++ k.outbox })

/-- R345, R352: what becomes of the packets of a module or port that went DOWN: those that its other end has not accepted leave
by another module of the hop; without one they are lost, and every context that had a packet among the unacknowledged flits
traps. A port's flits are lost. -/
def movePackets (s : State) (l : LinkId) (all open_ : List Payload) : State :=
  match l with
  | .fab _ => foldAll s open_ (fun s p => losePacket s (w64 (linkDetail l)) p)
  | .dl d _ => if (carriers s l).isEmpty
      then trapPackets (foldAll s open_ (fun s p => losePacket s (w64 (linkDetail l)) p)) (w64 (linkDetail l)) all
      else sendAgain s d open_

/-- R345, R351, R352: a link goes DOWN. -/
def linkFails (s : State) (l : LinkId) : State :=
  let ps := (ends l).map (fun e => (e, (getLink s e).buffer.flatMap (·.pays), unaccepted s e))
  foldAll (modEnds s l (fun k => freshLink k .down)) ps (fun s p => movePackets s p.1 p.2.1 p.2.2)

/-- R350, R351: a lane group is marked. -/
def markGroup (s : State) (l : LinkId) (g : Bool) : State :=
  modEnds s l (fun k => { k with
    mark0 := k.mark0 || !g, mark1 := k.mark1 || g, st := if k.st = .up then .degraded else k.st })

/-- The modules and ports of a die. -/
def linksOf (d : DieId) : List LinkId := (dieLinks ++ fabLinks).filter (fun l => linkDie l == d)

/-- The state with a lost die's links reset (R351): flits in flight and in both buffers are discarded. -/
def resetLinks (s : State) (d : DieId) : State :=
  foldAll s (linksOf d) (fun s l =>
    if (getLink s l).st.carries then
      let ps := (ends l).flatMap (unaccepted s)
      takeDown (modEnds s l (fun k => freshLink k .reset)) d ps
    else s)

/-- The packets that wait in a lost die are lost with it. -/
def loseOutbox (s : State) (d : DieId) : State :=
  takeDown (modDie s d (fun k => { k with outbox := [] })) d (getDie s d).outbox

/-- R351: the links of a die that returns begin to train. -/
def trainLinks (s : State) (d : DieId) : State :=
  foldAll s (linksOf d) (fun s l =>
    if (getLink s l).st = .reset then modEnds s l (fun k => freshLink k .training) else s)

/-! ### Flits on the wire (R344) -/

/-- R344: bytes 247 to 0 of a flit. -/
def flitBody (f : Flit) : List Byte :=
  toBytes 2 f.seq.toNat ++ toBytes 2 f.ack.toNat ++ toBytes 2 (f.nak.getD 0).toNat
    ++ [(if f.pays.isEmpty then 0 else 1) + (if f.nak.isSome then 2 else 0), 0] ++ (Config.packetBytes f.pays).toList

/-- R344: the 256 bytes of a flit. -/
def flitBytes (f : Flit) : List Byte := flitBody f ++ toBytes 8 (crc64 (flitBody f)).toNat

/-- R344: do received bytes pass the CRC? -/
def crcPasses (bs : List Byte) : Bool := bs.drop 248 == toBytes 8 (crc64 (bs.take 248)).toNat

/-- R344: the header of received bytes, with the packets of the flit that was sent: what an error that the CRC does not see
makes of a payload is not told (assumption 64). -/
def readHeader (f : Flit) (bs : List Byte) : Flit :=
  let field (i : Nat) : BitVec 16 := BitVec.ofNat 16 (ofBytes ((bs.drop i).take 2))
  let ctl := bs.getD 6 0
  { seq := field 0, ack := field 2, nak := if ctl.getLsbD 1 then some (field 4) else none
    pays := if ctl.getLsbD 0 then f.pays else [] }

/-- The bytes of a flit as they arrive: some are changed on the way. -/
def withErrors (bs : List Byte) (err : List (Nat × BitVec 8)) : List Byte := err.foldl (fun bs e => bs.modify e.1 (· ^^^ e.2)) bs

/-- R347: a flit as it arrives, if its CRC passes. -/
def arrives (f : Flit) (err : List (Nat × BitVec 8)) : Option Flit :=
  let bs := withErrors (flitBytes f) err
  if crcPasses bs then some (readHeader f bs) else none

/-! ### Sending (R345 to R348) -/

/-- R11, R345, R354: is a packet for a module to send? Of a die's packets a die link carries those whose next die is at its
other end, a port the fabric packets of its bridge die, and each those of the agents that are assigned to it. -/
def sendsPacket (s : State) (l : LinkId) (p : Payload) : Bool :=
  moduleOf (carriers s l) p.agent == some l && (match l with
    | .fab _ => p.node.isSome && p.dst == linkDie l
    | .dl d m => p.dst != d && (linkPeer d m).isSome && (linkPeer d m).map (·.1) == nextHop s p.src.val p.dst.val d.val)

/-- The packets that a module may send next, in order. -/
def sendable (s : State) (l : LinkId) : List Payload :=
  match (getDie s (linkDie l)).outbox with
  | [] => []
  | ps => ps.filter (sendsPacket s l)

/-- R346, R347: a flit as a sender sends it now: with its ACK, and the NAK that is due. -/
def makeFlit (k : Link) (seq : BitVec 16) (ps : List Payload) : Flit :=
  { seq := seq, ack := k.rxNext - 1, nak := if k.nakDue then some k.rxNext else none, pays := ps }

/-- A flit is on its way; what a port sends leaves the module. -/
def onWire (l : LinkId) (f : Flit) (k : Link) : Link :=
  match l with
  | .fab _ => k
  | .dl _ _ => { k with wire := k.wire ++ [f] }

/-- R346: an idle flit, with the SEQ of the next payload flit. -/
def sendIdle (s : State) (l : LinkId) : State :=
  modLink s l (fun k => { onWire l (makeFlit k (k.replay.headD k.txNext) []) k with nakDue := false, ackSent := k.rxNext - 1 })

/-- R346: a new payload flit, which stays in the replay buffer. -/
def sendNew (s : State) (l : LinkId) (ps : List Payload) : State :=
  let s := modDie s (linkDie l) (fun k => { k with outbox := ps.foldl (fun o p => o.erase p) k.outbox })
  modLink s l (fun k =>
    let f := makeFlit k k.txNext ps
    { onWire l f k with
      buffer := k.buffer ++ [f], txNext := k.txNext + 1, nakDue := false, ackSent := k.rxNext - 1
      lastAck := if k.buffer.isEmpty then s.cal.cycle else k.lastAck
      ackAge := if k.buffer.isEmpty then s.cal.age else k.ackAge })

/-- R348: the next flit of a replay, unchanged. -/
def sendReplay (s : State) (l : LinkId) : State :=
  modLink s l (fun k => { (match k.buffer.find? (fun f => some f.seq == k.replay.head?) with
    | some f => onWire l f k
    | none => k) with replay := k.replay.drop 1 })

/-- R329: does the retraining of a link overrun its slot? What needs the link waits. -/
def linkOverruns (s : State) (l : LinkId) : Bool :=
  s.care.overruns.any (fun o => match o.2 with
    | .laneGroup k _ => (ends l).contains k
    | _ => false)

/-- R19, R329: may a link's flits move now? -/
def linkMoves (s : State) (l : LinkId) : Bool := (getLink s l).st.carries && !linkOverruns s l && s.cal.relock = 0

/-- FLIT_SEND (R11, R345 to R348): an idle flit, the next of a replay, or a new one with the next n packets, at most 15 by their
16-byte units. With a full buffer only idle flits are new. -/
def execFlitSend (l : LinkId) (n : Nat) (s : State) : Out :=
  let k := getLink s l
  if !linkMoves s l then .fault .notEnabled
  else if n = 0 then .next (sendIdle s l)
  else if !k.replay.isEmpty then .next (sendReplay s l)
  else
    let ps := (sendable s l).take n
    if bufferSize l ≤ k.buffer.length || ps.length < n || 15 < n then .fault .notEnabled
    else .next (sendNew s l ps)

/-! ### Receiving (R347 to R350) -/

/-- R346, R347: an ACK removes the flits up to it. -/
def takeAck (s : State) (k : Link) (ack : BitVec 16) : Link :=
  let rest := k.buffer.filter (fun f => seqFrom (ack + 1) f.seq)
  if rest.length = k.buffer.length then k
  else { k with buffer := rest, lastAck := s.cal.cycle, ackAge := s.cal.age
                replay := k.replay.filter (fun q => rest.any (fun f => f.seq == q)) }

/-- R358: contributions that a port's other end has taken in are on their way no more. -/
def ackedOut (s : State) (l : LinkId) (ack : BitVec 16) : State :=
  match l with
  | .dl _ _ => s
  | .fab _ => foldAll s (((getLink s l).buffer.filter (fun f => !seqFrom (ack + 1) f.seq)).flatMap (·.pays)) (fun s p =>
      match p.kind with
      | .contribution id => dropContrib s id
      | .write _ | .request _ | .answer _ | .abort _ _ _ | .other => s)

/-- R348: a NAK begins a replay, which counts once. -/
def takeNak (s : State) (l : LinkId) (nak : Option (BitVec 16)) : State :=
  match nak with
  | none => s
  | some n =>
    let qs := ((getLink s l).buffer.map (·.seq)).filter (seqFrom n)
    if qs.isEmpty then s else modEnds (modLink s l (fun k => { k with replay := qs })) l (fun k => countLink k 1)

/-- R347: a NAK goes out unless one is outstanding. -/
def sendNak (k : Link) : Link := if k.nakOut then k else { k with nakOut := true, nakDue := true }

/-- R344, R350: the lane groups that carried differing bytes, at the width in force. -/
def groupsOf (l : LinkId) (k : Link) (err : List (Nat × BitVec 8)) : List Bool :=
  let half := match l with
    | .dl _ _ => 32
    | .fab _ => 4
  let bad := (err.filter (fun e => e.2 != 0)).map (·.1)
  if bad.isEmpty then []
  else if k.st = .narrow then [k.group]
  else (bad.map (fun b => decide (half ≤ b % (2 * half)))).dedup

/-- R350: charges of a group in the last 64 periods. -/
def chargesOf (k : Link) (g : Bool) : Nat := (k.charges.filter (fun c => c.1 == g)).length

/-- R350: the replayed copy of a flit that had failed is accepted: the groups that carried the differing bytes are charged, and
marked. -/
def chargeFlit (s : State) (l : LinkId) (seq : BitVec 16) : State :=
  let k := getLink s l
  match k.failed.find? (fun f => f.1 == seq) with
  | none => s
  | some f =>
    let p := period s
    let s := modLink s l (fun k => { k with
      failed := k.failed.filter (fun f => f.1 != seq)
      charges := f.2.map (fun g => (g, p)) ++ k.charges.filter (fun c => p < c.2 + 64) })
    let k := getLink s l
    let s := if 16 ≤ chargesOf k false && !k.mark0 then markGroup s l false else s
    if 16 ≤ chargesOf k true && !k.mark1 then markGroup s l true else s

/-- R11, R24, R349, R354: a packet of an accepted flit: dropped and counted if its incarnation is stale; taken in at its target;
else it waits to be sent on, by a die link or, of a fabric packet at its bridge die, by a port. From a port the module takes
what is for its collective engines. -/
def takePacket (l : LinkId) (s : State) (p : Payload) : State :=
  let d := linkDie l
  match l with
  | .fab _ => (match p.kind with
      | .abort _ _ _ | .other => if p.dst = d then arrivePacket s p else post s { p with src := d, node := none }
      | .write _ | .request _ | .answer _ | .contribution _ => s)
  | .dl _ _ =>
    if (getDie s d).known.get p.src ≠ p.incarnation then
      modDie (dropPacket s p) d (fun k => { k with
        stale := if k.stale = BitVec.allOnes 32 then k.stale else k.stale + 1 })
    else if p.dst = d && p.node.isNone then arrivePacket s p
    else modDie s d (fun k => { k with outbox := k.outbox ++ [p] })

/-- R347: a flit with good CRC is accepted, found ahead, or found behind; its ACK and NAK are taken in any case. -/
def takeFlit (s : State) (l : LinkId) (f : Flit) : State :=
  let s := ackedOut s l f.ack
  let s := modLink s l (fun k => takeAck s k f.ack)
  let s := takeNak s l f.nak
  let k := getLink s l
  if f.seq = k.rxNext then
    (if f.pays.isEmpty then s
     else
      let s := modLink s l (fun k => { k with rxNext := k.rxNext + 1, nakOut := false, nakDue := false, failCount := 0 })
      foldAll (chargeFlit s l f.seq) f.pays (takePacket l))
  else if seqFrom k.rxNext f.seq then modLink s l sendNak
  else modEnds s l (fun k => countLink k 2)

/-- R347, R351: a flit whose CRC fails is discarded; the sixteenth failure in a row of one flit takes the link down. -/
def badFlit (s : State) (l : LinkId) (f : Flit) (err : List (Nat × BitVec 8)) : State :=
  let s := modEnds (modLink s l sendNak) l (fun k => countLink k 0)
  if f.pays.isEmpty then s
  else
    let s := modLink s l (fun k => { k with
      failed := (f.seq, groupsOf l k err) :: k.failed.filter (fun g => g.1 != f.seq)
      failCount := if f.seq = k.rxNext then k.failCount + 1 else k.failCount })
    if 16 ≤ (getLink s l).failCount then linkFails s l else s

/-- The flit that arrives next at a link, and the state without it on its way: the oldest on the wire of a die link; at a port,
one from outside the module. -/
def nextFlit (s : State) (l : LinkId) (f : Option Flit) : Option (Flit × State) :=
  match partner l, f with
  | none, some f => some (f, s)
  | some e, none => (getLink s e).wire.head?.map (fun f => (f, modLink s e (fun k => { k with wire := k.wire.drop 1 })))
  | none, none | some _, some _ => none

/-- FLIT_RECEIVE (R24, R344, R347 to R352): the next flit arrives, with `err` the bytes that changed on its way. -/
def execFlitReceive (l : LinkId) (f : Option Flit) (err : List (Nat × BitVec 8)) (s : State) : Out :=
  if !linkMoves s l then .fault .notEnabled
  else match nextFlit s l f with
    | none => .fault .notEnabled
    | some (f, s) => match arrives f err with
      | some f => .next (takeFlit s l f)
      | none => .next (badFlit s l f err)

/-- REPLAY_TIMEOUT (R348): no ACK has advanced for 4,096 cycles; the sender replays from its oldest flit. -/
def execReplayTimeout (l : LinkId) (s : State) : Out :=
  let k := getLink s l
  if !k.st.carries || k.buffer.isEmpty || s.cal.cycle < Nat.max k.lastAck k.lastReplay + 4096 then .fault .notEnabled
  else .next (modEnds (modLink s l (fun k => { k with lastReplay := s.cal.cycle, replay := k.buffer.map (·.seq) })) l
    (fun k => countLink k 1))

/-- LINK_ACK_TIMEOUT (R351): no ACK has advanced for 1 ms. -/
def execLinkAckTimeout (l : LinkId) (s : State) : Out :=
  let k := getLink s l
  if !k.st.carries || k.buffer.isEmpty || s.cal.age < k.ackAge + 36000000 then .fault .notEnabled
  else .next (linkFails s l)

/-! ### Packets without a way (R23, R352) -/

/-- Is there no way for a packet that waits in a die? A fabric packet at its bridge die needs a port. -/
def noWay (s : State) (d : DieId) (p : Payload) : Bool :=
  if p.dst = d then p.node.isSome && !fabLinks.any (fun l => linkDie l == d && (getLink s l).st.carries)
  else (nextHop s p.src.val p.dst.val d.val).isNone

/-- R23, R352: what becomes of it. A fabric packet goes to the other bridge die's ports; a request that has not left yet fails at
its requester; the rest is lost as with a hop, or with the die that it goes to. -/
def strand (s : State) (d : DieId) (p : Payload) : State :=
  let detail := w64 (downDetail s d.val p.dst.val)
  if p.dst = d then (match portDie s with
    | some e => modDie s d (fun k => { k with outbox := k.outbox ++ [{ p with dst := e }] })
    | none => losePacket s 0x100 p)
  else if dieGone s p.dst then dropPacket s p
  else match p.kind with
    | .request id => if p.src = d then failRequest s id .linkdown detail else lostPackets s detail [p]
    | .write _ | .answer _ | .contribution _ | .abort _ _ _ | .other => lostPackets s detail [p]

/-- The first packet without a way, of any die, leaves its die. -/
def strandOne (s : State) : Out :=
  match allDies.findSome? (fun d => ((getDie s d).outbox.find? (noWay s d)).map (fun p => (d, p))) with
  | none => .fault .notEnabled
  | some (d, p) => .next (strand (modDie s d (fun k => { k with outbox := k.outbox.erase p })) d p)

/-! ### Training (R351) -/

/-- R351: the end of a training: a marked group never passes. -/
def trained (s : State) (l : LinkId) (g0 g1 : Bool) : State :=
  let k := getLink s l
  let a := g0 && !k.mark0
  let b := g1 && !k.mark1
  if a && b then modEnds s l (fun k => freshLink k .up)
  else if a || b then modEnds s l (fun k =>
    { freshLink k .narrow with group := b, mark0 := k.mark0 || b, mark1 := k.mark1 || a })
  else linkFails s l

/-- R324, R351: retraining of one link in an extended slot. -/
def retrain (s : State) (l : LinkId) (g0 g1 : Bool) : State :=
  let k := getLink s l
  let a := g0 && !k.mark0
  let b := g1 && !k.mark1
  match k.st with
  | .degraded =>
    if a || b then modEnds s l (fun k => { k with st := .narrow, group := !a }) else linkFails s l
  | .narrow => if (if k.group then k.mark1 else k.mark0) then linkFails s l else s
  | .reset | .training | .up | .down => s

/-- R324, R351: the links of a list are retrained, with the groups that pass. -/
def retrainAll (s : State) (results : List (LinkId × Bool × Bool)) (ls : List LinkId) : State :=
  let pass (l : LinkId) : Bool × Bool := match results.find? (fun r => r.1 == l) with
    | some r => r.2
    | none => (true, true)
  foldAll s ls (fun s l => retrain s l (pass l).1 (pass l).2)

/-- EXTENDED_SLOT_RETRAIN (R324, R329, R351): once in each extended slot, outside its windows, or past its end for the links
whose retraining overruns it. -/
def execExtendedSlotRetrain (results : List (LinkId × Bool × Bool)) (s : State) : Out :=
  let late := (dieLinks ++ fabLinks).filter (linkOverruns s)
  match extOf s (period s) with
  | some e =>
    if s.cal.retrained = e + 1 || !serveWindow s then .fault .notEnabled
    else .next (retrainAll { s with cal := { s.cal with retrained := e + 1 } } results (dieLinks ++ fabLinks))
  | none => if late.isEmpty then .fault .notEnabled else .next (retrainAll s results late)

/-- HOST_LINK_DOWN (R366): the rings stop; what needs the host link fails where it is used. -/
def execHostLinkDown (s : State) : Out :=
  if s.disp.linkDown then .fault .notEnabled
  else .next (modDisp s (fun d => { d with
    linkDown := true, rings := d.rings.map (fun g => if g.st = 1 then { g with st := 2 } else g) }))

end Sys2Proof.Machine
end

