-- ==== Sys2Proof/Machine/Launch.lean ====
section
/-! DEFINITION. Reading and checking a graph image (R260 to R263), the admission of kernels (R266, R267) and gang
placement (R289, R291). -/

namespace Sys2Proof.Machine

/-! ### The graph image (R260 to R263) -/

/-- How the reading of an image ends: a fault's code, or a page in repair that it waits for. -/
inductive ReadStop
  | bad (c : Code)
  | wait
  deriving DecidableEq, Repr

/-- Bytes of a context's space as bridge die 8 reads them (R263). -/
def deviceRead (s : State) (x : CtxId) (va len : Nat) : Except ReadStop (List Byte) :=
  let q : Req := { ctx := x, die := 8, core := none, wr := false }
  if 2 ^ 52 ≤ va then .error (.bad .notmapped)
  else match access s q (w64 va) len 1 with
    | .ok (s, ks) => .ok (readKeys s [] 8 ks)
    | .error (.fault _ f) => .error (.bad f.code)
    | .error (.stall _ _) => .error .wait

/-- A field of a record. -/
def imgField (bs : List Byte) (off len : Nat) : Nat := ofBytes ((bs.drop off).take len)

/-- R260 to R263: a check of the image: FMT where it fails. -/
def needImage (ok : Bool) : Except ReadStop Unit := if ok then .ok () else .error (.bad .fmt)

/-- R262: a fret row. An ENTRY outside the 52-bit range is out of range. -/
def readRow (bs : List Byte) : Except ReadStop Row := do
  let entry := imgField bs 0 8
  needImage (entry % 16 == 0 && entry < 2 ^ 52)
  let energy := imgField bs 16 4
  let tiles := imgField bs 20 1
  let cadence := imgField bs 21 1
  let cls := imgField bs 22 1
  let cycles := imgField bs 24 8
  needImage (energy != 0 && 1 ≤ tiles && tiles ≤ 128 && 1 ≤ cadence && cadence ≤ 8 && 1 ≤ cls && cls ≤ 10
    && imgField bs 23 1 == 0 && cycles != 0)
  .ok { entry := w64 entry, view := w64 (imgField bs 8 8), energy := energy, tiles := tiles, cadence := cadence, cls := cls
        cycles := cycles }

/-- Records at equal distances, each read by a function of its bytes. -/
def readRows {α : Type} (f : List Byte → Except ReadStop α) (bs : List Byte) (size : Nat) : Nat → Except ReadStop (List α)
  | 0 => .ok []
  | n + 1 => do
    let a ← f (bs.take size)
    let as ← readRows f (bs.drop size) size n
    .ok (a :: as)

/-- R261, R263: a node record. -/
def readNode (s : State) (bs : List Byte) : Except ReadStop Node := do
  let eclass := imgField bs 8 1
  let prio := imgField bs 9 1
  let nrows := imgField bs 10 1
  let flags := imgField bs 11 1
  let aff := imgField bs 12 2
  let handler := imgField bs 16 8
  needImage (eclass ≤ 3 && prio ≤ 3 && 1 ≤ nrows && nrows ≤ 8 && flags ≤ 1 && aff < 1024 && imgField bs 14 2 == 0
    && handler % 16 == 0 && handler < 2 ^ 52 && imgField bs 24 40 == 0 && imgField bs (64 + 32 * nrows) (256 - 32 * nrows) == 0
    && (List.range 8).any (fun d => (BitVec.ofNat 16 aff).getLsbD d && presentNo s d))
  let rows ← readRows readRow (bs.drop 64) 32 nrows
  .ok { deadline := imgField bs 0 8, eclass := Fin.ofNat 4 eclass, prio := Fin.ofNat 4 prio, gang := flags == 1
        affinity := BitVec.ofNat 16 (aff % 256), handler := w64 handler, rows := rows }

/-- The node records of an image from one on. -/
def readNodes (s : State) (x : CtxId) (at_ : Nat) : Nat → Except ReadStop (List Node)
  | 0 => .ok []
  | n + 1 => do
    let bs ← deviceRead s x at_ 320
    let a ← readNode s bs
    let as ← readNodes s x (at_ + 320) n
    .ok (a :: as)

/-- The edges of an image from one on. -/
def readEdges (s : State) (x : CtxId) (at_ : Nat) : Nat → Except ReadStop (List (Nat × Nat))
  | 0 => .ok []
  | n + 1 => do
    let bs ← deviceRead s x at_ 4
    let as ← readEdges s x (at_ + 4) n
    .ok ((imgField bs 0 2, imgField bs 2 2) :: as)

/-- R263: edges left when nodes without predecessors are taken away, `fuel` times. -/
def peelEdges : (fuel : Nat) → List (Nat × Nat) → List (Nat × Nat)
  | 0, es => es
  | fuel + 1, es => peelEdges fuel (es.filter (fun e => es.any (fun f => f.2 == e.1)))

/-- R263: the shape of the graph. -/
def graphOk (nnode sink : Nat) (es : List (Nat × Nat)) : Bool :=
  es.all (fun e => e.1 < nnode && e.2 < nnode && e.1 != e.2) && decide es.Nodup && (peelEdges nnode es).isEmpty
    && (List.range nnode).all (fun n => (n == sink) == !es.any (fun e => e.1 == n))

/-- R260 to R263: a context's graph image. -/
def readGraph (s : State) (x : CtxId) (image : Nat) : Except ReadStop Graph := do
  let bs ← deviceRead s x image 64
  let nnode := imgField bs 2 2
  let nedge := imgField bs 4 2
  let sink := imgField bs 6 2
  let tmode := imgField bs 8 1
  let nodeoff := imgField bs 16 8
  let edgeoff := imgField bs 24 8
  let trace := imgField bs 32 8
  needImage (imgField bs 0 2 == 1 && 1 ≤ nnode && nnode ≤ 1024 && nedge ≤ 16384 && sink < nnode && tmode ≤ 2
    && imgField bs 9 7 == 0 && nodeoff % 64 == 0 && edgeoff % 4 == 0 && trace % 32 == 0 && (tmode != 0 || trace == 0)
    && imgField bs 44 20 == 0 && (tmode == 0 || (getCtx s x).attr.getLsbD 0))
  let nodes ← readNodes s x (image + nodeoff) nnode
  let edges ← readEdges s x (image + edgeoff) nedge
  needImage (graphOk nnode sink edges)
  .ok { nodes := nodes, edges := edges, sink := sink, tmode := tmode, trace := w64 trace, tcap := imgField bs 40 4 }

/-! ### Admission (R266, R267) -/

/-- What becomes of a launch that follows another. -/
inductive After
  | go | wait | dead
  deriving DecidableEq, Repr

/-- R266, R267: has the instance that AFTER names fired its trigger or retired OK? -/
def afterOf (s : State) (k : Kernel) : After :=
  if k.after = 0 then .go
  else match (getCaux s k.ctx).retired.find? (fun r => r.1 == k.after) with
    | some r => if r.2.1 = .ok || r.2.2 then .go else .dead
    | none =>
      match findKern s k.after with
      | some j => if j.st = .triggered then .go else .wait
      | none => .go

/-- R267: a kernel is admitted: its counter starts at zero, it is counted, and its roots open. -/
def admitKernel (s : State) (k : Kernel) (g : Graph) : State :=
  let s := modKern s k.kinst (fun y => { y with
    st := .admitted, graph := g, insts := List.replicate g.nodes.length {}, counter := 0 })
  let s := modCtx s k.ctx (fun c => { c with krun := c.krun + 1 })
  let s := if (getCtx s k.ctx).st = .ready then setCtxSt s k.ctx .running else s
  let s := launchStatus s k 0
  settleNodes s k.kinst (nodeFuel s k.kinst)

/-- R235, R267: does the context admit kernels? -/
def admits (s : State) (x : CtxId) : Bool :=
  let c := (getCtx s x).st
  (c == .ready || c == .running || c == .parked) && (getCaux s x).ws.isEmpty

/-- KERNEL_ADMIT (R266, R267): a held launch of a context whose AFTER has failed retires as CANCELLED; else the first is
admitted, or found malformed. -/
def execKernelAdmit (x : CtxId) (s : State) : Out :=
  let held := s.disp.kerns.filter (fun k => k.ctx == x && k.st == .held)
  match held.find? (fun k => afterOf s k == .dead) with
  | some k => .next (retireHeld s k .cancelled)
  | none =>
    match held with
    | [] => .fault .notEnabled
    | k :: _ =>
      if !admits s x || afterOf s k ≠ .go then .fault .notEnabled
      else match readGraph s x k.image.toNat with
        | .error .wait => .fault .notEnabled
        | .error (.bad c) => .next (retireHeld s k c)
        | .ok g => .next (admitKernel s k g)

/-! ### Gang placement (R289, R291) -/

/-- The park images of an instance that resume as a gang, in order of rank. -/
def gangImages (s : State) (k : Kernel) (n : Nat) : List ParkImg :=
  let rank (i : ParkImg) : Nat := (i.bank.task.map (·.rank)).getD 0
  ((getCaux s k.ctx).images.filter (fun i => i.gang && (match i.bank.task with
    | some t => t.isOf k.kinst n
    | none => false))).mergeSort (fun a b => rank a ≤ rank b)

/-- The members of an instance that wait in its pool, in order of rank. -/
def poolMembers (i : NodeInst) : List QTask :=
  (i.pool.filter (fun q => q.task.member)).mergeSort (fun a b => a.task.rank ≤ b.task.rank)

/-- How many cores a gang group needs: those of its images, or of its members. -/
def gangSize (s : State) (k : Kernel) (n : Nat) (i : NodeInst) : Nat :=
  let m := (gangImages s k n).length
  if m = 0 then i.g else m

/-- R289: the cores that could ever serve an affinity: present, not fenced. -/
def everCores (s : State) (affinity : BitVec 16) : List CoreId :=
  allCores.filter (fun c => affinity.getLsbD (dieOf c).val && (getDie s (dieOf c)).st != .absent && !(s.ctl.get c).fenced)

/-- R278: the cores that a bound trace gives the members of a gang group, in order of rank, if it gives distinct ones to
all. -/
def gangReplay (s : State) (k : Kernel) (i : NodeInst) : Option (List CoreId) :=
  let cs := (poolMembers i).map (fun q => (replayPlace s q.task false).join)
  if k.bound && !cs.isEmpty && cs.all (·.isSome) && decide cs.Nodup then some (cs.filterMap id) else none

/-- R289: the eligible cores of an instance: dies in the order of R271, cores in ascending number. -/
def dieCores (s : State) (k : Kernel) (n : Nat) (affinity : BitVec 16) : List CoreId :=
  let ok := allCores.filter (eligible s affinity)
  let dies := ((ok.map dieOf).dedup).mergeSort (fun a b =>
    onDie s k.kinst n b < onDie s k.kinst n a || (onDie s k.kinst n a == onDie s k.kinst n b && a.val ≤ b.val))
  dies.flatMap (fun d => ok.filter (fun c => dieOf c == d))

/-- R278, R289: the cores that an instance's group lists: a bound trace's, or the eligible ones in order. -/
def gangList (s : State) (k : Kernel) (n : Nat) (affinity : BitVec 16) : List CoreId :=
  match (getInst s k.kinst n).bind (fun i => if (gangImages s k n).isEmpty then gangReplay s k i else none) with
  | some cs => cs
  | none => dieCores s k n affinity

/-- R278: may every listed core start its member of a group now? -/
def gangTurn (s : State) (k : Kernel) (n : Nat) (affinity : BitVec 16) : Bool :=
  !(gangImages s k n).isEmpty || (List.zip (gangList s k n affinity) (((getInst s k.kinst n).map poolMembers).getD [])).all
    (fun p => replayAllows s p.1 p.2.task false)

/-- Every node instance, with its kernel, number and node. -/
def allInsts (s : State) : List (Kernel × Nat × Node × NodeInst) :=
  s.disp.kerns.flatMap (fun k => (List.zip (List.range k.insts.length) (List.zip k.graph.nodes k.insts)).map (fun p =>
    (k, p.1, p.2.1, p.2.2)))

/-- R289, R291, R315: may a gang group be reserved and placed: its instance OPEN, or FROZEN by nothing but images of the group
whose handlers have decided? A decision takes effect as the image resumes, so that such an instance could not become OPEN
(DESIGN CHOICE, assumption 67). -/
def gangOpen (s : State) (k : Kernel) (n : Nat) (i : NodeInst) : Bool :=
  i.st == .open_ || (i.st == .frozen && !(gangImages s k n).isEmpty
    && !(bankTasks s).any (fun t => t.2.2.isOf k.kinst n && (getAux s t.1 t.2.1).freeze.any (·.done))
    && (getCaux s k.ctx).images.all (fun m => !taskIs k.kinst n m.bank.task
        || (match m.aux.freeze with
            | none => true
            | some z => m.gang && z.decided.isSome)))

/-- When an instance became PENDING, if it is. -/
def pendingSince (i : NodeInst) : Option Nat :=
  match i.gang with
  | .pending t => some t
  | .none | .reserving _ _ | .placed => none

/-- R289: a gang that can never be placed is cancelled with a DEADLINE event. -/
def cancelGang (s : State) (k : Kernel) (n : Nat) : State :=
  let s := logEvent (modStats s k.kinst (fun x => { x with misses := x.misses + 1 })) k.ctx 0x07 0xFF 0xFFFF n k.kinst 0
  cancelNode s k.kinst n false

/-- GANG_RESERVE (R289): a PENDING group with too few cores for ever is cancelled; else the first in order of priority and
age with enough eligible cores lists them. -/
def execGangReserve (s : State) : Out :=
  let ps := (allInsts s).filter (fun p => (pendingSince p.2.2.2).isSome && gangOpen s p.1 p.2.1 p.2.2.2)
  match ps.find? (fun p => (everCores s p.2.2.1.affinity).length < gangSize s p.1 p.2.1 p.2.2.2) with
  | some p => .next (cancelGang s p.1 p.2.1)
  | none =>
    if (allInsts s).any (fun p => (reserved p.2.2.2).isSome) then .fault .notEnabled
    else
      let can := ps.filter (fun p => dispatches s p.1.ctx && classAllowed s p.2.2.1.eclass
        && gangSize s p.1 p.2.1 p.2.2.2 ≤ (gangList s p.1 p.2.1 p.2.2.1.affinity).length
        && gangTurn s p.1 p.2.1 p.2.2.1.affinity)
      match argMin (fun (p : Kernel × Nat × Node × NodeInst) =>
          p.2.2.1.prio.val * (s.disp.order + 1) + (pendingSince p.2.2.2).getD 0) can with
      | none => .fault .notEnabled
      | some p => .next (modInst s p.1.kinst p.2.1 (fun i => { i with
          gang := .reserving ((pendingSince i).getD 0) ((gangList s p.1 p.2.1 p.2.2.1.affinity).take (gangSize s p.1 p.2.1 p.2.2.2)) }))

/-- R289: is a listed core's bank FREE, so that it is held? A shadow bank that a swap is about to fill is not. -/
def canHold (s : State) (c : CoreId) (b : BankId) : Bool :=
  coreServes s c && (getBank s c b).task.isNone && !heldNow s c b && (b == .active || (match (getCore s c).swap with
    | .none | .toActive _ => true
    | .toShadow _ _ | .urgent => false))

/-- R96, R99: what enters a shadow bank that a group holds: by a swap, or, while the core swaps back, in its place. -/
def enterHeld (s : State) (c : CoreId) (e : Enters) : State :=
  match (getCore s c).swap with
  | .toActive due => modCore s c (fun k => { k with swap := .toShadow due e })
  | .none | .toShadow _ _ | .urgent => beginSwap s c e

/-- R96, R289: a member of the group starts in its held bank, SUSPENDED while an urgent task has its core, or enters it by
the swap. -/
def placeMember (s : State) (c : CoreId) (b : BankId) (q : QTask) : State :=
  match b with
  | .active =>
    let s := modAux (startTask (passP3 s c) c .active q) c .active (fun a => { a with gang := true })
    if (getCore s c).urgen then modBank s c .active (fun k => k.onStreams suspendStream) else s
  | .shadow => enterHeld s c (.start q)

end Sys2Proof.Machine
end

