-- ==== Sys2Proof/Machine/Park.lean ====
section
/-! DEFINITION. Park images (R239 to R244, R315, R317), their resumption, the start of the shadow bank (R96), the placing
of gang groups (R289, R291) and the end of shed instances (R236, R318). -/

namespace Sys2Proof.Machine

/-! ### Imaging (R239, R315) -/

/-- R239 step 1, R86: a stream at a park: words that have not begun are evaluated again from step 3. -/
def parkStream (x : StreamSt) : StreamSt := { unsuspend x with passed := 2, watching := none, stalledFor := 0 }

/-- R99, R239, R315, R378: is a bank to be imaged: by the grade in force, since its core is fenced, or, a shadow bank, since
it is frozen? -/
def imageDue (s : State) (c : CoreId) (b : BankId) : Bool :=
  struck s c b || (b == .shadow && (getBank s c b).task.isSome && (getAux s c b).freeze.any (·.done))

/-- R239, R240, R315, R378: is a bank to be imaged, and ready for it: no word of it past step 8, no freeze begun but not
done, and a slot free? -/
def parkable (s : State) (c : CoreId) (b : BankId) : Bool :=
  let k := getBank s c b
  imageDue s c b && k.task.any (fun t => (freeSlot (getCaux s t.ctx)).isSome)
    && k.l.pending.isNone && k.x.pending.isNone && k.s.pending.isNone
    && (match (getAux s c b).freeze with
        | some z => z.done
        | none => true)

/-- PARK_IMAGE (R239, R315): dies in ascending order; of one core the shadow bank first. -/
def execParkImage (c : CoreId) (b : BankId) (s : State) : Out :=
  if !parkable s c b || (b = .active && imageDue s c .shadow)
      || allBanks.any (fun t => (dieOf t.1).val < (dieOf c).val && parkable s t.1 t.2)
  then .fault .notEnabled
  else .next (parkBank (modBank s c b (fun k => k.onStreams parkStream)) c b)

/-! ### Restoring (R242, R243) -/

/-- R242 step 1: have the operations that the bank issued on its park die completed? A lost die ends the wait. -/
def imageSettled (s : State) (i : ParkImg) : Bool :=
  let d := dieOf i.core
  (getDie s d).st == .absent || (getDie s d).st == .resetting
    || (List.range 10).all (fun n => ((i.last[n]?).getD 0).toNat ≤ (dieCounter s d (Fin.ofNat 10 n)).toNat)

/-- What a task has in flight answers to where it runs now. -/
def reagent (s : State) (task : Word) (c : CoreId) (b : BankId) : State :=
  let to_ (g : Agent) : Agent := { g with core := c, bank := b }
  let s := modMs s (fun m => { m with atomics := m.atomics.map (fun r =>
    if r.task = task then { r with agent := to_ r.agent } else r) })
  { s with dies := s.dies.map (fun d => { d with
      cp := d.cp.map (fun k => { k with ops := k.ops.map (fun o => if o.task = task then { o with agent := to_ o.agent } else o) })
      mgOps := d.mgOps.map (fun o => if o.task = task then { o with agent := to_ o.agent } else o)
      coOps := d.coOps.map (fun o => if o.task = task then { o with agent := to_ o.agent } else o) }) }

/-- R242 step 4, R293: what an image brings to a core's stores and barriers. -/
def restoreStores (k : Core) (i : ParkImg) : Core :=
  let lo := bits k.accres 5 0
  let inRes (u : Nat) : Bool := lo * 512 ≤ u && u < (lo + bits k.accres 12 8) * 512
  if i.shadow then
    { k with
      acc := Mem.writeCells (tilePart k.accres false k.acc) (tilePart k.accres true i.acc)
      spad := Mem.writeCells (spadPart false k.spad) (spadPart true i.spad)
      badAcc := k.badAcc.filter (fun u => !inRes u) ++ i.badAcc.filter inRes
      badSpad := k.badSpad.filter (fun u => u < 0x7000) ++ i.badSpad.filter (fun u => 0x7000 ≤ u)
      nb := Vector.ofFn (fun (n : Fin 32) => if 28 ≤ n.val then (i.nb[n.val - 28]?).getD {} else k.nb.get n) }
  else if k.urgen then
    { k with
      acc := Mem.writeCells (tilePart k.accres true k.acc) (tilePart k.accres false i.acc)
      spad := Mem.writeCells (spadPart true k.spad) (spadPart false i.spad)
      badAcc := k.badAcc.filter inRes ++ i.badAcc.filter (fun u => !inRes u)
      badSpad := k.badSpad.filter (fun u => 0x7000 ≤ u) ++ i.badSpad.filter (fun u => u < 0x7000)
      nb := Vector.ofFn (fun (n : Fin 32) => if 28 ≤ n.val then k.nb.get n else (i.nb[n.val]?).getD {}) }
  else
    { k with acc := i.acc, spad := i.spad, racing := [], badAcc := i.badAcc, badSpad := i.badSpad
             nb := Vector.ofFn (fun (n : Fin 32) => (i.nb[n.val]?).getD {}) }

/-- The slot of an image is freed. -/
def freeImage (s : State) (x : CtxId) (slot : Nat) : State :=
  modCaux s x (fun a => { a with images := a.images.filter (fun m => m.slot != slot) })

/-- R242 steps 2 to 5, R243: an image is restored in a bank of a core. -/
def restoreImage (s : State) (x : CtxId) (i : ParkImg) (c : CoreId) (b : BankId) (t : Task) : State :=
  let s := freeImage (passBank s c b x) x i.slot
  let views := viewOffsets s (dieOf c) i.viewV
  let k := { i.bank with eng := { i.bank.eng with
    view := Vector.ofFn (fun (n : Fin 10) => (views[n.val]?).getD 0), lastDie := Vector.replicate 10 0 } }
  let k := if b = .active && (getCore s c).urgen then k.onStreams (fun y => { y with suspended := true }) else k
  let s := modCore s c (fun y => (restoreStores y i).setBank b k)
  let s := modAux s c b (fun a => { a with freeze := i.aux.freeze, ktrig := i.aux.ktrig, gang := i.gang, sb := [], hold := none })
  let s := reagent s t.key c b
  let s := forwardTo (touch s x (dieOf c)) x t.key c
  let s := if (getCtx s x).st = .parked then setCtxSt s x .running else s
  let s := logEvent s x 0x04 (dieOf c).val c.val i.slot t.kinst t.handle.toNat
  match i.aux.freeze with
  | some z => (match z.decided with
      | some retry => resumeFrozen s c b z retry
      | none => s)
  | none => s

/-- R242, R291: an image resumes in a bank: restored, or, lost and retried, as a fresh task. -/
def resumeImage (s : State) (x : CtxId) (i : ParkImg) (c : CoreId) (b : BankId) : State :=
  match i.bank.task with
  | none => freeImage s x i.slot
  | some t =>
    if i.fresh then
      let s := freeImage s x i.slot
      modAux (startTask s c b { task := t, start := { pc := i.bank.l.pc.setWidth 64 }, order := 0 }) c b
        (fun a => { a with gang := i.gang })
    else restoreImage s x i c b t

/-! ### IMAGE_RESUME (R242, R244, R317) -/

/-- The bank kind of an image. -/
def ParkImg.kind (i : ParkImg) : BankId := if i.shadow then .shadow else .active

/-- R96, R242: is an image entering a shadow bank by a swap? -/
def imageEnters (s : State) (x : CtxId) (i : ParkImg) : Bool :=
  allCores.any (fun c => match (getCore s c).swap with
    | .toShadow _ (.image y n) => y == x && n == i.slot
    | .toShadow _ _ | .none | .urgent | .toActive _ => false)

/-- The physical address of an image's slot (R240). -/
def slotBase (s : State) (x : CtxId) (i : ParkImg) : Nat := (getCtx s x).park.toNat + 0x800000 * i.slot

/-- R242: is a write of an image still to be performed at some die? -/
def imageFlying (s : State) (x : CtxId) (i : ParkImg) : Bool :=
  let base := slotBase s x i
  writeInFlight s (fun w => w.cells.any (fun c => base ≤ c.1 && c.1 < base + 0x800000))

/-- R242, R244, R315: may an image resume now, but for a place? -/
def imageReady (s : State) (x : CtxId) (i : ParkImg) : Bool :=
  !imageEnters s x i && !imageFlying s x i && (match i.bank.task with
   | some t => dispatches s x && classAllowed s t.eclass
   | none => false)
  && imageSettled s i
  && (match i.aux.freeze with
      | some z => z.decided.isSome || (z.src != .image && !i.shadow)
      | none => true)

/-- R242 step 2, R271: can a core take an image: its bank free, and room in its tile queue? -/
def imageRoom (s : State) (i : ParkImg) (c : CoreId) : Bool :=
  (getBank s c i.kind).task.isNone && !listedNow s c i.kind && (getCore s c).work.tile.length < 8
    && (if i.shadow then (getCore s c).swap == .none else (getCore s c).swap == .none || (getCore s c).swap == .urgent)

/-- R271, R288: the core of an image. -/
def imageCore (s : State) (i : ParkImg) : Option CoreId :=
  match i.bank.task with
  | none => none
  | some t => match getNode s t.kinst t.node with
    | some n => placeCore s t.kinst t.node n.affinity (imageRoom s i)
    | none => none

/-- The place of an image in the order of R317. -/
def imageRank (i : ParkImg) : Nat := ((i.bank.task.map (fun t => t.prio.val)).getD 0) * 2 ^ 64 + i.pseq.toNat

/-- R317: no other image that may resume goes first. -/
def imageFirst (s : State) (i : ParkImg) : Bool :=
  allCtxs.all (fun y => (getCaux s y).images.all (fun j =>
    imageRank i ≤ imageRank j || j.gang || !imageReady s y j || (imageCore s j).isNone))

/-- R244: an image is lost: its task's node freezes with ECCU. The record's PC is not stated: a free value. -/
def loseImage (s : State) (x : CtxId) (i : ParkImg) (t : Task) : State :=
  let f : FaultInfo := { flt .eccu 0 (w64 i.slot) with
    unit := 9, coreid := coreId i.core, pc := Config.freeWord s.fresh, cycle := dieCycle s (dieOf i.core) }
  let s := { s with fresh := s.fresh + 1 }
  let s := logEvent s x 0x0B (dieOf i.core).val i.core.val i.slot t.kinst t.handle.toNat
  let z : Freeze := { info := f, src := .image, stream := .l, since := s.cal.cycle, done := true }
  let s := modCaux s x (fun a => { a with
    images := a.images.map (fun m => if m.slot = i.slot then { m with aux := { m.aux with freeze := some z } } else m) })
  let s := noteFrozen s x t.key f
  let s := modStats s t.kinst (fun y => { y with faults := y.faults + 1 })
  let s := freezeNode s t.kinst t.node
  match t.kind, getNode s t.kinst t.node with
  | .handler _, _ => faultContext s x f
  | _, some node => if node.handler = 0 then faultContext s x f else spawnHandler s t f node
  | _, none => faultContext s x f

/-- R244: can an image be read whole: no error has struck its slot, its VERSION is 0x0001, its park area is not lost? -/
def imageWhole (s : State) (x : CtxId) (i : ParkImg) : Bool :=
  let base := slotBase s x i
  !i.bad && !s.ms.latent.any (fun f => base < 65536 * (f + 1) && 65536 * f < base + 0x800000)
    && ofBytes (viewBytes s.ms (dieOf i.core) base 2) == 1
    && !((tableHome base).any (dieGone s))

/-- IMAGE_RESUME (R242, R244, R291, R317): a gang's images resume by GANG_BANK_HOLD; a shadow image enters by the swap. A
task that starts afresh reads no image. -/
def execImageResume (x : CtxId) (slot : Nat) (readable : Bool) (s : State) : Out :=
  match (getCaux s x).images.find? (fun i => i.slot == slot) with
  | none => .fault .notEnabled
  | some i =>
    match i.bank.task with
    | none => .fault .notEnabled
    | some t =>
      if !imageReady s x i then .fault .notEnabled
      else if !i.fresh && !(readable && imageWhole s x i) then .next (loseImage s x i t)
      else if i.gang || !imageFirst s i then .fault .notEnabled
      else match imageCore s i with
        | none => .fault .notEnabled
        | some c => if i.shadow then .next (beginSwap s c (.image x slot)) else .next (resumeImage s x i c .active)

/-! ### SHADOW_BANK_START (R96) -/

/-- R245: a continuation goes back to its core's queue, or waits with the dispatcher for room. -/
def returnReady (s : State) (c : CoreId) (r : Ready) : State :=
  if (getCore s c).work.ready.length < 64 then pushReady s c r
  else modDisp s (fun d => { d with waits := d.waits ++ [{ core := some c, what := .ready r }] })

/-- Does a task of a gang group that was placed with it run in a bank? -/
def gangRuns (s : State) (kinst : Word) (n : Nat) : Bool :=
  (bankTasks s).any (fun t => t.2.2.isOf kinst n && (getAux s t.1 t.2.1).gang)

/-- R289: a gang group of which no member has started yet is PENDING again. -/
def gangAgain (s : State) (kinst : Word) (n : Nat) : State :=
  if gangRuns s kinst n then s
  else modInst s kinst n (fun i => { i with gang := if i.gang = .placed then .pending i.opened else i.gang })

/-- R246, R247, R289, R291: an entry that is barred meanwhile goes back: to a queue of its core, to the head of its pool if
its instance is FROZEN or it is a member of a gang group, and the group, if no member has started, to PENDING. -/
def returnEntry (s : State) (c : CoreId) (e : Enters) : State :=
  match e with
  | .start q =>
    (match q.task.kind with
     | .cont => returnReady s c { what := .start q, pinned := true, prio := q.task.prio, order := q.order }
     | .renq => enterEngine s (some c) q
     | .handler _ => enterEngine s none q
     | .member | .spawned =>
       let s := gangAgain s q.task.kinst q.task.node
       if !heldByFreeze s q.task && ((getInst s q.task.kinst q.task.node).any (fun i => i.gang == .none) || !q.task.member)
         && (getCore s c).work.tile.length < 8
       then modCore s c (fun k => { k with work := { k.work with tile := k.work.tile ++ [q] } })
       else modInst s q.task.kinst q.task.node (fun i => { i with pool := q :: i.pool }))
  | .slot x n => readyCont s x n (if (getCore s c).work.ready.length < 64 then some c else none)
  | .image x n =>
    (match ((getCaux s x).images.find? (fun i => i.slot == n && i.gang)).bind (fun i => i.bank.task) with
     | some t => modInst s t.kinst t.node (fun i => { i with gang := if i.gang = .placed then .pending i.opened else i.gang })
     | none => s)

/-- Is an image of a gang group? -/
def gangImage (s : State) (e : Enters) : Bool :=
  match e with
  | .image x n => (getCaux s x).images.any (fun i => i.slot == n && i.gang)
  | .start _ | .slot _ _ => false

/-- The task of what a swap has taken. -/
def entersTask (s : State) (e : Enters) : Option Task :=
  match e with
  | .start q => some q.task
  | .slot x n => ((getCaux s x).conts.find? (fun k => k.slot == n)).map (·.task)
  | .image x n => ((getCaux s x).images.find? (fun i => i.slot == n)).bind (fun i => i.bank.task)

/-- Is a task a member of a gang group that has been placed? -/
def inPlacedGang (s : State) (t : Task) : Bool :=
  t.member && (match getInst s t.kinst t.node with
    | some i => i.gang == .placed
    | none => false)

/-- R96: what a swap has taken starts in the shadow bank. -/
def enterShadow (s : State) (c : CoreId) (e : Enters) : State :=
  match e with
  | .start q => modAux (startTask s c .shadow q) c .shadow (fun a => { a with gang := inPlacedGang s q.task })
  | .slot _ _ => enterBank s c .shadow e
  | .image x n => (match (getCaux s x).images.find? (fun i => i.slot == n) with
      | some i => resumeImage s x i c .shadow
      | none => s)

/-- R233, R247, R289, R313: may what a swap has taken start now? An image resumes although its instance is FROZEN. A gang
group that is PENDING again starts whole. -/
def mayEnter (s : State) (t : Task) (e : Enters) : Bool :=
  classAllowed s t.eclass && dispatches s t.ctx
    && (!(t.member || gangImage s e) || (getInst s t.kinst t.node).all (fun i => i.gang == .none || i.gang == .placed))
    && (match e with
        | .image _ _ => true
        | .start _ | .slot _ _ => !heldByFreeze s t)

/-- R244: the image that a swap has taken, if it cannot be read whole any more. -/
def spoiled (s : State) (e : Enters) : Option (CtxId × ParkImg) :=
  match e with
  | .image x n => ((getCaux s x).images.find? (fun i => i.slot == n && !i.fresh && !imageWhole s x i)).map (fun i => (x, i))
  | .start _ | .slot _ _ => none

/-- SHADOW_BANK_START (R96): a task cancelled or barred meanwhile does not start, and the swap back begins. -/
def execShadowBankStart (c : CoreId) (s : State) : Out :=
  match (getCore s c).swap with
  | .toShadow due e =>
    if s.cal.cycle < due then .fault .notEnabled
    else
      let back (s : State) : State := modCore s c (fun k => { k with swap := .toActive (s.cal.cycle + 64) })
      if !entersLive s e then .next (back s)
      else match entersTask s e with
        | none => .next (back s)
        | some t =>
          if !mayEnter s t e then .next (back (returnEntry s c e))
          else match spoiled s e with
            | some (x, i) => .next (back (loseImage (returnEntry s c e) x i t))
            | none => .next (enterShadow (modCore s c (fun k => { k with swap := .urgent })) c e)
  | .none | .toActive _ | .urgent => .fault .notEnabled

/-! ### GANG_BANK_HOLD (R289, R291) -/

/-- R291: the images of a gang enter their cores. -/
def placeImages (s : State) (x : CtxId) (b : BankId) : List (CoreId × ParkImg) → State
  | [] => s
  | (c, i) :: l =>
    let s := match b with
      | .active => resumeImage s x i c .active
      | .shadow => enterHeld s c (.image x i.slot)
    placeImages s x b l

/-- R289: the members of a gang enter their cores, rank j on the j-th. -/
def placeMembers (s : State) (b : BankId) : List (CoreId × QTask) → State
  | [] => s
  | (c, q) :: l => placeMembers (placeMember s c b q) b l

/-- R289, R291: every listed bank is held: the group is PLACED. -/
def placeGang (s : State) (k : Kernel) (n : Nat) (b : BankId) (cores : List CoreId) : State :=
  let imgs := gangImages s k n
  let s := foldAll s cores (fun s c => modAux s c b (fun a => { a with hold := none }))
  match getInst s k.kinst n with
  | none => s
  | some i =>
    let s := modInst s k.kinst n (fun i => { i with gang := .placed })
    if !imgs.isEmpty then placeImages s k.ctx b (List.zip cores imgs)
    else
      let ms := poolMembers i
      let s := modInst s k.kinst n (fun i => { i with pool := i.pool.filter (fun q => !q.task.member) })
      placeMembers s b (List.zip cores ms)

/-- Is every member of a gang fit to start: its class not barred, its images settled, decided and whole? -/
def gangFit (s : State) (k : Kernel) (n : Nat) (node : Node) (i : NodeInst) : Bool :=
  gangOpen s k n i && dispatches s k.ctx && classAllowed s node.eclass 
    && (gangImages s k n).all (fun m => imageReady s k.ctx m && (m.fresh || imageWhole s k.ctx m))

/-- GANG_BANK_HOLD (R289): a listed core's bank is held; once every listed bank is, and the members may start, the group
is placed. -/
def execGangBankHold (c : CoreId) (s : State) : Out :=
  match (allInsts s).find? (fun p => ((reserved p.2.2.2).getD []).contains c) with
  | none => .fault .notEnabled
  | some p =>
    let b := prioBank p.2.2.1
    let cores := (reserved p.2.2.2).getD []
    let place (s : State) : Bool := cores.all (fun d => heldNow s d b) && gangFit s p.1 p.2.1 p.2.2.1 p.2.2.2
    if canHold s c b then
      let s := modAux s c b (fun a => { a with hold := some (p.1.kinst, p.2.1) })
      .next (if place s then placeGang s p.1 p.2.1 b cores else s)
    else if place s then .next (placeGang s p.1 p.2.1 b cores)
    else .fault .notEnabled

/-! ### SHED_END (R236, R290, R318) -/

/-- R318: an instance of E2 or E3 that has started a task and has not ended. -/
def shedDue (p : Kernel × Nat × Node × NodeInst) : Bool :=
  2 ≤ p.2.2.1.eclass.val && 0 < p.2.2.2.started && (p.2.2.2.st == .open_ || p.2.2.2.st == .frozen)

/-- The tasks of an instance that have started and not ended, as the dispatcher finds them. -/
def startedTasks (s : State) (p : Kernel × Nat × Node × NodeInst) : List Task :=
  let mine (t : Task) : Bool := t.isOf p.1.kinst p.2.1
  (((bankTasks s).map (fun t => t.2.2)).filter mine) ++ ((getCaux s p.1.ctx).images.filterMap (fun i => i.bank.task)).filter mine
    ++ ((getCaux s p.1.ctx).conts.map (·.task)).filter mine

/-- R236, R238: a shed ends tasks of a DET context. -/
def detBreak (s : State) (x : CtxId) (first : Word) : State :=
  let s := foldAll s (s.disp.kerns.filter (fun k => k.ctx == x && k.st != .held)) (fun s k =>
    modStats s k.kinst (fun y => { y with detbreak := true }))
  logEvent s x 0x08 0xFF 0xFFFF 0 0 first.toNat

/-- R236: the DET contexts that a shed strikes, each with the first task ended. -/
def detStruck (s : State) (ps : List (Kernel × Nat × Node × NodeInst)) : List (CtxId × Word) :=
  allCtxs.filterMap (fun x =>
    if !(getCtx s x).attr.getLsbD 0 then none
    else ((ps.filter (fun p => p.1.ctx == x)).flatMap (startedTasks s)).head?.map (fun t => (x, t.handle)))

/-- SHED_END (R318). -/
def execShedEnd (s : State) : Out :=
  let ps := (allInsts s).filter shedDue
  if s.bud.grade < 3 || ps.isEmpty then .fault .notEnabled
  else
    let s := foldAll s (detStruck s ps) (fun s p => detBreak s p.1 p.2)
    .next (foldAll s ps (fun s p => cancelNode s p.1.kinst p.2.1 true))

end Sys2Proof.Machine
end

