-- ==== Sys2Proof/Machine/Health.lean ====
section
/-! DEFINITION. Soft errors (R376), targeted self-tests and retirement (R377, R378), and the loss and return of a die (R22
to R25). -/

namespace Sys2Proof.Machine

/-! ### Soft errors (R376) -/

/-- The core of a structure. -/
def structCore (e : Structure) : Option CoreId :=
  match e with
  | .icache c | .coreTlb c | .vreg c _ _ | .mreg c _ _ | .age c _ _ | .queue c _ _ _ | .sreg c _ _ | .token c _ _ _
  | .spad c _ | .acc c _ | .datapath c _ => some c
  | .reg g _ | .lc g _ | .waitTable g _ => some g.core
  | .tlb _ | .cache _ | .dirty _ _ | .dram _ _ | .frame _ | .dramBus _ | .laneGroup _ _ | .island _ => none

/-- A mark in a set of marks. -/
def setMark {w : Nat} (v : BitVec w) (n : Nat) : BitVec w := v ||| (1 <<< n)

/-- R376: an uncorrectable error marks the entry of a core's structure. -/
def markEntry (s : State) (e : Structure) : State :=
  match e with
  | .reg g n => modBankOf s g (fun k => match g.stream with
      | .l => { k with a := { k.a with badL := setMark k.a.badL n.val } }
      | .s => { k with a := { k.a with badS := setMark k.a.badS n.val } }
      | .x => { k with vec := { k.vec with badV := setMark k.vec.badV n.val } })
  | .lc g n => modRegsOf s g (fun r => { r with badLc := setMark r.badLc n.val })
  | .waitTable g n => modRegsOf s g (fun r => { r with badWt := setMark r.badWt n.val })
  | .vreg c b n => modBank s c b (fun k => { k with vec := { k.vec with badV := setMark k.vec.badV n.val } })
  | .mreg c b n => modBank s c b (fun k => { k with vec := { k.vec with badM := setMark k.vec.badM n.val } })
  | .age c b n => modBank s c b (fun k => { k with vec := { k.vec with h := vmod k.vec.h n (fun h => { h with bad := true }) } })
  | .queue c b q pos => modBank s c b (fun k => { k with q := vmod k.q q (fun f => { f with
      items := modAt f.items pos (fun h => { h with bad := true }) }) })
  | .token c b f pos => modBank s c b (fun k => { k with tk := vmod k.tk f (fun t => { t with
      items := modAt t.items pos (fun _ => true) }) })
  | .spad c u => modCore s c (fun k => { k with badSpad := if k.badSpad.contains u then k.badSpad else k.badSpad ++ [u] })
  | .acc c u => modCore s c (fun k => { k with badAcc := if k.badAcc.contains u then k.badAcc else k.badAcc ++ [u] })
  | .sreg c b n => modBank s c b (fun k => { k with sregs := { k.sregs with bad := setMark k.sregs.bad n.val } })
  | .datapath c b => modAux s c b (fun a => { a with datapathBad := true })
  | .icache _ | .tlb _ | .coreTlb _ | .cache _ | .dirty _ _ | .dram _ _ | .frame _ | .dramBus _ | .laneGroup _ _ | .island _ => s

/-- R244: the images that stand in a frame cannot be read whole. -/
def spoilImages (s : State) (f : Nat) : State :=
  let hit (x : CtxId) (i : ParkImg) : Bool := slotBase s x i < 65536 * (f + 1) && 65536 * f < slotBase s x i + 0x800000
  foldAll s (allCtxs.filter (fun x => (getCaux s x).images.any (hit x))) (fun s x => modCaux s x (fun a => { a with
    images := a.images.map (fun i => if hit x i then { i with bad := true } else i) }))

/-- R222, R244, R376: an error in a frame is met: by the pages that map it, the images in it, and every walk that reads it
as a table page. -/
def frameError (s : State) (f : Nat) : State :=
  let s := modMs (spoilImages s f) (fun m => { m with badTables := (m.badTables ++ [f]).dedup, latent := m.latent.filter (· != f) })
  foldAll s (pagesOfFrame s f) (fun s p => pageError s p.1 p.2)

/-- R376: what an error that the code cannot correct does. Entries of caches are dropped and fetched again. -/
def uncorrected (s : State) (e : Structure) : State :=
  match e with
  | .tlb d => modDie s d (fun k => { k with tlb := [] })
  | .coreTlb c => modCore s c (fun k => { k with tlb := [] })
  | .dirty x va | .dram x va => pageError s x va.toNat
  | .frame n => frameError s n.toNat
  | .icache _ | .cache _ | .dramBus _ | .laneGroup _ _ | .island _ => s
  | .reg _ _ | .lc _ _ | .vreg _ _ _ | .mreg _ _ _ | .age _ _ _ | .queue _ _ _ _ | .sreg _ _ _ | .token _ _ _ _
  | .waitTable _ _ | .spad _ _ | .acc _ _ | .datapath _ _ => markEntry s e

/-- R376: does an error of the structure count as corrected whatever the code could do? -/
def refetched (e : Structure) : Bool :=
  match e with
  | .icache _ | .tlb _ | .coreTlb _ | .cache _ => true
  | .dirty _ _ | .reg _ _ | .lc _ _ | .vreg _ _ _ | .mreg _ _ _ | .age _ _ _ | .queue _ _ _ _ | .sreg _ _ _ | .token _ _ _ _
  | .waitTable _ _ | .spad _ _ | .acc _ _ | .datapath _ _ | .dram _ _ | .frame _ | .dramBus _ | .laneGroup _ _ | .island _ => false

/-- Does a structure exist, and carry a code (R376)? -/
def coded (e : Structure) : Bool :=
  match e with
  | .spad _ u => u < 32768
  | .acc _ u => u < 24576
  | .sreg _ _ n => n.val == 4 || (16 ≤ n.val && n.val ≤ 20)
  | .laneGroup _ _ | .dramBus _ => false
  | .icache _ | .tlb _ | .coreTlb _ | .cache _ | .dirty _ _ | .reg _ _ | .lc _ _ | .vreg _ _ _ | .mreg _ _ _ | .age _ _ _
  | .queue _ _ _ _ | .token _ _ _ _ | .waitTable _ _ | .datapath _ _ | .dram _ _ | .frame _ | .island _ => true

/-- The frame of a page, if it has one. -/
def frameOfPage (s : State) (x : CtxId) (va : Nat) : Option Nat :=
  match homeLeaf s x va with
  | .leaf l => if 1 ≤ eTIER l.entry && eTIER l.entry ≤ 3 then some (leafPa l va / 65536) else none
  | .none | .malformed _ | .failed _ _ => none

/-- R377: the structure whose self-test an error makes due: of a page, its DRAM rows, by the frame that it has then. -/
def testOf (s : State) (e : Structure) : Structure :=
  match e with
  | .dram x va => (match frameOfPage s x va.toNat with
      | some f => .frame (BitVec.ofNat 28 f)
      | none => e)
  | .icache _ | .tlb _ | .coreTlb _ | .cache _ | .dirty _ _ | .reg _ _ | .lc _ _ | .vreg _ _ _ | .mreg _ _ _ | .age _ _ _
  | .queue _ _ _ _ | .sreg _ _ _ | .token _ _ _ _ | .waitTable _ _ | .spad _ _ | .acc _ _ | .datapath _ _ | .frame _ | .dramBus _
  | .laneGroup _ _ | .island _ => e

/-- ECC_ERROR (R323, R376): the error takes effect, and its structure is due for a targeted self-test. -/
def execEccError (e : EccEvent) (s : State) : Out :=
  if !coded e.at_ then .fault .notEnabled
  else
    let s := { s with care := { s.care with
      tests := s.care.tests ++ [(testOf s e.at_, s.cal.cycle)]
      corrected := if e.corrected || refetched e.at_ then s.care.corrected + 1 else s.care.corrected } }
    .next (if e.corrected then s else uncorrected s e.at_)

/-! ### Cores and dies that leave (R16, R22, R271, R378) -/

/-- R289: a gang group that lists a core which leaves is PENDING again, and its holds are released. -/
def gangsBack (s : State) (gone : CoreId → Bool) : State :=
  foldAll s (allInsts s) (fun s p => match p.2.2.2.gang with
    | .reserving t cs => if !cs.any gone then s
        else
          let mine (a : BankAux) : BankAux := if a.hold = some (p.1.kinst, p.2.1) then { a with hold := none } else a
          let s := foldAll s cs (fun s c => modAux (modAux s c .active mine) c .shadow mine)
          modInst s p.1.kinst p.2.1 (fun i => { i with gang := .pending t })
    | .none | .pending _ | .placed => s)

/-- Another core for a continuation of a core that leaves, if R271 finds one. -/
def readyElsewhere (s : State) (t : Task) (c : CoreId) : Option CoreId :=
  (getNode s t.kinst t.node).bind (fun n => placeCore s t.kinst t.node n.affinity (fun k =>
    k != c && (getCore s k).work.ready.length < 64))

/-- The entries of a core that leaves: those of its tile queue return to the head of their pools in their order, and the
others go to a core that R271 finds, or wait for one (assumption 32). -/
def rehome (s : State) (c : CoreId) : State :=
  let w := (getCore s c).work
  let s := modCore s c (fun k => { k with work := {} })
  let s := foldAll s w.tile.reverse (fun s q => modInst s q.task.kinst q.task.node (fun i => { i with pool := q :: i.pool }))
  let s := foldAll s w.engine (fun s q => enterEngine s none q)
  foldAll s w.ready (fun s r => match readyTask s r with
    | some t => (match readyElsewhere s t c with
        | some k => pushReady s k r
        | none => modDisp s (fun d => { d with waits := d.waits ++ [{ core := none, what := .ready r }] }))
    | none => s)

/-- A core that takes no further task: what its swap has taken, and its queue entries, go elsewhere. -/
def clearQueues (s : State) (c : CoreId) : State :=
  let s := match (getCore s c).swap with
    | .toShadow _ e => modCore (returnEntry s c e) c (fun k => { k with swap := .none })
    | .none | .urgent | .toActive _ => s
  rehome s c

/-- R378: a core is fenced. -/
def fenceCore (s : State) (c : CoreId) : State :=
  let s := modCtl s c (fun k => { k with fenced := true })
  clearQueues (gangsBack s (fun k => k == c)) c

/-- R23: requests and operations of a lost die go with it. A posted atomic that the atomic path has accepted is performed
all the same, unless it was lost on its way, which is unknown: a free value (R204). -/
def dropRequests (s : State) (d : DieId) : State :=
  modMs s (fun m => { m with
    unplaced := m.unplaced.filter (fun w => w.src != d)
    atomics := (m.atomics.filter (fun r => agentDie r.agent != d || (r.form == .posted && !Config.packetLost r.id))).map (fun r =>
      if agentDie r.agent = d then { r with arrived := true } else r)
    sends := m.sends.filter (fun r => agentDie r.agent != d)
    gbars := m.gbars.filter (fun r => agentDie r.agent != d) })

/-- R23: what is outstanding to a lost die fails at its requester with DIELOST. -/
def failOutstanding (s : State) (d : DieId) : State :=
  let ids := (s.ms.atomics.filter (fun r => r.home == d && !r.back && r.redo != .translate)).map (·.id)
    ++ (s.ms.sends.filter (fun r => r.at_.getD (arrivalDie s r) == d)).map (·.id)
  foldAll s ids (fun s i => failRequest s i .dielost (w64 d.val))

/-- Is a move one of a die's migrator, or into a frame of which the die homes a part, or of a page whose entry the die
holds? -/
def moveOn (m : Move) (d : DieId) : Bool :=
  (match m.by_ with
   | .migr e _ _ => e == d
   | .access | .capo | .host | .wsload _ _ => false)
  || (m.tier != 4 && (if m.hsh then d.val < 8 else m.home == d.val)) || tableHome m.at_ == some d

/-- R22, R23, R351: a die is lost: contexts that it has touched trap, its cores and engines stop, its links reset. -/
def loseDie (s : State) (d : DieId) : State :=
  let mine := allCores.filter (fun c => dieOf c == d)
  let s := foldAll s (s.ms.moves.filter (fun m => moveOn m d)) (fun s m => abandonMove s m 5)
  let s := modDie s d (fun k => { k with st := .resetting })
  let s := foldAll (failOutstanding s d) mine clearQueues
  let s := foldAll s (allCtxs.filter (fun x => (getCtx s x).touched.getLsbD d.val)) (fun s x =>
    trapContext s x .dielost (w64 d.val) 0)
  let s := dropRequests (gangsBack s (fun c => dieOf c == d)) d
  let s := foldAll s mine (fun s c =>
    modCtl (modCore s c (fun k => ({ work := k.work } : Core))) c (fun k => { k with owner := none, sOwner := none }))
  let s := modDie s d (fun k => { k with
    cp := Vector.replicate 8 {}, mg := 0, mgIssued := 0, mgOps := k.mgOps.filter (·.ws), co := 0, coIssued := 0, coOps := [], tlb := [] })
  loseOutbox (resetLinks s d) d

/-- R22: may a die be lost in its state? -/
def losable (s : State) (d : DieId) : Bool :=
  match (getDie s d).st with
  | .up | .gated | .ungating => true
  | .absent | .resetting => false

/-! ### Module reset (R381) -/

/-- R381: the machine right after module reset: what fuses, provisioning and the host's own memory hold stays. -/
def moduleReset (s : State) (cause : Nat) : State :=
  { State.reset with
    boot := { leaf := s.boot.leaf, minSvn := s.boot.minSvn, boots := s.boot.boots + 1, resetCause := cause }
    bud := { topSeq := s.bud.topSeq, pfloor := s.bud.pfloor, gfloor := s.bud.gfloor
             grade := s.bud.gfloor, rung := if s.bud.gfloor = 0 then 0 else 1
             cur := { power := s.bud.pfloor, band := bandOf s.bud.pfloor } }
    ms := { mem := s.ms.mem.filter (fun c => 2 ^ 44 ≤ c.1) }
    agenda := s.agenda
    fresh := s.fresh }

/-- POWER_ON_RESET (R381, R387): module reset with cause 0. -/
def execPowerOnReset (s : State) : Out := .next (moduleReset s 0)

/-- MODRESET (R387): writing 1 resets the module; other values are ignored. -/
def execModreset (value : Word) (s : State) : Out := .next (if value = 1 then moduleReset s 1 else s)

/-- R384: one heartbeat of the Capo of bridge die 8 is expected in every 16th period after READY; the standby Capo counts those
missing in a row. -/
def heartbeat (s : State) : Out :=
  let p := period s
  if s.boot.stat ≠ 1 || p % 16 ≠ 0 || p < s.boot.beat then .fault .notEnabled
  else .next { s with boot := { s.boot with beat := p + 1, missed := if s.boot.silent then s.boot.missed + 1 else 0 } }

/-- HEARTBEAT_TIMEOUT (R384): with four heartbeats in a row missing, the standby Capo on bridge die 9, which has verified the
image on its own, resets the module. -/
def execHeartbeatTimeout (s : State) : Out :=
  if s.boot.stat = 1 && (getDie s 9).st = .up && 4 ≤ s.boot.missed && s.boot.standby then .next (moduleReset s 5)
  else .fault .notEnabled

/-! ### DIE_FAULT and DIE_RESET_DONE (R22 to R25) -/

/-- R22, R384: a die fault; the loss of bridge die 8 resets the module. -/
def dieLost (s : State) (d : DieId) : State := if d = 8 then moduleReset s 5 else loseDie s d

/-- DIE_FAULT (R22, R23). -/
def execDieFault (d : DieId) (s : State) : Out :=
  if losable s d then .next (dieLost s d) else .fault .notEnabled

/-- R25: is an entry's frame, or a granule of it, homed by a die? -/
def homedBy (s : State) (d : DieId) (e : Pte) : Bool :=
  1 ≤ eTIER e && eTIER e ≤ 3 && (if eHSH e then s.boot.itable.toList.contains d else eHOME e == d.val)

/-- R25, R217: a page of a reset die is POISONED. -/
def poisonPage (s : State) (x : CtxId) (l : Leaf) : State :=
  let s := match moveOf s x l.base with
    | some m => if m.repair then dropMove s m.id else abandonMove s m 5
    | none => s
  updateLeaf s x l (poisonPte (homePte s.ms l.at_))

/-- R14, R215: does a die home a frame, or, of a hashed one, a granule? -/
def homesFrame (s : State) (hashed : List (Nat × Nat)) (d : DieId) (f : Nat) : Bool :=
  if hashed.any (fun r => r.1 ≤ f && f < r.1 + r.2) then s.boot.itable.toList.contains d
  else (frameHome f).map (·.2) == some d.val

/-- R25: the frames of a reset die return to the pool, and the entries that map them are poisoned. -/
def recoverFrames (s : State) (d : DieId) : State :=
  let mine := s.ms.owners.filter (fun o => homesFrame s (hashedFrames s) d o.1)
  let s := foldAll s allCtxs (fun s x =>
    foldAll s ((leavesOf s x).filter (fun l => homedBy s d l.entry)) (fun s l => poisonPage s x l))
  foldAll s mine (fun s o => freeFrame s o.2 o.1)

/-- The newest clock of every source, over the dies (R191). -/
def newestClock (s : State) : Vector Nat 16 :=
  Vector.ofFn (fun i => (allDies.map (fun d => (getDie s d).clock.get i)).foldl Nat.max 0)

/-- R215, R25: does a die home the granule of an address? -/
def homesByte (s : State) (hashed : List (Nat × Nat)) (d : DieId) (a : Nat) : Bool :=
  if hashed.any (fun r => r.1 ≤ a / 65536 && a / 65536 < r.1 + r.2) then s.boot.itable.get (Fin.ofNat 64 (granuleIndex a)) == d
  else (frameHome (a / 65536)).map (·.2) == some d.val

/-- R25: a reset die's DRAM contents are not preserved: what its frames, and its granules of hashed frames, hold then is a
free value. -/
def loseDram (s : State) (hashed : List (Nat × Nat)) (d : DieId) : State :=
  let mine : Nat → Bool := homesByte s hashed d
  let s := { s with fresh := s.fresh + 1 }
  modMs s (fun m => { m with
    mem := Mem.writeCells (m.mem.filter (fun c => !mine c.1)) ((Config.lostCells (s.fresh - 1)).filter (fun c => mine c.1)) })

/-- DIE_RESET_DONE (R21, R22, R24, R25, R351). Writes that the die lost before they reached a home are waited for no more
(R191). -/
def execDieResetDone (d : DieId) (pass : Bool) (s : State) : Out :=
  if (getDie s d).st ≠ .resetting then .fault .notEnabled
  else
    let hashed := hashedFrames s
    let s := recoverFrames (publishAll s) d
    let s := loseDram (publishAll s) hashed d
    let n := (getDie s d).inc + 1
    let t := newestClock s
    let s := { s with dies := s.dies.map (fun k => { k with clock := t, known := vset k.known d n }) }
    let s := modDie s d (fun k => { k with inc := n, cycle := 0 })
    if pass then .next (trainLinks (modDie s d (fun k => { k with st := .up })) d)
    else
      let s := modDie s d (fun k => { k with st := .absent })
      let off : BitVec 10 := ~~~((1 : BitVec 10) <<< d.val)
      .next { s with boot := { s.boot with forward := s.boot.forward &&& off, present := s.boot.present &&& off } }

/-! ### TARGETED_SELFTEST (R323, R377) -/

/-- R323: was an error recorded before the drain window that leads into the slot of a first period? -/
def dueIn (first : Nat) (t : Structure × Nat) : Bool := t.2 + 512 < 65536 * first

/-- R323: is a structure's self-test due in the current slot? -/
def testDue (s : State) (e : Structure) : Bool := s.care.tests.any (fun t => t.1 == e && dueIn (slotFirst s) t)

/-- Does a structure's overrun still run (R329)? -/
def overrunning (s : State) (e : Structure) : Bool := s.care.overruns.any (fun o => o.2 == e)

/-- R377: a frame with a failing row: a spare row takes it, or it is withdrawn, and the Capo evicts its page
(`evictWithdrawn`). -/
def retireRow (s : State) (f : Nat) : State :=
  if s.care.spares < Config.spareRows then { s with care := { s.care with spares := s.care.spares + 1 } }
  else withdrawFrame s f

/-- R377: a structure with a lasting error is retired. A way of a TLB that is disabled holds no entry, and the TLB has its
room no more (`tlbRoom`); the ways of the data and instruction caches, which hold nothing of their own here, show in no
value (assumption 52). -/
def retireStructure (s : State) (e : Structure) : State :=
  match e with
  | .dram x va => (match frameOfPage s x va.toNat with
      | some f => retireRow s f
      | none => s)
  | .frame n => retireRow s n.toNat
  | .laneGroup l g => markGroup s l g
  | .island d => if losable s d then dieLost s d else s
  | .tlb d => modDie s d (fun k => { k with tlb := [] })
  | .coreTlb c => modCore s c (fun k => { k with tlb := [] })
  | .icache _ | .cache _ | .dirty _ _ | .dramBus _ => s
  | .reg g _ | .lc g _ | .waitTable g _ => fenceCore s g.core
  | .vreg c _ _ | .mreg c _ _ | .age c _ _ | .queue c _ _ _ | .sreg c _ _ | .token c _ _ _ | .spad c _ | .acc c _ | .datapath c _ =>
    fenceCore s c

/-- TARGETED_SELFTEST (R323, R329, R377): a pass marks the error transient; a fail is logged as lasting and retires the
structure. -/
def execTargetedSelftest (e : Structure) (pass : Bool) (s : State) : Out :=
  if !((testDue s e && serveWindow s) || (overrunning s e && s.care.tests.any (fun t => t.1 == e))) then .fault .notEnabled
  else
    let s := { s with care := { s.care with
      tests := s.care.tests.filter (fun t => t.1 != e)
      tested := (e, slotFirst s) :: s.care.tested.filter (fun t => t.2 == slotFirst s) } }
    if pass then .next s
    else .next (retireStructure { s with care := { s.care with lasting := s.care.lasting ++ [e] } } e)

/-- R323, R329: is a core stopped by a self-test of one of its structures: for the whole of the slot, or in an overrun? -/
def coreStopped (s : State) (c : CoreId) : Bool :=
  (inSlot s && (s.care.tests.any (fun t => structCore t.1 == some c && dueIn (slotFirst s) t)
      || s.care.tested.any (fun t => structCore t.1 == some c && t.2 == slotFirst s)))
    || s.care.overruns.any (fun o => structCore o.2 == some c)

end Sys2Proof.Machine
end

