-- ==== Sys2Proof/Machine/System.lean ====
section
/-! DEFINITION. Special registers (R100, R101, R108), TRAP and BRK (R374, R375), counts (R109), TUNEQ (R330) and SYNC
(R110). -/

namespace Sys2Proof.Machine

/-- R100: the value a special register reads as. -/
def readSreg (s : State) (g : Agent) (r : SReg) : Word :=
  let k := bankOf s g
  let ctx := (bankCtx k).getD 0
  let task (f : Task → Word) : Word := match k.task with
    | some t => f t
    | none => 0
  match r with
  | .sid => w64 (unitOf g.stream)
  | .coreid => w64 g.core.val
  | .bank => if g.bank = .shadow then 1 else 0
  | .ctxid => w64 ctx.val
  | .slipw => if k.sregs.slipAt = s.cal.cycle then k.sregs.slipOld else k.sregs.slipw
  | .urgen => if g.bank = .shadow then 1 else 0
  | .accres => (getCore s g.core).accres.setWidth 64
  | .touched => (getCtx s ctx).touched.setWidth 64
  | .ctxattr => (getCtx s ctx).attr.setWidth 64 &&& 3
  | .fpstat => k.sregs.fpstat
  | .mstat => k.sregs.mstat
  | .srseed => k.sregs.srseed
  | .xsrpos => k.sregs.xsrpos
  | .msrpos => k.sregs.msrpos
  | .rank => task (fun t => w64 t.rank)
  | .gsize => task (fun t => w64 t.gsize)
  | .fretrow => task (fun t => w64 t.row)
  | .view => task (·.view)
  | .argp => task (·.argp)
  | .taskh => task (·.handle)
  | .nodeid => task (fun t => w64 t.node)
  | .kinst => task (·.kinst)

/-- R101: a write to SLIPW, which keeps what the register held before this cycle. -/
def writeSlipw (x : BankSregs) (t : Nat) (v : Word) : BankSregs :=
  { x with slipw := if 65535 < v.toNat then 65535 else v
           slipOld := if x.slipAt = t then x.slipOld else x.slipw, slipAt := t }

/-- R376: is a special register marked? -/
def sregBad (x : BankSregs) (r : SReg) : Bool := x.bad.getLsbD (SReg.num r)

/-- R376: a write of a special register clears its mark. -/
def clearSreg (x : BankSregs) (r : SReg) : BankSregs := { x with bad := x.bad &&& ~~~((1 : BitVec 64) <<< SReg.num r) }

/-- R100, R101: the bank's special registers with one written. -/
def writeSreg (x : BankSregs) (r : SReg) (t : Nat) (v : Word) : BankSregs :=
  let x := clearSreg x r
  match r with
  | .slipw => writeSlipw x t v
  | .fpstat => { x with fpstat := statMask v }
  | .mstat => { x with mstat := statMask v }
  | .srseed => { x with srseed := v }
  | .xsrpos => { x with xsrpos := v }
  | .msrpos => { x with msrpos := v }
  | .sid | .coreid | .bank | .ctxid | .urgen | .accres | .touched | .ctxattr | .rank | .gsize | .fretrow | .view
  | .argp | .taskh | .nodeid | .kinst => x

/-- The special register that a word's srcA names (R101). -/
def sregOf (w : WordF) : SReg :=
  match w.srcA with
  | .short v => (SReg.ofCode v).getD .sid
  | _ => .sid

/-- GETS (R108): a marked register raises ECCU (R376). -/
def execGets (w : WordF) (s : State) : Out :=
  runWord w false (fun s g => do
    takeSources s g [] (dstPush w.dst)
    if sregBad (bankOf s g).sregs (sregOf w) then raise s (eccRegs (SReg.num (sregOf w)))
    donePop (writeScalar s g w.dst (readSreg s g (sregOf w))) []) s

/-- SETS (R101, R108): a read-only register raises PRIV. -/
def execSets (w : WordF) (s : State) : Out :=
  let srcs := [w.srcB]
  runWord w false (fun s g => do
    takeSources s g srcs []
    if !SReg.writable (sregOf w) then raise s (flt .priv 0 0x081)
    let v := scal s g w srcs 0
    donePop (modBankOf s g (fun k => { k with sregs := writeSreg k.sregs (sregOf w) s.cal.cycle v })) srcs) s

/-- R374: the code c: bits [31:0] of a literal. -/
def trapCode (o : Operand) : Word :=
  match o with
  | .short v => (v.signExtend 32).setWidth 64
  | .lit v => v.setWidth 64
  | _ => 0

/-- R374: TRAP and BRK: the fault TRAPSW, taken as any synchronous fault. -/
def trapForm (w : WordF) (brk : Bool) (s : State) : Out :=
  let srcs := if w.mod.getLsbD 0 then [w.srcB] else []
  runWord w false (fun s g => do
    takeSources s g srcs []
    raise s { code := .trapsw, detail := scal s g w srcs 0, aux := trapCode w.srcA, flags := if brk then 4 else 0 }) s

/-- TRAP (R374). -/
def execTrap (w : WordF) (s : State) : Out := trapForm w false s
/-- BRK (R374, R375). -/
def execBrk (w : WordF) (s : State) : Out := trapForm w true s

/-- CYC (R109). -/
def execCyc (w : WordF) (s : State) : Out := scalarForm w [] (fun s g => dieCycle s (agentDie g)) s
/-- PERF (R109). -/
def execPerf (w : WordF) (s : State) : Out :=
  scalarForm w [] (fun s g => (regsOf s g).perf.get (Fin.ofNat 8 (shortNat w.srcA))) s

/-! ### TUNEQ (R330) -/

/-- R323, R324: the kind of the slot that begins in a period: 0 base, 1 calibration, 2 extended. -/
def slotKind (s : State) (p : Nat) : Nat :=
  if (extOf s p).isSome then 2 else if p % 16 = 0 then 1 else 0

/-- R330: is a level change scheduled in the slot that begins in a period, or has the slot made one? -/
def levelIn (s : State) (p : Nat) : Bool := s.cal.nextLevel.any (fun n => n.2 = p) || s.cal.levelDone = p + 1

/-- R330: the value that TUNEQ writes. -/
def tuneq (s : State) : Word :=
  let p := period s
  let inside := inSlot s
  let slotP := if inside then (match extOf s p with
      | some e => e
      | none => p) else p + 1
  let dist := if inside then slotEndNow s - s.cal.cycle else 65536 * (p + 1) - s.cal.cycle
  let ext := match s.cal.extNext with
    | some e => if p < e then e - p else 0xFFFFFFFF
    | none => 0xFFFFFFFF
  BitVec.ofNat 64 (dist + slotKind s slotP * 2 ^ 20 + (if levelIn s slotP then 2 ^ 22 else 0)
    + (if inside then 2 ^ 23 else 0) + (if inDrain s then 2 ^ 24 else 0) + ext % 2 ^ 32 * 2 ^ 32)

/-- TUNEQ (R330). -/
def execTuneq (w : WordF) (s : State) : Out := scalarForm w [] (fun s _ => tuneq s) s

/-- SYNC (R110): the rendezvous and its commit. -/
def execSync (w : WordF) (s : State) : Out := runB w (fun s _ => done s) s

end Sys2Proof.Machine
end

