-- ==== Sys2Proof/Machine/Tuning.lean ====
section
/-! DEFINITION. The events of the calendar (R19, R322 to R329), of the budget (R307 to R313, R319) and of the power islands
(R16, R314 to R317). -/

namespace Sys2Proof.Machine

/-! ### Facility time and the target (R307 to R310) -/

/-- The power of a segment of a curve at a time in 36ths of a nanosecond, exactly. -/
def segmentPower (p q : Point) (x : Nat) : Rat :=
  if q.time = p.time then p.power
  else (p.power : Rat) + ((q.power : Rat) - p.power) * ((x - 36 * p.time : Nat) : Rat) / ((36 * (q.time - p.time) : Nat) : Rat)

/-- The integral of a curve's power between two times in 36ths of a nanosecond. -/
def pointsIntegral (a b : Nat) : List Point → Rat
  | [] => 0
  | [p] => (p.power : Rat) * ((b - Nat.max a (36 * p.time) : Nat) : Rat)
  | p :: q :: ps =>
    let lo := Nat.max a (36 * p.time)
    let hi := Nat.min b (36 * q.time)
    (if lo < hi then (segmentPower p q lo + segmentPower p q hi) / 2 * ((hi - lo : Nat) : Rat) else 0)
      + pointsIntegral a b (q :: ps)

/-- R307: the integral of P between two facility times in 36ths of a nanosecond: the current curve to its END, the pending
one from its START on, the floor curve between. -/
def curveIntegral (b : Budget) (t0 t1 : Nat) : Rat :=
  let t2 := match b.pending with
    | some c => Nat.min t1 (Nat.max t0 (36 * c.start))
    | none => t1
  let late := match b.pending with
    | some c => pointsIntegral t2 t1 c.points
    | none => 0
  let e := match b.current with
    | some c => Nat.min t2 (Nat.max t0 (36 * c.end_))
    | none => t0
  let early := match b.current with
    | some c => pointsIntegral t0 e c.points
    | none => 0
  early + (b.pfloor : Rat) * ((t2 - e : Nat) : Rat) + late

/-- R307, R310: the times after one time and up to another, in 36ths of a nanosecond, at which a curve's points step down. -/
def pointSteps (a b : Nat) (ps : List Point) : List Nat :=
  (List.zip ps (ps.drop 1)).filterMap (fun p =>
    let x := 36 * p.2.time
    if p.1.time = p.2.time && p.2.power < p.1.power && a < x && x ≤ b then some x else none)

/-- R307, R310: the times at which the curve value steps down between two times: in the current curve, in the pending one from
its START on, and where one curve takes the place of another or of the floor. -/
def curveSteps (b : Budget) (t0 t1 : Nat) : List Nat :=
  let old (t : Nat) : Rat := match b.current with
    | some c => if t ≤ c.end_ then c.power t else b.pfloor
    | none => b.pfloor
  let late := match b.pending with
    | some c => pointSteps (Nat.max t0 (36 * c.start)) t1 c.points
        ++ (if t0 < 36 * c.start && 36 * c.start ≤ t1 && c.power c.start < old c.start then [36 * c.start] else [])
    | none => []
  let t2 := match b.pending with
    | some c => Nat.min t1 (36 * c.start)
    | none => t1
  let early := match b.current with
    | some c => pointSteps t0 (Nat.min t2 (36 * c.end_)) c.points
        ++ (if t0 < 36 * c.end_ && 36 * c.end_ < t2 && (b.pfloor : Rat) < c.power c.end_ then [36 * c.end_] else [])
    | none => []
  early ++ late

/-- R309, R310: the integral of P since the last sum is added to that of the period in progress, and the last downward step
of the curve is noted. -/
def sumTarget (s : State) : State :=
  let dt := s.cal.age - s.bud.mark
  let add := match s.cal.time with
    | some t => curveIntegral s.bud (t - dt) t
    | none => (s.bud.pfloor : Rat) * (dt : Rat)
  let step := s.cal.time.bind (fun t => ((curveSteps s.bud (t - dt) t).max?).map (fun x => s.cal.age - (t - x)))
  { s with bud := { s.bud with mark := s.cal.age, stepAge := step.or s.bud.stepAge, cur := { s.bud.cur with
      time := s.bud.cur.time + dt, target := s.bud.cur.target + add } } }

/-- R310: a change of the curve in force from one state to another that lowers its value is a downward step. -/
def noteStep (s t : State) : State :=
  if powerNow t < powerNow s then { t with bud := { t.bud with stepAge := some t.cal.age } } else t

/-- CURVE_ACTIVATE (R307): a pending curve becomes current at its START. -/
def execCurveActivate (s : State) : Out :=
  match s.bud.pending with
  | none => .fault .notEnabled
  | some c =>
    if s.cal.time.isNone || facilityNs s < c.start then .fault .notEnabled
    else
      let s := sumTarget s
      .next (budgetLog { s with bud := { s.bud with current := some c, pending := none } } 3 0 0 c.seq)

/-- Is a pending curve due? -/
def pendingDue (s : State) : Bool :=
  match s.bud.pending with
  | some c => s.cal.time.isSome && c.start ≤ facilityNs s
  | none => false

/-- CURVE_EXPIRE (R307): the current curve reaches END with no pending curve due. -/
def execCurveExpire (s : State) : Out :=
  match s.bud.current with
  | none => .fault .notEnabled
  | some c =>
    if s.cal.time.isNone || facilityNs s < c.end_ || pendingDue s then .fault .notEnabled
    else
      let s := sumTarget s
      .next (budgetLog { s with bud := { s.bud with current := none } } 4 0 0 c.seq)

/-- IEEE1588_TIME_LOST (R307): the floor curve applies. -/
def execIeee1588TimeLost (s : State) : Out :=
  if s.cal.time.isNone then .fault .notEnabled
  else
    let s := sumTarget s
    .next (noteStep s { s with cal := { s.cal with time := none } })

/-- IEEE1588_TIME_GAINED (R307): the Capo has facility time, in nanoseconds. -/
def execIeee1588TimeGained (t : Nat) (s : State) : Out :=
  if s.cal.time.isSome then .fault .notEnabled
  else
    let s := sumTarget s
    .next (noteStep s { s with cal := { s.cal with time := some (36 * t) } })

/-! ### The boundary (R309 to R313, R325) -/

/-- The rung of an automatic state (R311, R312). -/
def autoRung (auto : Nat) : Nat := Nat.min auto 4

/-- The grade of an automatic state. -/
def autoGrade (auto : Nat) : Nat := if auto = 0 then 0 else if auto = 5 then 2 else 1

/-- The highest automatic state that a MAXGRADE allows (R312). -/
def autoLimit (maxGrade : Nat) : Nat := if maxGrade = 0 then 0 else if maxGrade = 1 then 4 else 5

/-- The measured average of one period, in mW. -/
def Measured.average (m : Measured) : Rat := measuredAverage [m]

/-- R312: where the automatic state moves at a boundary, by the last periods whose energy has been measured: the sweep that
measures a period lies in the slot after the boundary that closes it (R308; DEDUCED, assumption 38). -/
def autoMove (s : State) (p : Nat) : Nat :=
  let b := s.bud
  let last4 := b.window.take 4
  let last64 := b.window.take 64
  let limit := autoLimit (maxGradeNow s)
  if limit < b.auto then limit
  else if last4.length = 4 && last4.all (fun m => m.power + m.band < m.average) && b.lastMove + 4 ≤ p && b.auto < limit
  then b.auto + 1
  else if last64.length = 64 && last64.all (fun m => m.average < m.power - 2 * m.band) && b.lastMove + 64 ≤ p && 0 < b.auto
  then b.auto - 1
  else b.auto

/-- Does an entry of a core's queues, one that waits for room in them, or one of its swap belong to E0? -/
def queuesE0 (s : State) (c : CoreId) : Bool :=
  let w := (getCore s c).work
  s.disp.waits.any (fun e => e.core == some c && (waitTask s e).any (fun t => t.eclass == 0)) ||
  (w.tile ++ w.engine).any (fun q => q.task.eclass == 0)
    || w.ready.any (fun r => match readyTask s r with
        | some t => t.eclass == 0
        | none => false)
    || (getCore s c).swap != .none

/-- R316: does a READY continuation of E0 that waits for a place need a die: as the die of its core, or by an AFFINITY? -/
def contsE0 (s : State) (d : DieId) (f : BitVec 16 → Bool) : Bool :=
  allCtxs.any (fun x => dispatches s x && (getCaux s x).conts.any (fun k => k.ready && !k.queued && k.task.eclass == 0
    && (if k.pinned then dieOf k.core == d else (getNode s k.task.kinst k.task.node).any (fun n => f n.affinity))))

/-- R316: is a die the only one of an AFFINITY that is UP or is being ungated? -/
def onlyUp (s : State) (d : DieId) (affinity : BitVec 16) : Bool :=
  affinity.getLsbD d.val && allDies.all (fun e => e == d || !(affinity.getLsbD e.val
    && ((getDie s e).st == .up || (getDie s e).st == .ungating)))

/-- R316: does an E0 task that waits, in a pool or for room in a queue, need a die that is the only ungated one it may use?
The die stays ungated until it holds no E0 task. -/
def keptE0 (s : State) (d : DieId) : Bool :=
  (allInsts s).any (fun p => p.2.2.1.eclass == 0 && !p.2.2.2.pool.isEmpty && p.2.2.2.st == .open_ && dispatches s p.1.ctx
      && onlyUp s d p.2.2.1.affinity)
  || s.disp.waits.any (fun e => (waitTask s e).any (fun t => t.eclass == 0 && dispatches s t.ctx
      && (getNode s t.kinst t.node).any (fun n => onlyUp s d n.affinity)))
  || contsE0 s d (onlyUp s d)

/-- R316: may a die be gated: park or shed in force, no bank of it with a task, no E0 task on it or meant for it? -/
def gatable (s : State) (d : DieId) : Bool :=
  2 ≤ s.bud.grade && d.val < 8 && (getDie s d).st == .up
    && (bankTasks s).all (fun t => dieOf t.1 != d)
    && allCores.all (fun c => dieOf c != d || !queuesE0 s c)
    && !keptE0 s d

/-- R316: is a die still to be imaged before it is gated: its banks hold tasks, and none of E0? -/
def gatesLater (s : State) (d : DieId) : Bool :=
  let ts := (bankTasks s).filter (fun t => dieOf t.1 == d)
  2 ≤ s.bud.grade && d.val < 8 && (getDie s d).st == .up && !ts.isEmpty && ts.all (fun t => t.2.2.eclass != 0)

/-- R317: is a response to the grade or rung in force still in progress: a cap not taken, a level change to come, a bank
still to be imaged, an instance still to be shed, or a die still to be gated or ungated? -/
def responding (s : State) : Bool :=
  allCores.any (fun c => present s (dieOf c) && (getDie s (dieOf c)).st != .resetting && (s.ctl.get c).cap != rungCap s.bud.rung)
    || !s.cal.nextLevel.isEmpty
    || (2 ≤ s.bud.grade && (bankTasks s).any (fun t => t.2.2.eclass != 0))
    || allDies.any (gatable s)
    || (s.bud.grade = 3 && (allInsts s).any shedDue)
    || (s.bud.grade < 2 && allDies.any (fun d => (getDie s d).st == .gated || (getDie s d).st == .ungating))

/-- R309, R310: a period closes: its target is summed, and what exempts it is noted: a downward step of the curve in it or in
the 9 ms before it, among others. -/
def closePeriod (s : State) (p : Nat) : State :=
  let s := sumTarget s
  let m := { s.bud.cur with
    step := s.bud.stepAge.any (fun a => s.cal.age ≤ a + s.bud.cur.time + 324000000)
    idle := s.bud.cur.idle || s.bud.grade != 0
    response := s.bud.cur.response || responding s
    extended := (extOf s (p - 1)).isSome }
  { s with bud := { s.bud with closed := s.bud.closed ++ [m] } }

/-- R310: the cause that exempts a window, by its number; 0 for none. -/
def exemptCause (ms : List Measured) : Nat :=
  if ms.any (·.step) then 1 else if ms.any (·.response) then 2 else if ms.any (·.extended) then 3
  else if ms.any (·.e0) then 4 else 0

/-- The part of a rational before its point. -/
def truncRat (q : Rat) : Int := if q < 0 then -((-q).floor) else q.floor

/-- R310: does a window miss its band: above it, or below it with no period in which a core had no task to take or the grade
in force was not none? -/
def missesBand (w : List Measured) : Bool :=
  let e := measuredAverage w - targetAverage w
  let b := bandOf (targetAverage w)
  w.length = 64 && (b < e || (e < -b && w.all (fun m => !m.idle)))

/-- R310, R321: a band miss of an exempt window is logged. -/
def noteBandMiss (s : State) : State :=
  let w := s.bud.window.take 64
  if missesBand w && exemptCause w ≠ 0
  then budgetLog s 7 (exemptCause w) 0 (truncRat (errorNow s)) else s

/-- R238, R313: a GRADE event in every context from LOADING to LOST. -/
def gradeEvents (s : State) (old new : Nat) : State :=
  foldAll s allCtxs (fun s x =>
    match (getCtx s x).st with
    | .free => s
    | .loading | .ready | .running | .parked | .quiesced | .faulted | .lost =>
      logEvent s x 0x02 0xFF 0xFFFF (old + 256 * new) 0 ((getCtx s x).energy / 1000))

/-- The period whose slot makes a level change that a boundary orders (R314, R324). -/
def changeSlot (s : State) (p : Nat) : Nat :=
  match extOf s (p + 1) with
  | some e => if e = p + 1 then p + 1 else e + 4
  | none => p + 1

/-- The level that will be in force once scheduled changes are made. -/
def finalLevel (s : State) : Fin 4 := ((s.cal.nextLevel.getLast?).map (·.1)).getD s.cal.level

/-- R314: a level change is scheduled, unless the level stands. A change scheduled for an earlier slot stands (R330). -/
def scheduleLevel (s : State) (p : Nat) (l : Fin 4) : State :=
  let q := changeSlot s p
  let s := { s with cal := { s.cal with nextLevel := s.cal.nextLevel.filter (fun n => n.2 < q) } }
  if finalLevel s = l then s
  else { s with cal := { s.cal with nextLevel := s.cal.nextLevel ++ [(l, q)] } }

/-- R311 to R314: the grade and the rung in force at a boundary, with their events and entries. Until READY the clock stays
at F3 (R381). -/
def setGrade (s : State) (p : Nat) : State :=
  let auto := autoMove s p
  let s := if auto = s.bud.auto then s else { s with bud := { s.bud with auto := auto, lastMove := p } }
  let g := Nat.max (gradeNow s) (autoGrade auto)
  let r := if g = 0 then 0 else Nat.max 1 (autoRung auto)
  let g0 := s.bud.grade
  let r0 := s.bud.rung
  if g = g0 && r = r0 then s
  else
    let s := { s with bud := { s.bud with grade := g, rung := r, changedAt := p, cur := { s.bud.cur with response := true } } }
    let s := if g = g0 then budgetLog s 6 r r0 (s.bud.total / 1000)
      else budgetLog (gradeEvents s g0 g) 5 g g0 (s.bud.total / 1000)
    if r = r0 || s.boot.stat ≠ 1 then s else scheduleLevel s p (rungLevel r)

/-- R325, R351: does a link need an extended slot: one that is DEGRADED, or NARROW on a group that is marked? -/
def needsRetrain (s : State) (l : LinkId) : Bool :=
  let k := getLink s l
  k.st == .degraded || (k.st == .narrow && (if k.group then k.mark1 else k.mark0))

/-- R325: an extended slot is announced when one is needed, four periods ahead, and begins 16,384 periods or more after the
last. -/
def announce (s : State) (p : Nat) : State :=
  let c := s.cal
  let c := match c.extNext with
    | some e => if e ≤ p then { c with extLast := some e, extNext := none } else c
    | none => c
  let far := match c.extLast with
    | some e => e + 16384 ≤ p + 4
    | none => true
  if c.extNext.isNone && far && (dieLinks ++ fabLinks).any (needsRetrain s) then { s with cal := { c with extNext := some (p + 4) } }
  else { s with cal := c }

/-- PERIOD_BOUNDARY (R309 to R313, R322, R325): once in each period after the first. -/
def execPeriodBoundary (s : State) : Out :=
  let p := period s
  if p ≤ s.cal.boundary then .fault .notEnabled
  else
    let s := noteBandMiss (closePeriod s p)
    let s := { s with bud := { s.bud with cur := {
      power := powerNow s, band := bandNow s (powerNow s), response := responding s } } }
    let s := announce (setGrade s p) p
    .next { s with cal := { s.cal with boundary := p } }

/-! ### The slot (R19, R308, R319, R323 to R329) -/

/-- DRAIN_WINDOW_START (R322, R326): from its first cycle on, engines start nothing new. -/
def execDrainWindowStart (s : State) : Out :=
  if !inDrain s || period s < s.cal.drain then .fault .notEnabled
  else .next { s with cal := { s.cal with drain := period s + 1 } }

/-- LEVEL_CHANGE (R19, R323): in the first 1,024 cycles of the slot that is to make it. No word commits until the relock
ends; how long it takes is the implementation's, within the bound. -/
def execLevelChange (s : State) : Out :=
  let p := period s
  match s.cal.nextLevel.find? (fun n => n.2 = p) with
  | none => .fault .notEnabled
  | some n =>
    if 1024 ≤ phase s then .fault .notEnabled
    else .next { s with cal := { s.cal with
      level := n.1, nextLevel := s.cal.nextLevel.filter (fun m => p < m.2), levelDone := p + 1
      relock := Config.relockCycles % (1025 - phase s) } }

/-- REFRESH (R323, R324): in its window of every period's slot. It changes nothing that a program sees. -/
def execRefresh (s : State) : Out :=
  let p := period s
  if !inSlot s || phase s < 1024 || 3584 ≤ phase s || p < s.cal.refreshed then .fault .notEnabled
  else .next { s with cal := { s.cal with refreshed := p + 1 } }

/-- The bytes that a die served for a context in a period. -/
def Measured.served (c : Measured) (d : DieId) (x : CtxId) : Nat :=
  match c.bytes.find? (fun b => b.1 == (d, x)) with
  | some b => b.2
  | none => 0

/-- R319: the energy of a die's memory island is divided among the contexts in proportion to the bytes it served for each, to
within a nanojoule; what engine operations drew is part of their context's share. -/
def memoryOk (c : Measured) (ms : List MemShare) (d : DieId) : Bool :=
  let mine := ms.filter (fun m => m.die == d)
  let energy := (mine.map (·.energy)).sum
  let bytes := ((c.bytes.filter (fun b => b.1.1 == d)).map (·.2)).sum
  allCtxs.all (fun x =>
    let e := ((mine.filter (fun m => m.ctx == x)).map (·.energy)).sum
    let b := c.served d x
    (b != 0 || e == 0) && e * bytes ≤ energy * b + bytes && energy * b ≤ e * bytes + bytes)
  && mine.all (fun m => (m.engines.map (·.2)).sum ≤ m.energy)

/-- R319: the shares of the oldest closed period and its unattributed energy are its energy; a bank's share goes to a kernel
that ran in it, and the memory's by bytes. The bridge dies' own energy, and gated and idle power, are nobody's. -/
def meterOk (s : State) (m : Meter) : Bool :=
  match s.bud.closed with
  | [] => false
  | c :: _ =>
    (m.banks.map (·.energy)).sum + (m.memory.map (·.energy)).sum + m.unattributed = m.total
      && m.banks.all (fun b => c.ran.contains (b.core, b.bank, b.ctx, b.kinst))
      && allDies.all (memoryOk c m.memory)

/-- R231, R319: a share is part of the energy of a context that exists. -/
def addEnergy (s : State) (x : CtxId) (n : Nat) : State :=
  if (getCtx s x).st = .free then s else modCtx s x (fun c => { c with energy := c.energy + n })

/-- R276, R319: a share is part of the energy of a kernel. -/
def addKernelEnergy (s : State) (k : Word) (n : Nat) : State := modStats s k (fun x => { x with energy := x.energy + n })

/-- R319: the shares of a period reach their contexts and kernels. -/
def shareEnergy (s : State) (m : Meter) : State :=
  let s := foldAll s m.banks (fun s b => addKernelEnergy (addEnergy s b.ctx b.energy) b.kinst b.energy)
  foldAll s m.memory (fun s b => foldAll (addEnergy s b.ctx b.energy) b.engines (fun s e => addKernelEnergy s e.1 e.2))

/-- R308, R319: the energy of the oldest closed period. -/
def measured (s : State) (m : Meter) : State :=
  match s.bud.closed with
  | [] => s
  | c :: cs =>
    let c := { c with energy := m.total, e0 := c.target < (m.e0 : Rat) * 36000 }
    { s with bud := { s.bud with closed := cs, window := (c :: s.bud.window).take 64 } }

/-- SENSOR_SWEEP (R308, R309, R319, R323): the energy of the period that the slot closes, and with it E at the boundary that
closed it. -/
def execSensorSweep (m : Meter) (s : State) : Out :=
  let p := period s
  if !inSlot s || phase s < 3584 || 3840 ≤ phase s || p = 0 || p < s.cal.swept || !meterOk s m then .fault .notEnabled
  else
    let s := shareEnergy (measured s m) m
    .next { s with
      bud := { s.bud with error := errorNow s, total := s.bud.total + m.total, unattributed := s.bud.unattributed + m.unattributed }
      cal := { s.cal with swept := p + 1 } }

/-- The slot, by its first period and its kind (R330), whose end is to be marked: the extended one that ran up to the boundary,
or the ordinary one of the period. -/
def slotEnded (s : State) : Option (Nat × Nat) :=
  let p := period s
  let ordinary := if !inSlot s && s.cal.slotEnd ≤ p then some (p, slotKind s p) else none
  match if p = 0 then none else extOf s (p - 1) with
  | some e => if e + 4 ≤ p && s.cal.slotEnd ≤ e then some (e, 2) else ordinary
  | none => ordinary

/-- R323, R329: the dies of which a DRAM interface retries its calibration past the slot that begins in a period; that one does
is the implementation's: a free value. -/
def retryDies (s : State) (e kind : Nat) : List DieId :=
  let q := (e + 15) / 16 * 16
  if q < e + (if kind = 2 then 4 else 1) then allDies.filter (fun d => present s d && Config.calibrationRetry q d.val) else []

/-- R329: what a slot leaves unfinished: self-tests that were due in it, retraining that has not come, and retries of
calibration. -/
def unfinished (s : State) (e kind : Nat) : List Structure :=
  ((s.care.tests.filter (fun t => dueIn e t && !overrunning s t.1)).map (·.1)).dedup
    ++ (if kind = 2 && s.cal.retrained != e + 1 then
        ((dieLinks ++ fabLinks).filter (needsRetrain s)).map (fun l => .laneGroup l false) else [])
    ++ (retryDies s e kind).map .dramBus

/-- R329: an item that the slot has not finished overruns it: a SLOTOVR event in every RUNNING context. -/
def beginOverrun (s : State) (e : Structure) (kind : Nat) : State :=
  let (s, id) := takeId s
  let s := { s with care := { s.care with overruns := s.care.overruns ++ [(id, e)] } }
  foldAll s (allCtxs.filter (fun x => (getCtx s x).st == .running)) (fun s x =>
    logEvent s x 0x09 0xFF 0xFFFF kind 0 0)

/-- SLOT_END (R326 to R329): the first cycle after a slot. -/
def execSlotEnd (s : State) : Out :=
  match slotEnded s with
  | none => .fault .notEnabled
  | some (e, kind) =>
    .next (foldAll { s with cal := { s.cal with slotEnd := e + 1 } } (unfinished s e kind) (fun s t => beginOverrun s t kind))

/-- R329: has an overrunning item ended: its self-test is done, its link retrained? A retry of calibration may end at any
time. -/
def overrunEnded (s : State) (e : Structure) : Bool :=
  match e with
  | .laneGroup l _ => !needsRetrain s l
  | .icache _ | .tlb _ | .coreTlb _ | .cache _ | .dirty _ _ | .reg _ _ | .lc _ _ | .vreg _ _ _ | .mreg _ _ _ | .age _ _ _
  | .queue _ _ _ _ | .sreg _ _ _ | .token _ _ _ _ | .waitTable _ _ | .spad _ _ | .acc _ _ | .datapath _ _ | .dram _ _ | .frame _
  | .dramBus _ | .island _ => !s.care.tests.any (fun t => t.1 == e)

/-- OVERRUN_COMPLETE (R329): an overrun whose item has ended releases what waits for its structure. -/
def execOverrunComplete (n : Nat) (s : State) : Out :=
  match s.care.overruns.find? (fun o => o.1 == n) with
  | none => .fault .notEnabled
  | some o =>
    if !overrunEnded s o.2 then .fault .notEnabled
    else .next { s with care := { s.care with overruns := s.care.overruns.filter (fun q => q.1 != n) } }

/-! ### Cadence and islands (R16, R314 to R317) -/

/-- Is a core still to take the cap in force? One of a die that is being reset, whose count stands, takes it afterwards. -/
def capDue (s : State) (c : CoreId) : Bool :=
  present s (dieOf c) && (getDie s (dieOf c)).st != .resetting && (s.ctl.get c).cap != rungCap s.bud.rung

/-- CADENCE_CAP_APPLY (R20, R314): at a group boundary of the core's die, in ascending COREID. -/
def execCadenceCapApply (c : CoreId) (s : State) : Out :=
  if !capDue s c || (dieCycle s (dieOf c)).toNat % 8 ≠ 0 || allCores.any (fun k => k.val < c.val && capDue s k)
  then .fault .notEnabled
  else .next (modCtl s c (fun k => { k with cap := rungCap s.bud.rung }))

/-- R16: what a core's stores and barriers hold after it has lost its power is not known: a free value. -/
def losePower (s : State) (c : CoreId) : State :=
  let n := s.fresh
  let lost (k limit : Nat) : Mem := Mem.writeCells [] ((Config.lostCells k).filter (fun c => c.1 < limit))
  let word (i : Nat) : Word := Config.freeWord (n + 2 + i)
  let s := modCore s c (fun k => { k with
    spad := lost n 0x400000, acc := lost (n + 1) 0x300000, badSpad := [], badAcc := [], tlb := []
    nb := Vector.ofFn (fun i => { count := (word i.val).setWidth 16, arrivals := ((word i.val) >>> 16).setWidth 16
                                  phase := ((word i.val) >>> 32).setWidth 32 }) })
  { s with fresh := n + 34 }

/-- ISLAND_GATE (R15, R316): dies in ascending order. -/
def execIslandGate (d : DieId) (s : State) : Out :=
  if !gatable s d || allDies.any (fun e => e.val < d.val && (gatable s e || gatesLater s e)) then .fault .notEnabled
  else
    let s := modDie s d (fun k => { k with st := .gated })
    .next (gangsBack (foldAll s (allCores.filter (fun c => dieOf c == d)) losePower) (fun c => dieOf c == d))

/-- R316: is no die of an AFFINITY UP, and is a die the lowest gated one of it? -/
def lowestGated (s : State) (d : DieId) (affinity : BitVec 16) : Bool :=
  let aff (e : DieId) : Bool := affinity.getLsbD e.val
  allDies.all (fun e => !(aff e && ((getDie s e).st == .up || (getDie s e).st == .ungating)))
    && (allDies.find? (fun e => aff e && (getDie s e).st == .gated)) == some d

/-- R316: does an instance of E0 with a waiting task need a gated die? -/
def neededFor (s : State) (d : DieId) (p : Kernel × Nat × Node × NodeInst) : Bool :=
  p.2.2.1.eclass == 0 && !p.2.2.2.pool.isEmpty && p.2.2.2.st == .open_ && dispatches s p.1.ctx
    && lowestGated s d p.2.2.1.affinity

/-- R316: does a task of E0 that waits for room in a queue need a gated die? -/
def neededWait (s : State) (d : DieId) (e : WaitEntry) : Bool :=
  e.core.isNone && (match waitTask s e with
    | none => false
    | some t => t.eclass == 0 && dispatches s t.ctx && (match getNode s t.kinst t.node with
        | some n => lowestGated s d n.affinity
        | none => false))

/-- R316: is a gated die to be ungated for an E0 task? -/
def neededE0 (s : State) (d : DieId) : Bool :=
  allCores.any (fun c => dieOf c == d && queuesE0 s c) || (allInsts s).any (neededFor s d)
    || s.disp.waits.any (neededWait s d) || contsE0 s d (lowestGated s d)

/-- ISLAND_UNGATE (R316, R317): for an E0 task, or, below park, in ascending order and one at a time. -/
def execIslandUngate (d : DieId) (s : State) : Out :=
  if (getDie s d).st ≠ .gated then .fault .notEnabled
  else if neededE0 s d
      || (s.bud.grade < 2 && allDies.all (fun e => (getDie s e).st != .ungating
          && !(e.val < d.val && (getDie s e).st == .gated)))
  then .next (modDie s d (fun k => { k with st := .ungating }))
  else .fault .notEnabled

/-- UNGATE_COMPLETE (R16). -/
def execUngateComplete (d : DieId) (s : State) : Out :=
  if (getDie s d).st = .ungating then .next (modDie s d (fun k => { k with st := .up })) else .fault .notEnabled

end Sys2Proof.Machine
end

