-- ==== Sys2Proof/Machine/BootForms.lean ====
section
/-! DEFINITION. Boot (R26, R27, R381 to R383), attestation reports (R385, R386) and the end of a link's training (R351). -/

namespace Sys2Proof.Machine

/-! ### Attestation reports (R385, R386) -/

/-- R385: bytes [255:0] of a report. -/
def reportBody (s : State) (result step leaf : Nat) (nonce : List Byte) : List Byte :=
  toBytes 2 1 ++ toBytes 1 result ++ toBytes 1 step ++ (nonce ++ List.replicate 32 0).take 32
    ++ (Config.sha384 (imageBody s.boot.slot)).toList ++ toBytes 4 (imageSvn s.boot.slot).toNat
    ++ toBytes 2 s.boot.present.toNat ++ s.boot.tests.toList
    ++ (s.boot.itable.toList.map (fun d => BitVec.ofNat 8 d.val)) ++ toBytes 4 leaf ++ List.replicate 88 0

/-- R386: are there leaves left? -/
def leavesLeft (s : State) : Bool := s.boot.leaf < 32768

/-- R385, R386: a report with both signatures, which takes a leaf; with the leaves exhausted, the LMS field is zero. -/
def makeReport (s : State) (result step : Nat) (nonce : List Byte) : State × List Byte :=
  if leavesLeft s then
    let m := reportBody s result step s.boot.leaf nonce
    ({ s with boot := { s.boot with leaf := s.boot.leaf + 1 } }, m ++ (Config.ecdsaSign m).toList ++ (Config.lmsSign m s.boot.leaf).toList)
  else
    let m := reportBody s (if result = 0 then 6 else result) step 0xFFFFFFFF nonce
    (s, m ++ (Config.ecdsaSign m).toList ++ List.replicate 2668 0)

/-- The report of a boot: its nonce is zero. -/
def bootReport (s : State) (result step : Nat) : State :=
  let r := makeReport s result step []
  { r.1 with boot := { r.1.boot with report := r.2 } }

/-- R383: boot stops. -/
def bootFails (s : State) (step cause : Nat) : State :=
  bootReport { s with boot := { s.boot with stat := 2, step := step, cause := cause } } cause step

/-! ### Steps 3 to 5 (R26, R27, R381) -/

/-- R27: the interleave table. -/
def interleave (s : State) : Vector DieId 64 :=
  let p := allDies.filter (fun d => d.val < 8 && present s d)
  Vector.ofFn (fun i => (p[if p.length = 0 then 0 else i.val % p.length]?).getD 0)

/-- R13, R216: the Capo's free frames (assumption 30). -/
def firstPool (s : State) : List FrameRange :=
  let r := Config.poolReserved % 1572864
  let h := Config.hdmFrames % 2 ^ 23
  let compute := allDies.filter (fun d => d.val < 8 && present s d)
  compute.map (fun d => { tier := 2, home := d, first := d.val * 1572864 + r, count := 1572864 - r })
    ++ compute.map (fun d => { tier := 1, home := d, first := 2 ^ 24 + d.val * 2 ^ 17, count := 2 ^ 17 })
    ++ [{ tier := 3, home := 8, first := 2 ^ 25, count := 2 ^ 24 - 2 ^ 21 - 2 ^ 16 }]
    ++ (if present s 9 then [{ tier := 3, home := 9, first := 2 ^ 25 + 2 ^ 24, count := 2 ^ 24 - h }] else [])

/-- R26: does every present die reach every other? -/
def allRoutes (s : State) : Bool :=
  let p := allDies.filter (present s)
  p.all (fun a => p.all (fun b => a == b || routeUp s a.val b.val))

/-- Is a link still training? -/
def training (s : State) (ls : List LinkId) : Bool := ls.any (fun l => (getLink s l).st == .training)

/-- R381 step 5, R383, R386: the report and READY; the first level change goes to the first slot after: to F0, or to the level
of the floor curve's rung (R314). -/
def bootReady (s : State) : State :=
  if !Config.identityUsable s.boot.boots then bootFails s 5 4
  else
    let s := bootReport s 0 0
    scheduleLevel { s with boot := { s.boot with stat := 1, step := 0 } } (period s) (rungLevel s.bud.rung)

/-- R381 step 4: the interleave table and the fabric ports. -/
def bootFabric (s : State) : State :=
  let s := { s with
    boot := { s.boot with step := 4, itable := interleave s }
    ms := { s.ms with free := firstPool s } }
  foldAll s (fabLinks.filter (fun l => present s (linkDie l))) (fun s l => modLink s l (fun k => freshLink k .training))

/-- R381: the step after the one that has just passed. -/
def bootAdvance (s : State) : State :=
  if s.boot.stat ≠ 0 then s
  else
    let s := if s.boot.step = 3 && !training s dieLinks then (if allRoutes s then bootFabric s else bootFails s 3 3) else s
    if s.boot.stat = 0 && s.boot.step = 4 && !training s fabLinks then bootReady s else s

/-- R381 step 2, R382: the slot of the image that passes. -/
def bootSlot (s : State) : Option Nat :=
  if imagePasses 0 s.boot.minSvn then some 0 else if imagePasses 1 s.boot.minSvn then some 1 else none

/-- R26, R381 step 3: the self-tests have ended; failing dies are excluded, and the die links train. -/
def bootDies (s : State) (results : Vector DieTest 10) (slot : Nat) : State :=
  let up (d : DieId) : Bool := (results.get d).result = 0
  let s := { s with boot := { s.boot with
    slot := slot, standby := imagePasses slot s.boot.minSvn, minSvn := Nat.max s.boot.minSvn (imageSvn slot).toNat, step := 3
    tests := results.map (·.result)
    present := BitVec.ofNat 10 ((allDies.filter up).map (fun d => 2 ^ d.val)).sum
    forward := BitVec.ofNat 10 ((allDies.filter (fun d => up d || (results.get d).forward)).map (fun d => 2 ^ d.val)).sum } }
  let s := foldAll s allDies (fun s d => modDie s d (fun k => { k with st := if up d then .up else .absent }))
  let live (l : LinkId) : Bool := (ends l).all (fun e => s.boot.forward.getLsbD (linkDie e).val)
  foldAll s (dieLinks.filter live) (fun s l => modLink s l (fun k => freshLink k .training))

/-- BOOT_SELFTEST_DONE (R26, R381 to R383): the image is verified, and the self-tests have ended or timed out. The Capo of
bridge die 8 runs it, so that die has passed. -/
def execBootSelftestDone (results : Vector DieTest 10) (s : State) : Out :=
  if s.boot.stat ≠ 0 || s.boot.step ≠ 1 || (results.get 8).result ≠ 0 then .fault .notEnabled
  else match bootSlot s with
    | none => .next (bootFails s 2 1)
    | some slot =>
      let s := bootDies s results slot
      if allDies.all (fun d => !(d.val < 8 && present s d)) then .next (bootFails s 3 2)
      else .next (bootAdvance s)

/-- LINK_TRAIN_DONE (R351, R381). -/
def execLinkTrainDone (l : LinkId) (g0 g1 : Bool) (s : State) : Out :=
  if (getLink s l).st ≠ .training then .fault .notEnabled
  else .next (bootAdvance (trained s l g0 g1))

end Sys2Proof.Machine
end

