-- ==== Sys2Proof/Machine/Control.lean ====
section
/-! DEFINITION. Branches and hardware loops (R104, R105). -/

namespace Sys2Proof.Machine

/-- A literal offset in words. -/
def offsetOf (o : Operand) : Int :=
  match o with
  | .short v => v.toInt
  | .lit v => v.toInt
  | _ => 0

/-- R104: the direct target PC + 16 × t, or NOTMAPPED outside the 52-bit range. -/
def branchTarget (s : State) (g : Agent) (o : Operand) : Res VAddr :=
  let t : Int := (stOf s g).pc.toNat + 16 * offsetOf o
  if 0 ≤ t ∧ t < 2 ^ 52 then .ok (BitVec.ofInt 52 t) else raise s (flt .notmapped (BitVec.ofInt 64 t))

/-- R104: Check(x). -/
def checkTarget (s : State) (x : Word) : Res VAddr :=
  if x.toNat % 16 ≠ 0 then raise s (flt .align x 16)
  else if 2 ^ 52 ≤ x.toNat then raise s (flt .notmapped x)
  else .ok (x.setWidth 52)

/-- Commit, with the queues of sources popped, and move to an address. -/
def jump (s : State) (srcs : List Operand) (pc : VAddr) : Res Done := .ok (.commit s (popsOf srcs) (some pc))

/-- BR (R104). -/
def execBr (w : WordF) (s : State) : Out :=
  runWord w false (fun s g => do jump s [] (← branchTarget s g w.srcA)) s

/-- R104: the conditions of BC in L and S, A signed. -/
def bcCond (m : Nat) (a : Word) : Bool :=
  match m with
  | 0 => a = 0
  | 1 => a ≠ 0
  | 2 => a.toInt < 0
  | 3 => 0 ≤ a.toInt
  | 4 => 0 < a.toInt
  | _ => a.toInt ≤ 0

/-- R104: the conditions of BC in X, over the 64 mask bits. -/
def bcMask (m : Nat) (a : Word) : Bool :=
  match m with
  | 0 => a ≠ 0
  | 1 => a = BitVec.allOnes 64
  | _ => a = 0

/-- BC (R104). -/
def execBc (w : WordF) (s : State) : Out :=
  let srcs := [w.srcA]
  runWord w false (fun s g => do
    takeSources s g srcs []
    let a := scal s g w srcs 0
    if (if g.stream = .x then bcMask (w.mod.toNat % 4) a else bcCond (mod3 w) a)
    then jump s srcs (← branchTarget s g w.srcB)
    else donePop s srcs) s

/-- R104: the link of CALL: a31, or lanes 0 and 1 of v31 with the others kept. -/
def setLink (s : State) (g : Agent) (v : Word) : State :=
  modBankOf s g (fun k =>
    match g.stream with
    | .x => setV k 31 (((k.vec.v.get 31) >>> 64 <<< 64) ||| v.setWidth 2048)
    | t => setA k t 31 v)

/-- CALL (R104). -/
def execCall (w : WordF) (s : State) : Out :=
  runWord w false (fun s g => do
    let pc ← branchTarget s g w.srcA
    jump (setLink s g ((stOf s g).pc.setWidth 64 + 16)) [] pc) s

/-- RET (R104). -/
def execRet (w : WordF) (s : State) : Out :=
  let srcs := [Operand.reg 31]
  runWord w false (fun s g => do
    takeSources s g srcs []
    jump s [] (← checkTarget s (scal s g w srcs 0))) s

/-- BRI (R104). -/
def execBri (w : WordF) (s : State) : Out :=
  let srcs := [w.srcA]
  runWord w false (fun s g => do
    takeSources s g srcs []
    jump s srcs (← checkTarget s (scal s g w srcs 0))) s

/-- R105: the loop counter that mod[1:0] names. -/
def lcNo (w : WordF) : Fin 4 := Fin.ofNat 4 (w.mod.toNat % 4)

/-- The state with a loop counter of the stream written. -/
def putLc (s : State) (g : Agent) (n : Fin 4) (v : Word) : State := modBankOf s g (fun k => setLc k g.stream n v)

/-- LOOP.set (R105). -/
def execLoopSet (w : WordF) (s : State) : Out :=
  let srcs := [w.srcA]
  runWord w false (fun s g => do
    takeSources s g srcs []
    donePop (putLc s g (lcNo w) (scal s g w srcs 0)) srcs) s

/-- LOOP (R105). -/
def execLoop (w : WordF) (s : State) : Out :=
  runWord w false (fun s g => do
    let n := lcNo w
    if (regsOf s g).badLc.getLsbD n.val then raise s (eccRegs n.val)
    let v := (regsOf s g).lc.get n
    if 1 < v.toNat then do
      let pc ← branchTarget s g w.srcA
      jump (putLc s g n (v - 1)) [] pc
    else done (putLc s g n 0)) s

/-- LBRK (R105). -/
def execLbrk (w : WordF) (s : State) : Out :=
  runWord w false (fun s g => do
    let pc ← branchTarget s g w.srcA
    jump (putLc s g (lcNo w) 0) [] pc) s

end Sys2Proof.Machine
end

