-- ==== Sys2Proof/Machine/Panels.lean ====
section
/-! DEFINITION. What a matrix step reads and computes: panel images (R163 to R166), decoded operands with their scales and
structural elements (R78, R80), Hadamard transforms (R79), panel sums (R76, R77), and accumulator tiles (R167). -/

namespace Sys2Proof.Machine

/-! ### Slots -/

/-- A slot as a step reads it: the scratchpad bytes of the slot, where it stands, and its extents. -/
structure Slot where
  mem : Mem
  base : Nat
  ext : SlotExt
  deriving DecidableEq, Repr

/-- The slot at an offset from a ring's head. -/
def slotOf (s : State) (c : CoreId) (r : Ring) (off : Nat) : Slot :=
  let x := r.fromHead off
  let lo := r.slotAt x
  { mem := (getCore s c).spad.filter (fun a => lo ≤ a.1 && a.1 < lo + r.slotBytes), base := lo, ext := r.extOf x }

/-- A field of n bytes of a slot. -/
def Slot.field (t : Slot) (off n : Nat) : Nat := ofBytes (Mem.load t.mem (t.base + off) n)

/-- The n codes of width w of a row of `len` bytes. -/
def Slot.codes (t : Slot) (off len w n : Nat) : List Nat :=
  let v := t.field off len
  (List.range n).map (fun k => v / 2 ^ (w * k) % 2 ^ w)

/-- R98, R166, R376: what a step checks of a slot it reads: the resources of its bank, the tag, and the marks of the byte
ranges that it reads. -/
def readSlot (s : State) (c : CoreId) (b : BankId) (r : Ring) (off : Nat) (ok : Nat → Bool) (want : Nat)
    (ranges : List (Nat × Nat)) : Res Slot :=
  let t := slotOf s c r off
  if !ok r.tag then raise s { fmtFault r.tag want with addr := w64 t.base }
  else if !spadAllowed s c b t.base r.slotBytes then raise s (flt .prot (w64 t.base) 4)
  else match ranges.findSome? (fun x => unitsBad (getCore s c).badSpad (t.base + x.1) x.2) with
    | some u => raise s (flt .eccu (w64 t.base) 6 (w64 (u * 128)))
    | none => .ok t

/-- R166: a tag matches a format when it is raw or that format. -/
def tagIs (f : Nat) (tag : Nat) : Bool := tag = 0 || tag = f

/-! ### Operands (R76, R78 to R80, R163 to R166) -/

/-- A decoded panel: rows of 64 or 128 elements, structural ones none; the NQ4 scale of each row; the flags of its
decoding. -/
structure Panel where
  rows : List (List (Option Val))
  scales : List Val := []
  flags : Flagset := 0
  deriving DecidableEq, Repr

/-- The value of a code of a format under an MX scale, if there is one. -/
def operandVal (f : Nat) (sg : Bool) (x : Option Nat) (v : Nat) : Val :=
  if f = 10 then .num (nq4Code v)
  else match x with
    | some x => mxVal (codeFloat f) x v
    | none => codeVal f sg v

/-- A dense row of n elements. -/
def denseRow (t : Slot) (o n f : Nat) (sg : Bool) (scale : Nat → Option Nat) : List (Option Val) :=
  if !t.ext.rowIn o then List.replicate n none
  else
    let w := fmtBits f
    (List.zip (List.range n) (t.codes (n * w / 8 * o) (n * w / 8) w n)).map (fun p =>
      if p.1 < t.ext.k then some (operandVal f sg (scale p.1) p.2) else none)

/-- R80: a packed row: position k holds the next value where bit k of the bitmap is set. -/
def packedRow (t : Slot) (o n f : Nat) (sg : Bool) (bitmap : Nat) (scale : Nat → Option Nat) : List (Option Val) :=
  if !t.ext.rowIn o then List.replicate 64 none
  else
    let w := fmtBits f
    let codes := t.codes (n * w / 8 * o) (n * w / 8) w n
    (List.range 64).map (fun k =>
      if bitmap.testBit k && k < t.ext.k then
        (codes[((List.range k).filter (fun i => bitmap.testBit i)).length]?).map (fun v => operandVal f sg (scale k) v)
      else none)

/-- R74: an E8M0 scale of 0xFF was decoded for an element that takes part: one that is not structural, also where its
counterparts are (DESIGN CHOICE, assumption 78). -/
def scaleFlag (row : List (Option Val)) (scale : Nat → Option Nat) : Flagset :=
  flagIf ((List.zip (List.range row.length) row).any (fun p => p.2.isSome && scale p.1 == some 0xFF)) fSCNAN

/-- R164: the scale of position k of row o in a metadata slot. -/
def metaScale (d : Slot) (o k : Nat) : Nat := d.field (1024 + 2 * o + k / 32) 1

/-- R80: the values per row of a sparse record. -/
def sparseN (v : BitVec 3) : Nat :=
  match v.toNat with
  | 1 => 8
  | 2 => 16
  | 3 => 32
  | 4 => 48
  | _ => 0

/-- R164, R179: the A side of a record; `n` is 0 for a dense panel. -/
def operandA (f : Nat) (sg : Bool) (n : Nat) (t : Slot) (d : Option Slot) : Panel :=
  let rows := (List.range 128).map (fun o =>
    let scale (k : Nat) : Option Nat := match d with
      | some d => if isMxCode f then some (metaScale d o k) else none
      | none => none
    let nqS := match d with
      | some d => if f = 10 then d.field (1280 + o) 1 else 1
      | none => 1
    let row := match d with
      | some d => if 0 < n then packedRow t o n f sg (d.field (8 * o) 8) scale else denseRow t o 64 f sg scale
      | none => denseRow t o 64 f sg scale
    let row := if nqS = 0 then List.replicate 64 none else row
    (row, scaleFlag row scale))
  let scales := match d with
    | some d => if f = 10 then (List.range 128).map (fun o =>
        nq4Scale (d.field (1280 + o) 1) (decodeF ffF32 (d.field (1408 + 4 * o) 4))) else []
    | none => []
  { rows := rows.map (·.1), scales := scales, flags := (rows.map (·.2)).foldl (· ||| ·) 0 }

/-- R165, R179: the B side, by columns; its MX scales stand in the trailer. -/
def operandB (f : Nat) (sg : Bool) (t : Slot) : Panel :=
  let rows := (List.range 128).map (fun o =>
    let scale (k : Nat) : Option Nat := if isMxCode f then some (t.field (1024 * fmtBits f + 2 * o + k / 32) 1) else none
    let row := denseRow t o 64 f sg scale
    (row, scaleFlag row scale))
  { rows := rows.map (·.1), flags := (rows.map (·.2)).foldl (· ||| ·) 0 }

/-! ### Hadamard transforms (R79) -/

/-- R79: the transform of one group. -/
def hadGroup (n : Nat) (xs : List (Option Val)) : List (Option Val) × Flagset :=
  if xs.all Option.isNone then (xs, 0)
  else
    let vs := xs.map (fun x => x.getD (.zero false))
    let c := two (if n = 16 then -2 else -3)
    let rs := (List.range xs.length).map (fun i =>
      let r := sumV ((List.zip (List.range vs.length) vs).map (fun p =>
        if ((List.range 6).filter (fun b => (i &&& p.1).testBit b)).length % 2 = 1 then p.2.flip else p.2))
      ((mulV r.1 (.num c)).1, r.2))
    (rs.map (fun r => some r.1), (rs.map (·.2)).foldl (· ||| ·) 0)

/-- R79: a row of 64 in groups of n. -/
def hadRow (n : Nat) (row : List (Option Val)) : List (Option Val) × Flagset :=
  let gs := (List.range (64 / n)).map (fun g => hadGroup n ((row.drop (n * g)).take n))
  (gs.flatMap (·.1), (gs.map (·.2)).foldl (· ||| ·) 0)

/-- The size that a record's had field names (R46, R79). -/
def hadSize (v : BitVec 2) : Nat := 8 * 2 ^ v.toNat

/-- R79: a whole panel transformed. -/
def hadPanel (n : Nat) (p : Panel) : Panel :=
  let rs := p.rows.map (hadRow n)
  { p with rows := rs.map (·.1), flags := (rs.map (·.2)).foldl (· ||| ·) p.flags }

/-! ### Panel sums (R76 to R78) -/

/-- R76: the products of a row and a column, none where either element is structural. -/
def products (rn : Bool) (a b : List (Option Val)) : List (Val × Flagset) :=
  (List.zip a b).filterMap (fun p => match p.1, p.2 with
    | some x, some y =>
      let m := mulV x y
      if rn then (let r := rn32v m.1; some (r.1, m.2 ||| r.2)) else some m
    | _, _ => none)

/-- R76 step 5, R119: RN32 of a sum with the accumulator. -/
def accAdd (old : Nat) (p : Val) : Nat × Flagset :=
  let a := addV (decodeF ffF32 old) p
  let r := rn32 a.1
  (r.1, a.2 ||| r.2)

/-- R76, R77: the new accumulator, none where no product is formed (R78). `e` is the scale of an NQ4 row; its block sum is
exact over every format of the other side. -/
def stepSum (rn : Bool) (e : Option Val) (a b : List (Option Val)) (old : Nat) : Option (Nat × Flagset) :=
  let ps := products (rn && e.isNone) a b
  if ps.isEmpty then none
  else
    let fl := (ps.map (·.2)).foldl (· ||| ·) 0
    let t := sumV (ps.map (·.1))
    let p := rn32v t.1
    let y := match e with
      | some e => (let m := mulV p.1 e; let r := rn32v m.1; (r.1, m.2 ||| r.2))
      | none => (p.1, (0 : Flagset))
    let r := accAdd old y.1
    some (r.1, fl ||| t.2 ||| p.2 ||| y.2 ||| r.2)

/-! ### Accumulator tiles (R167) -/

/-- The first byte of a tile in the store. -/
def tileAt (t : Nat) : Nat := 65536 * t

/-- The elements of a tile, by rows. -/
def tileRows (s : State) (c : CoreId) (t : Nat) : List (List Nat) :=
  let m := (getCore s c).acc.filter (fun a => tileAt t ≤ a.1 && a.1 < tileAt (t + 1))
  (List.range 128).map (fun i =>
    let lo := tileAt t + 512 * i
    let row := m.filter (fun a => lo ≤ a.1 && a.1 < lo + 512)
    (List.range 128).map (fun j => ofBytes (Mem.load row (lo + 4 * j) 4)))

/-- R376: reading marked units of a tile raises ECCU; `reads` says which elements are read. -/
def checkTile (s : State) (c : CoreId) (t : Nat) (reads : Nat → Nat → Bool) : Res Unit :=
  match (getCore s c).badAcc.find? (fun u => 512 * t ≤ u && u < 512 * (t + 1)
      && (List.range 32).any (fun j => reads (u % 512 / 4) (32 * (u % 4) + j))) with
  | some u => raise s (flt .eccu 0 7 (w64 (128 * u)))
  | none => .ok ()

/-- R98: a step's use of a tile. -/
def checkTileUse (s : State) (c : CoreId) (b : BankId) (t : Nat) : Res Unit :=
  if tileAllowed s c b t then .ok () else raise s (flt .prot 0 4)

/-- The new elements of a tile are written; a mark goes when its whole unit is written (R376). -/
def putTile (s : State) (c : CoreId) (t : Nat) (rows : List (List (Nat × Bool))) : State :=
  let bytes := rows.flatMap (fun r => r.flatMap (fun e => toBytes 4 e.1))
  let written (u : Nat) : Bool := ((rows[u % 512 / 4]?).getD []).zipIdx.all (fun e =>
    e.2 / 32 != u % 4 || e.1.2)
  modCore s c (fun k => { k with
    acc := Mem.store k.acc (tileAt t) bytes
    badAcc := k.badAcc.filter (fun u => !(512 * t ≤ u && u < 512 * (t + 1) && written u)) })

/-- Every element of a tile is given its new value, where there is one; the flags go to MSTAT. -/
def mapTile (s : State) (c : CoreId) (b : BankId) (t : Nat) (old : List (List Nat))
    (f : Nat → Nat → Nat → Option (Nat × Flagset)) : State :=
  let rs := old.zipIdx.map (fun r => r.1.zipIdx.map (fun e => (e.1, f r.2 e.2 e.1)))
  let fl := (rs.flatMap (fun r => r.map (fun e => match e.2 with
    | some x => x.2
    | none => 0))).foldl (· ||| ·) 0
  let rows := rs.map (fun r => r.map (fun e => match e.2 with
    | some x => (x.1, true)
    | none => (e.1, false)))
  setMstat (putTile s c t rows) c b fl

/-- The tile becomes +0 (R181, R182). -/
def clearTile (s : State) (c : CoreId) (t : Nat) : State :=
  putTile s c t (List.replicate 128 (List.replicate 128 (0, true)))

end Sys2Proof.Machine
end

