-- ==== Sys2Proof/Machine/Matrix.lean ====
section
/-! DEFINITION. Matrix records: acceptance (R168, R169), the loop nest with its waits and pops (R170, R171), faults of a
step (R173), and the nine forms (R177 to R184). -/

namespace Sys2Proof.Machine

/-! ### The loop nest (R170) -/

/-- The stride of level l, signed. -/
def strideOf (f : BitVec 64) (l : Nat) : Int := toSigned 16 (f.toNat / 2 ^ (16 * l))

/-- An offset at indices of the four levels. -/
def nestOff (f : BitVec 64) (i0 i1 i2 i3 : Nat) : Int :=
  strideOf f 0 * i0 + strideOf f 1 * i1 + strideOf f 2 * i2 + strideOf f 3 * i3

/-- The least and the greatest offset over every step. -/
def nestSpan (f : BitVec 64) (r : RecF) : Int × Int :=
  let parts := [strideOf f 0 * r.t0.toNat, strideOf f 1 * r.t1.toNat, strideOf f 2 * r.t2.toNat, strideOf f 3 * r.t3.toNat]
  ((parts.map (min 0)).sum, (parts.map (max 0)).sum)

/-- Ends(L): the levels below L have reached their last index. -/
def nestEnds (m : MatRec) (l : Nat) : Bool :=
  (l < 1 || m.i0 == m.rf.t0.toNat) && (l < 2 || m.i1 == m.rf.t1.toNat) && (l < 3 || m.i2 == m.rf.t2.toNat)

/-- Is this the record's final step? -/
def nestLast (m : MatRec) : Bool := nestEnds m 3 && m.i3 == m.rf.t3.toNat

/-- The indices of the next step. -/
def nestNext (m : MatRec) : MatRec :=
  if m.i0 < m.rf.t0.toNat then { m with i0 := m.i0 + 1 }
  else if m.i1 < m.rf.t1.toNat then { m with i0 := 0, i1 := m.i1 + 1 }
  else if m.i2 < m.rf.t2.toNat then { m with i0 := 0, i1 := 0, i2 := m.i2 + 1 }
  else { m with i0 := 0, i1 := 0, i2 := 0, i3 := m.i3 + 1 }

/-- The offset of a step in rings A and D. -/
def MatRec.oA (m : MatRec) : Nat := (nestOff m.rf.aStr m.i0 m.i1 m.i2 m.i3).toNat
/-- The offset of a step in ring B. -/
def MatRec.oB (m : MatRec) : Nat := (nestOff m.rf.bStr m.i0 m.i1 m.i2 m.i3).toNat
/-- The tile of a step. -/
def MatRec.tt (m : MatRec) : Nat := (m.rf.tile.toNat + nestOff m.rf.tStr m.i0 m.i1 m.i2 m.i3).toNat
/-- R181: the source tile of a step of MADDA. -/
def MatRec.srcTile (m : MatRec) : Nat := ((m.rf.bStr.toNat % 64 : Nat) + nestOff m.rf.aStr m.i0 m.i1 m.i2 m.i3).toNat

/-- The ring of a pop control: 0 A, 1 B, 2 D. -/
def popRing (m : MatRec) (i : Fin 3) : Fin 8 :=
  match i with
  | 0 => m.rf.ringA
  | 1 => m.rf.ringB
  | 2 => m.rf.ringD

/-- The pops that follow a step, in the order A, B, D. -/
def popsDue (m : MatRec) : List (Fin 3) :=
  (if m.rf.popA && nestEnds m m.rf.lvA.toNat then [0] else [])
    ++ (if m.rf.popB && nestEnds m m.rf.lvB.toNat then [1] else [])
    ++ (if m.rf.popD && m.useD && nestEnds m m.rf.lvD.toNat then [2] else [])

/-! ### What a record uses (R163, R169, R177) -/

/-- Does a record write block scales to a ring D (R182)? -/
def storesMeta (r : RecF) : Bool := isMxCode (Fmt.code r.fmtO) || r.fmtO = .nq4

/-- Does a record read ring D (R177)? `kindB` says that MHAD's source is of kind B. -/
def readsMeta (f : MForm) (r : RecF) (kindB : Bool) : Bool :=
  match f with
  | .mma => isMxCode (Fmt.code r.fmtA) || r.fmtA = .nq4
  | .mmas => true
  | .mhad => isMxCode (Fmt.code r.fmtA) && !kindB
  | .mclr | .mlda | .msta | .mscl | .madda | .mxp => false

/-- R163: the data size of an image, packed by N-of-64 where n is not 0. -/
def sizeOf (k : RingKind) (f n : Nat) : Nat := if k = .a && 0 < n then 16 * n * fmtBits f else imageBytes k f

/-- The rings that a record names, each with the kinds its form takes, the code its image size follows, the packing, and
the strides of its reads: none for a ring it writes. -/
def ringUses (f : MForm) (r : RecF) (kindOfA : RingKind) : List (Fin 8 × List RingKind × Nat × Nat × Option (BitVec 64)) :=
  let a := Fmt.code r.fmtA
  let b := Fmt.code r.fmtB
  let o := Fmt.code r.fmtO
  let d : List (Fin 8 × List RingKind × Nat × Nat × Option (BitVec 64)) :=
    if readsMeta f r (kindOfA == .b) then [(r.ringD, [.d], 11, 0, some r.aStr)] else []
  match f with
  | .mma => [(r.ringA, [.a], a, 0, some r.aStr), (r.ringB, [.b], b, 0, some r.bStr)] ++ d
  | .mmas => [(r.ringA, [.a], a, sparseN r.sparse, some r.aStr), (r.ringB, [.b], b, 0, some r.bStr)] ++ d
  | .mhad => [(r.ringA, [.a, .b], a, 0, some r.aStr), (r.ringB, [kindOfA], o, 0, none)] ++ d
  | .mlda => [(r.ringA, [.t], a, 0, some r.aStr)]
  | .mxp => [(r.ringA, [.t], a, 0, some r.aStr), (r.ringB, [.t], a, 0, none)]
  | .msta =>
    if r.mod.getLsbD 3 then []
    else [(r.ringB, (if storesMeta r then [.a] else [.a, .b, .t]), o, 0, none)]
      ++ (if storesMeta r then [(r.ringD, [.d], 11, 0, none)] else [])
  | .mclr | .mscl | .madda => []

/-- R177: does a form touch tiles? -/
def usesTile (f : MForm) : Bool :=
  match f with
  | .mhad | .mxp => false
  | .mma | .mmas | .mclr | .mlda | .msta | .mscl | .madda => true

/-- The spans of tiles that a record's steps touch. -/
def tileSpans (f : MForm) (r : RecF) : List (BitVec 64 × Nat) :=
  (if usesTile f then [(r.tStr, r.tile.toNat)] else []) ++ (if f = .madda then [(r.aStr, r.bStr.toNat % 64)] else [])

/-- The tiles of a span whose offsets all lie in 0 to 47. -/
def tilesOf (f : BitVec 64) (base : Nat) (r : RecF) : List Nat :=
  let level (l n : Nat) (ts : List Int) : List Int :=
    if strideOf f l = 0 then ts else (ts.flatMap (fun t => (List.range (n + 1)).map (fun k => t + strideOf f l * k))).dedup
  (level 3 r.t3.toNat (level 2 r.t2.toNat (level 1 r.t1.toNat (level 0 r.t0.toNat [(base : Int)])))).map Int.toNat

/-- R169 check 1: every ring is initialised and of its kind. -/
def checkKinds (s : State) (g : Agent) : List (Fin 8 × List RingKind × Nat × Nat × Option (BitVec 64)) → Res Unit
  | [] => .ok ()
  | u :: us => do
    let r ← needRing s g u.1
    if !u.2.1.contains r.kind then raise s (ringFault u.1 (w64 u.1.val))
    checkKinds s g us

/-- The ring of a bank that acceptance has found initialised. -/
def ringAt (s : State) (g : Agent) (n : Fin 8) : Ring :=
  (getRing s g.core g.bank n).getD { base := 0, slots := 0, ksize := 0, kind := .a, tag := 0 }

/-- R169, at acceptance; `mod` is the record's. -/
def checkRecord (s : State) (g : Agent) (f : MForm) (r : RecF) : Res Unit := do
  let ka := (ringAt s g r.ringA).kind
  let uses := ringUses f r ka
  checkKinds s g uses
  if f = .mhad && ka = .b && (r.ringD ≠ 0 || r.popD || r.lvD ≠ 0) then raise s (ringFault r.ringD (w64 r.ringD.val))
  match uses.find? (fun u => match u.2.2.2.2 with
      | some st => (nestSpan st r).1 < 0 || ((ringAt s g u.1).slots : Int) ≤ (nestSpan st r).2
      | none => false) with
  | some u => raise s (ringFault u.1 (w64 u.1.val))
  | none =>
    match uses.find? (fun u => (ringAt s g u.1).slotBytes < sizeOf (ringAt s g u.1).kind u.2.2.1 u.2.2.2.1) with
    | some u => raise s (ringFault u.1 (w64 u.1.val))
    | none => do
      let spans := tileSpans f r
      if spans.any (fun x => (x.2 : Int) + (nestSpan x.1 r).1 < 0 || 47 < (x.2 : Int) + (nestSpan x.1 r).2)
      then raise s (flt .prot 0 8)
      if (spans.flatMap (fun x => tilesOf x.1 x.2 r)).any (fun t => !tileAllowed s g.core g.bank t)
      then raise s (flt .prot 0 4)

/-- The room of the sequencer (R168). -/
def seqRoom (k : Bank) : Bool := k.eng.recs.length < 4

/-- R168: a record is accepted: the next number of tl.m, with SRSEED and MSRPOS as they stand (R70). -/
def acceptRec (s : State) (g : Agent) (f : MForm) (r : RecF) : State :=
  let ka := (ringAt s g r.ringA).kind
  modBankOf s g (fun k =>
    let num := k.eng.issued.get 0 + 1
    let m : MatRec := { form := f, rf := r, num := num, rings := (ringUses f r ka).map (·.1)
                        useD := readsMeta f r (ka == .b), seed := k.sregs.srseed, mpos := k.sregs.msrpos }
    let k := { k with eng := { k.eng with issued := vset k.eng.issued 0 num, recs := k.eng.recs ++ [m] } }
    k.modRegs .x (fun x => { x with last := vset x.last 0 num }))

/-- A matrix record at X (R48, R168, R169). -/
def matForm (f : MForm) (r : RecF) (s : State) : Out :=
  runRec r (fun s g => do
    if !seqRoom (bankOf s g) then stall s .op
    checkRecord s g f r
    done (acceptRec s g f r)) s

/-- MMA (R179). -/
def execMma (r : RecF) (s : State) : Out := matForm .mma r s
/-- MMAS (R179). -/
def execMmas (r : RecF) (s : State) : Out := matForm .mmas r s
/-- MHAD (R180). -/
def execMhad (r : RecF) (s : State) : Out := matForm .mhad r s
/-- MCLR (R181). -/
def execMclr (r : RecF) (s : State) : Out := matForm .mclr r s
/-- MLDA (R181). -/
def execMlda (r : RecF) (s : State) : Out := matForm .mlda r s
/-- MSTA (R182). -/
def execMsta (r : RecF) (s : State) : Out := matForm .msta r s
/-- MSCL (R183). -/
def execMscl (r : RecF) (s : State) : Out := matForm .mscl r s
/-- MADDA (R181). -/
def execMadda (r : RecF) (s : State) : Out := matForm .madda r s
/-- MXP (R184). -/
def execMxp (r : RecF) (s : State) : Out := matForm .mxp r s

/-! ### Waits and costs (R171, R175, R326) -/

/-- R171: the panels a step reads are there and the slots it appends to are free. -/
def stepWaits (s : State) (c : CoreId) (b : BankId) (m : MatRec) : Bool :=
  let ring (n : Fin 8) : Ring := ringAt s { core := c, bank := b, stream := .x } n
  let has (n : Fin 8) (o : Nat) : Bool := o < (ring n).held
  let free (n : Fin 8) (k : Nat) : Bool := (ring n).held + k ≤ (ring n).slots
  let d := !m.useD || has m.rf.ringD m.oA
  let k := getBank s c b
  let ok := match m.form with
    | .mma | .mmas => has m.rf.ringA m.oA && has m.rf.ringB m.oB && d
    | .mhad => has m.rf.ringA m.oA && d && free m.rf.ringB 1
    | .mlda => has m.rf.ringA m.oA
    | .mxp => has m.rf.ringA m.oA && free m.rf.ringB 1
    | .mscl => 2 ≤ (k.q.get (Fin.ofNat 16 m.rf.ringA.val)).seen (now s)
    | .msta =>
      if m.rf.mod.getLsbD 3 then true
      else free m.rf.ringB (if (ring m.rf.ringB).kind = .t then 1 else 2) && (!storesMeta m.rf || free m.rf.ringD 2)
    | .mclr | .madda => true
  !ok

/-- R175: the cost of an operand of a format. -/
def fmtCost (f : Nat) : Nat :=
  match f with
  | 1 => 512
  | 2 | 3 => 128
  | 4 | 5 | 6 | 8 => 64
  | _ => 32

/-- R175: the issue cycles of a step. -/
def stepCost (m : MatRec) : Nat :=
  let c := max (fmtCost (Fmt.code m.rf.fmtA)) (fmtCost (Fmt.code m.rf.fmtB))
  match m.form with
  | .mma => c
  | .mmas => c * max (sparseN m.rf.sparse) 16 / 64
  | .mhad | .mscl | .madda => 64
  | .mlda | .mxp => 128
  | .msta => if storesMeta m.rf then 256 else 128
  | .mclr => 4

/-- R20: how many of the first n cycles of a group, and of the groups after it, are issue cycles at cadence k/8. -/
def issueCount (k n : Nat) : Nat := n * k / 8

/-- R20, R326: a step starts only if its issue cycles, from this one on at the cadence in force, end before the next slot. -/
def stepFits (s : State) (c : CoreId) (m : MatRec) : Bool :=
  let k := cadenceOf s c
  let n := (dieCycle s (dieOf c)).toNat % 8
  !inSlot s && issueCount k n + stepCost m ≤ issueCount k (n + (slotStartFrom s (now s + 1) - now s))

/-! ### Steps (R179 to R184) -/

/-- Where the sequencer works: a core and a bank. -/
structure Seq where
  core : CoreId
  bank : BankId
  deriving DecidableEq, Repr

/-- The agent on whose behalf the sequencer works. -/
def Seq.agent (q : Seq) : Agent := { core := q.core, bank := q.bank, stream := .x }

/-- R164, R179: the byte ranges of a kind-D slot that a record reads, by the extents of the A slot that it describes: the
bitmaps and the scales of its rows in bounds. -/
def metaRanges (r : RecF) (e : SlotExt) : List (Nat × Nat) :=
  let rows := (List.range 128).filter e.rowIn
  (if r.sparse ≠ 0 then rows.map (fun o => (8 * o, 8)) else [])
    ++ (if isMxCode (Fmt.code r.fmtA) then rows.map (fun o => (1024 + 2 * o, ceilDiv e.k 32)) else [])
    ++ (if r.fmtA = .nq4 then rows.flatMap (fun o => [(1280 + o, 1), (1408 + 4 * o, 4)]) else [])

/-- The metadata slot of a step, if the record reads one, for an A slot of given extents. -/
def metaSlot (s : State) (q : Seq) (m : MatRec) (e : SlotExt) : Res (Option Slot) :=
  if m.useD then do
    let t ← readSlot s q.core q.bank (ringAt s q.agent m.rf.ringD) m.oA (fun t => t = 0 || t = 11) 11 (metaRanges m.rf e)
    .ok (some t)
  else .ok none

/-- The byte ranges of a slot that a step reads: the rows in bounds, packed ones (R80) or dense. -/
def slotRanges (r : Ring) (f n off : Nat) : List (Nat × Nat) :=
  let e := r.extOf (r.fromHead off)
  let len := n * fmtBits f / 8
  if 0 < n then ((List.range 128).filter e.rowIn).map (fun o => (len * o, len))
  else (inBound r f e).filter (fun x => x.1 < imageBytes r.kind f)

/-- A slot of a ring that a step reads in a format. -/
def stepSlot (s : State) (q : Seq) (n : Fin 8) (off f packed : Nat) : Res Slot :=
  let r := ringAt s q.agent n
  readSlot s q.core q.bank r off (tagIs f) f (slotRanges r f packed off)

/-- R80, R179: every bitmap that a step reads has N bits set. A row of a null index is structural whole (R152), and so its bitmap is
neither read nor checked, as that of a row at o ≥ vj is (DESIGN CHOICE, assumption 78). -/
def checkBitmaps (s : State) (n : Nat) (t : Slot) (d : Option Slot) : Res Unit :=
  match d with
  | none => .ok ()
  | some d =>
    if (List.range 128).any (fun o => t.ext.rowIn o && popCount (BitVec.ofNat 64 (d.field (8 * o) 8)) != n)
    then raise s { flt .fmt with addr := w64 d.base } else .ok ()

/-- R179: a step of MMA or MMAS. -/
def mmaStep (s : State) (q : Seq) (m : MatRec) : Res State := do
  let r := m.rf
  let fa := Fmt.code r.fmtA
  let fb := Fmt.code r.fmtB
  let n := if m.form = .mmas then sparseN r.sparse else 0
  let ta ← stepSlot s q r.ringA m.oA fa n
  let tb ← stepSlot s q r.ringB m.oB fb 0
  let d ← metaSlot s q m ta.ext
  if 0 < n then checkBitmaps s n ta d
  checkTileUse s q.core q.bank m.tt
  let a := operandA fa r.sgnA n ta d
  let b := operandB fb r.sgnB tb
  let a := if r.had ≠ 0 && !r.hside then hadPanel (hadSize r.had) a else a
  let b := if r.had ≠ 0 && r.hside then hadPanel (hadSize r.had) b else b
  let first := !r.accum && !m.tiles.contains m.tt
  let ra := a.rows.toArray
  let rb := b.rows.toArray
  let es := a.scales.toArray
  let rn := fa = 1 || fb = 1
  let sum (i j old : Nat) := stepSum rn (es[i]?) ((ra[i]?).getD []) ((rb[j]?).getD []) old
  let meets (i j : Nat) : Bool := !(products false ((ra[i]?).getD []) ((rb[j]?).getD [])).isEmpty
  if !first then checkTile s q.core m.tt meets
  let old := if first then List.replicate 128 (List.replicate 128 0) else tileRows s q.core m.tt
  let s := mapTile s q.core q.bank m.tt old (fun i j x =>
    match sum i j x with
    | some v => some v
    | none => if first then some (0, 0) else none)
  .ok (setMstat s q.core q.bank (a.flags ||| b.flags))

/-- R98, R162: what a step checks of the slots it appends to: the resources of its bank and the tag. `k` counts the slots
that the step appends before this one. -/
def checkAppend (s : State) (q : Seq) (n : Fin 8) (f k : Nat) : Res Unit :=
  let r := ringAt s q.agent n
  let lo := r.slotAt (if r.slots = 0 then 0 else (r.tail + k) % r.slots)
  if !r.tagFits f then raise s { fmtFault f r.tag with addr := w64 lo }
  else if !spadAllowed s q.core q.bank lo r.slotBytes then raise s (flt .prot (w64 lo) 4)
  else .ok ()

/-- A panel is appended: byte runs of the slot at the tail, one write of the step (R376), then the tail advances (R161,
R171). -/
def appendPanel (s : State) (q : Seq) (n : Fin 8) (f : Nat) (e : SlotExt) (runs : List (Nat × List Byte)) : State :=
  let r := ringAt s q.agent n
  let s := spadCells s q.core (runs.flatMap (fun x => cellsAt (r.slotAt r.tail + x.1) x.2))
  setRing s q.core q.bank n (r.append e (some f))

/-- Codes of width w as bytes (R62). -/
def packCodes (w : Nat) (codes : List Nat) : List Byte := toBytes (ceilDiv (codes.length * w) 8) (ofElems w codes)

/-- The rounding of a record's rnd field at a site and a position (R68, R69). -/
def recRnd (m : MatRec) (site pos : Nat) : Rnd := rndAt m.rf.rnd.toNat m.seed site ((m.mpos.toNat + pos) % 2 ^ 64)

/-- R180: a step of MHAD. -/
def mhadStep (s : State) (q : Seq) (m : MatRec) : Res (State × MatRec) := do
  let r := m.rf
  let fa := Fmt.code r.fmtA
  let fo := Fmt.code r.fmtO
  let t ← stepSlot s q r.ringA m.oA fa 0
  let d ← metaSlot s q m t.ext
  checkAppend s q r.ringB fo 0
  let src := if (ringAt s q.agent r.ringA).kind = .b then operandB fa false t else operandA fa false 0 t d
  let n := hadSize r.had
  let h := hadPanel n src
  let kx := Nat.min 64 (ceilDiv t.ext.k n * n)
  let w := fmtBits fo
  let rows := ((List.zip (List.range 128) h.rows).filter (fun x => t.ext.rowIn x.1)).map (fun x =>
    (x.1, (List.zip (List.range kx) x.2).map (fun e =>
      roundF (codeFloat fo) (recRnd m 2 (8192 * m.appended + 64 * x.1 + e.1)) r.sat false (e.2.getD (.zero false)))))
  let fl := rows.foldl (fun a x => x.2.foldl (fun a e => a ||| e.2) a) h.flags
  let runs := rows.map (fun x => (8 * w * x.1, packCodes w (x.2.map (·.1))))
  let s := appendPanel s q r.ringB fo { t.ext with k := kx } runs
  .ok (setMstat s q.core q.bank fl, { m with appended := m.appended + 1 })

/-- R181: a step of MCLR. -/
def mclrStep (s : State) (q : Seq) (m : MatRec) : Res State := do
  checkTileUse s q.core q.bank m.tt
  .ok (clearTile s q.core m.tt)

/-- R181: a step of MLDA. -/
def mldaStep (s : State) (q : Seq) (m : MatRec) : Res State := do
  let r := m.rf
  let fa := Fmt.code r.fmtA
  let t ← stepSlot s q r.ringA m.oA fa 0
  checkTileUse s q.core q.bank m.tt
  let rows := ((List.range 128).map (fun o => denseRow t o 128 fa r.sgnA (fun _ => none))).toArray
  let x (i j : Nat) : Option Val := ((((rows[i]?).getD [])[j]?).getD none)
  if r.accum then checkTile s q.core m.tt (fun i j => (x i j).isSome)
  .ok (mapTile s q.core q.bank m.tt (tileRows s q.core m.tt) (fun i j old =>
    match x i j with
    | some v => if r.accum then some (accAdd old v) else some ((rn32 v).1, 0)
    | none => if r.accum then none else some (0, 0)))

/-- R181: a step of MADDA. -/
def maddaStep (s : State) (q : Seq) (m : MatRec) : Res State := do
  checkTileUse s q.core q.bank m.tt
  checkTileUse s q.core q.bank m.srcTile
  checkTile s q.core m.srcTile (fun _ _ => true)
  if m.rf.accum then checkTile s q.core m.tt (fun _ _ => true)
  let src := ((tileRows s q.core m.srcTile).map List.toArray).toArray
  let x (i j : Nat) : Nat := (((src[i]?).getD #[])[j]?).getD 0
  .ok (mapTile s q.core q.bank m.tt (tileRows s q.core m.tt) (fun i j old =>
    if m.rf.accum then some (accAdd old (decodeF ffF32 (x i j))) else some (x i j, 0)))

/-- R183: a step of MSCL. -/
def msclStep (s : State) (q : Seq) (m : MatRec) : Res State := do
  let n : Fin 16 := Fin.ofNat 16 m.rf.ringA.val
  let es := ((getBank s q.core q.bank).q.get n).items.take 2
  if es.any (·.bad) then raise s (eccRegs n.val)
  checkTileUse s q.core q.bank m.tt
  checkTile s q.core m.tt (fun _ _ => true)
  let cs := (es.flatMap (fun e => (List.range 64).map (elemAt e.val 32))).toArray
  let row := m.rf.mod.getLsbD 0
  let s := modBank s q.core q.bank (fun k => popQ k n (now s) 2)
  .ok (mapTile s q.core q.bank m.tt (tileRows s q.core m.tt) (fun i j old =>
    let p := mulV (decodeF ffF32 old) (decodeF ffF32 ((cs[if row then i else j]?).getD 0))
    let x := rn32 p.1
    some (x.1, p.2 ||| x.2)))

/-- R184: a step of MXP. -/
def mxpStep (s : State) (q : Seq) (m : MatRec) : Res State := do
  let r := m.rf
  let f := Fmt.code r.fmtA
  let w := fmtBits f
  let t ← stepSlot s q r.ringA m.oA f 0
  checkAppend s q r.ringB f 0
  let rows := ((List.range 128).map (fun o => (t.codes (16 * w * o) (16 * w) w 128).toArray)).toArray
  let runs := (List.range 128).map (fun o =>
    (16 * w * o, packCodes w ((List.range 128).map (fun k => (((rows[k]?).getD #[])[o]?).getD 0))))
  .ok (appendPanel s q r.ringB f { v := t.ext.k, k := t.ext.v } runs)

/-! ### MSTA (R182) -/

/-- R182: a run of elements converted to a format: codes, the bytes of its block scales, flags. `pos` is the SR position of
element k of the run. -/
def outRun (m : MatRec) (f : Nat) (vs : List Val) (pos : Nat → Nat) : List Nat × List Byte × Flagset :=
  let rnd (k : Nat) : Rnd := recRnd m 1 (pos k)
  if isMxCode f then
    let bs := (List.range (vs.length / 32)).map (fun b =>
      mxEncode (mxType f) (fun j => rnd (32 * b + j)) ((vs.drop (32 * b)).take 32))
    (bs.flatMap (fun x => x.2.1), bs.map (fun x => BitVec.ofNat 8 x.1), (bs.map (fun x => x.2.2)).foldl (· ||| ·) 0)
  else if f = 10 then
    if vs.any Val.special then (vs.map (fun _ => 0), toBytes 5 0, fNV)
    else if vs.all Val.isZero then (vs.map (fun _ => 0), toBytes 5 0, 0)
    else
      let sup := (rn32 (.num (maxMag vs * mkRat 129 128))).1
      let e := nq4Encode (decodeF ffF32 sup) rnd vs
      (e.2.1, toBytes 1 e.1 ++ toBytes 4 (if sup = 0x7F800000 then 0 else sup), e.2.2)
  else
    let rs := (List.zip (List.range vs.length) vs).map (fun x =>
      if f = 8 || f = 9 then floatToInt m.rf.sgnA (fmtBits f) (rnd x.1) x.2
      else roundF (codeFloat f) (rnd x.1) m.rf.sat false x.2)
    (rs.map (·.1), [], (rs.map (·.2)).foldl (· ||| ·) 0)

/-- The elements of a tile as values. -/
def tileVals (s : State) (c : CoreId) (t : Nat) : Array (Array Val) :=
  ((tileRows s c t).map (fun r => (r.map (decodeF ffF32)).toArray)).toArray

/-- The value of element (i, j). -/
def valAt (a : Array (Array Val)) (i j : Nat) : Val := (((a[i]?).getD #[])[j]?).getD (.zero false)

/-- R182: one panel: for each outer index, its run of elements as (row, column). The byte runs of the panel, those of its
D slot, and the flags. -/
def outPanel (m : MatRec) (f n : Nat) (a : Array (Array Val)) (at_ : Nat → Nat → Nat × Nat) :
    List (Nat × List Byte) × List (Nat × List Byte) × Flagset :=
  let w := fmtBits f
  let rs := (List.range 128).map (fun o =>
    let ps := (List.range n).map (at_ o)
    let x := outRun m f (ps.map (fun p => valAt a p.1 p.2)) (fun k =>
      let p := at_ o k
      16384 * m.tt + 128 * p.1 + p.2)
    (o, x))
  (rs.map (fun x => (n * w / 8 * x.1, packCodes w x.2.1)),
    rs.flatMap (fun x =>
      if isMxCode f then [(1024 + 2 * x.1, x.2.2.1)]
      else if f = 10 then [(1280 + x.1, x.2.2.1.take 1), (1408 + 4 * x.1, x.2.2.1.drop 1)] else []),
    (rs.map (fun x => x.2.2.2)).foldl (· ||| ·) 0)

/-- R182: .clr, once the last element is read. -/
def clearAfter (s : State) (q : Seq) (m : MatRec) : State := if m.rf.mod.getLsbD 1 then clearTile s q.core m.tt else s

/-- R182: a step of MSTA to a ring. -/
def mstaStep (s : State) (q : Seq) (m : MatRec) : Res State := do
  let r := m.rf
  let f := Fmt.code r.fmtO
  let gb := ringAt s q.agent r.ringB
  checkTileUse s q.core q.bank m.tt
  checkTile s q.core m.tt (fun _ _ => true)
  checkAppend s q r.ringB f 0
  if gb.kind ≠ .t then checkAppend s q r.ringB f 1
  if storesMeta r then
    checkAppend s q r.ringD 11 0
    checkAppend s q r.ringD 11 1
  let a := tileVals s q.core m.tt
  if gb.kind = .t then
    let p := outPanel m f 128 a (fun o k => (o, k))
    let s := appendPanel s q r.ringB f { v := 128, k := 128 } p.1
    .ok (setMstat (clearAfter s q m) q.core q.bank p.2.2)
  else
    let half (s : State) (h : Nat) : State :=
      let p := outPanel m f 64 a (fun o k => if gb.kind = .a then (o, 64 * h + k) else (64 * h + k, o))
      let s := appendPanel s q r.ringB f { v := 128, k := 64 } p.1
      let s := if storesMeta r
        then appendPanel s q r.ringD 11 { v := 128, k := 64 }
          ((0, List.replicate (ringAt s q.agent r.ringD).slotBytes 0) :: p.2.1) else s
      setMstat s q.core q.bank p.2.2
    .ok (clearAfter (half (half s 0) 1) q m)

/-- R182: the entries that a step of MSTA pushes to its queue, in row order, and the flags. -/
def outEntries (m : MatRec) (f : Nat) (a : Array (Array Val)) : List Vec × Flagset :=
  let p := outPanel m f 128 a (fun o k => (o, k))
  let bytes := p.1.flatMap (·.2)
  let n := bytes.length / 256
  ((List.range n).map (fun i => bytesVec ((bytes.drop (256 * i)).take 256)), p.2.2)

/-- R172, R182: a step of MSTA to a queue makes all its entries at one instant; they enter the queue as room appears. -/
def mstaQueue (s : State) (q : Seq) (m : MatRec) : Res (State × MatRec) := do
  checkTileUse s q.core q.bank m.tt
  checkTile s q.core m.tt (fun _ _ => true)
  let x := outEntries m (Fmt.code m.rf.fmtO) (tileVals s q.core m.tt)
  .ok (setMstat (clearAfter s q m) q.core q.bank x.2, { m with out := x.1 })

/-! ### The sequencer (R168, R170, R173) -/

/-- A step of any form: the state and the record after it. -/
def matStep (s : State) (q : Seq) (m : MatRec) : Res (State × MatRec) :=
  let whole (r : Res State) : Res (State × MatRec) := do
    let s ← r
    .ok (s, m)
  match m.form with
  | .mma | .mmas => whole (mmaStep s q m)
  | .mhad => mhadStep s q m
  | .mclr => whole (mclrStep s q m)
  | .mlda => whole (mldaStep s q m)
  | .msta => if m.rf.mod.getLsbD 3 then mstaQueue s q m else whole (mstaStep s q m)
  | .mscl => whole (msclStep s q m)
  | .madda => whole (maddaStep s q m)
  | .mxp => whole (mxpStep s q m)

/-- The bank's first record replaced. -/
def setHead (s : State) (q : Seq) (m : MatRec) : State :=
  modEng s q.core q.bank (fun e => { e with recs := m :: e.recs.drop 1 })

/-- R168: a record with nothing left completes, and tl.m takes its number. -/
def finishRec (s : State) (q : Seq) (m : MatRec) : State :=
  if m.finished && m.pops.isEmpty && m.out.isEmpty
  then modEng s q.core q.bank (fun e => { e with recs := e.recs.drop 1, tl := vset e.tl 0 m.num })
  else setHead s q m

/-- R109, R170: a step is complete: its pops fall due and the indices move on. -/
def afterStep (s : State) (q : Seq) (m : MatRec) : State :=
  let s := modBank s q.core q.bank (fun k => streams.foldl (fun k t => k.modRegs t (fun r => countPerf r 7)) k)
  let tiles := if usesTile m.form && !m.tiles.contains m.tt then m.tt :: m.tiles else m.tiles
  let m := { m with pops := popsDue m, tiles := tiles }
  finishRec s q (if nestLast m then { m with finished := true } else nestNext m)

/-- R173: a step fails: the record stops and X takes a deferred fault. -/
def faultRec (s : State) (q : Seq) (m : MatRec) (f : FaultInfo) : State :=
  let s := setHead s q { m with faulted := true }
  deferFault s q.agent { f with unit := 5, opnum := m.num
                                pos := w64 (m.i0 + 2 ^ 16 * m.i1 + 2 ^ 32 * m.i2 + 2 ^ 48 * m.i3) } .matrix

/-- May the first record of a bank take a step now, but for the other bank (R97, R168, R171, R326)? -/
def stepDue (s : State) (c : CoreId) (b : BankId) : Bool :=
  match (getBank s c b).eng.recs with
  | [] => false
  | m :: _ => (getBank s c b).task.isSome && m.pops.isEmpty && m.out.isEmpty && !m.finished && !m.faulted && issueNow s c
      && stepFits s c m && !stepWaits s c b m

/-- R182: the queue that an MSTA record pushes. -/
def MatRec.outQueue (m : MatRec) : Fin 16 := Fin.ofNat 16 (8 + m.rf.ringB.val % 4)

/-- R20, R176, R182: may entries of the last step of an MSTA enter their queue now? -/
def pushDue (s : State) (c : CoreId) (b : BankId) (m : MatRec) : Bool :=
  !m.out.isEmpty && !m.faulted && issueNow s c && !inSlot s && queueRoom (getBank s c b) m.outQueue (now s) != 0

/-- R182: as many entries as the queue has room for enter it, in row order. -/
def pushOut (s : State) (q : Seq) (m : MatRec) : State :=
  let n := queueRoom (getBank s q.core q.bank) m.outQueue (now s)
  finishRec (modBank s q.core q.bank (fun b => pushQ b m.outQueue (now s) ((m.out.take n).map (fun v => { val := v }))))
    q { m with out := m.out.drop n }

/-- MATRIX_STEP (R168, R170 to R173): a pending step of the shadow bank runs before one of the active bank (R97). The
entries of an MSTA to a queue follow their step. -/
def execMatrixStep (c : CoreId) (b : BankId) (s : State) : Out :=
  match (getBank s c b).eng.recs with
  | [] => .fault .notEnabled
  | m :: _ =>
    let q : Seq := { core := c, bank := b }
    if pushDue s c b m then .next (pushOut s q m)
    else if !stepDue s c b || (b = .active && stepDue s c .shadow) then .fault .notEnabled
    else
      let bad := (getAux s c b).datapathBad
      let s := modAux s c b (fun x => { x with datapathBad := false })
      if bad then .next (faultRec s q m (flt .eccu 0 8))
      else match matStep s q m with
        | .ok (s, m) => .next (afterStep s q m)
        | .error (.fault s f) => .next (faultRec s q m f)
        | .error (.stall _ _) => .fault .notEnabled

/-- MATRIX_POP (R20, R170): the first pop still due, once its ring holds a panel. -/
def execMatrixPop (c : CoreId) (b : BankId) (s : State) : Out :=
  match (getBank s c b).eng.recs with
  | [] => .fault .notEnabled
  | m :: _ =>
    match m.pops with
    | [] => .fault .notEnabled
    | p :: rest =>
      let q : Seq := { core := c, bank := b }
      match getRing s c b (popRing m p) with
      | none => .fault .notEnabled
      | some r =>
        if r.held = 0 || m.faulted || !issueNow s c then .fault .notEnabled
        else .next (finishRec (setRing s c b (popRing m p) r.pop) q { m with pops := rest })

end Sys2Proof.Machine
end

