-- ==== Sys2Proof/Machine/PlectrumForms.lean ====
section
/-! DEFINITION. The Plectrum unit (R331 to R343): its draws, its list areas and its five forms. -/

namespace Sys2Proof.Machine

/-! ### Lists (R333, R334) -/

/-- A candidate: the bits of its logit and its token index. -/
abbrev Cand := Nat × Nat

/-- R334: the bits of an f32 that is not NaN, in the order of their values, -0 below +0. -/
def logitKey (b : Nat) : Nat := if b < 2 ^ 31 then 2 ^ 31 + b else 2 ^ 32 - 1 - b

/-- Is a logit NaN? -/
def logitNan (b : Nat) : Bool := (decodeF ffF32 b).isNan

/-- R334: the total order. -/
def ranksBefore (a b : Cand) : Bool :=
  logitKey b.1 < logitKey a.1 || (logitKey a.1 == logitKey b.1 && a.2 < b.2)

/-- R334: a candidate at its rank. -/
def atRank (c : Cand) : List Cand → List Cand
  | [] => [c]
  | d :: ds => if ranksBefore c d then c :: d :: ds else d :: atRank c ds

/-- R334: a candidate is inserted into a list of depth k. -/
def offer (k : Nat) (l : List Cand) (c : Cand) : List Cand :=
  if l.length < k then atRank c l
  else match l.getLast? with
    | some e => if ranksBefore c e then (atRank c l).dropLast else l
    | none => l

/-- R334: candidates are offered in turn, NaN logits never; whether one was NaN. -/
def offerAll (k : Nat) (l : List Cand) (cs : List Cand) : List Cand × Bool :=
  ((cs.filter (fun c => !logitNan c.1)).foldl (offer k) l, cs.any (fun c => logitNan c.1))

/-- The size of a list area. -/
def listSize : Nat := 33792

/-- The state of an agent's bank's unit. -/
def pkOf (s : State) (g : Agent) : Plectrum := (bankOf s g).pk

/-- R376: reading bytes of a list area. -/
def listRead (s : State) (g : Agent) (off len : Nat) : Res (List Byte) :=
  if !spadAllowed s g.core g.bank off len then raise s (flt .prot (w64 off) 4)
  else match unitsBad (getCore s g.core).badSpad off len with
    | some u => raise s (flt .eccu (w64 off) 6 (w64 (u * 128)))
    | none => .ok (spadSeen s g off len)

/-- R333: FMT at a list area. -/
def listFault (off : Nat) : FaultInfo := flt .fmt (w64 off)

/-- R333: the number of entries that a header holds. -/
def listHeader (s : State) (g : Agent) (off : Nat) : Res Nat := do
  let h ← listRead s g off 64
  let n := ofBytes (h.take 4)
  if 4096 < n || (h.drop 4).any (· != 0) then raise s (listFault off)
  .ok n

/-- R333: the entries of a list area, with their reserved fields checked. -/
def listEntries (s : State) (g : Agent) (off : Nat) : Res (List Cand) := do
  let n ← listHeader s g off
  let bs ← listRead s g (off + 64) (8 * n)
  let es := (List.range n).map (fun e => ofBytes ((bs.drop (8 * e)).take 8))
  if es.any (fun e => 2 ^ 56 ≤ e) then raise s (listFault off)
  .ok (es.map (fun e => (e % 2 ^ 32, e / 2 ^ 32)))

/-- Do entries stand in rank order? -/
def inRank : List Cand → Bool
  | a :: b :: l => !ranksBefore b a && inRank (b :: l)
  | _ => true

/-- R333, R341: the current list: where it stands and its entries. -/
def currentList (s : State) (g : Agent) : Res (Nat × List Cand) :=
  match (pkOf s g).list with
  | none => raise s (flt .fmt)
  | some off => do
    let es ← listEntries s g off
    if es.any (fun e => logitNan e.1) || !inRank es then raise s (listFault off)
    .ok (off, es)

/-- The bytes of an entry. -/
def candBytes (c : Cand) : List Byte := toBytes 4 c.1 ++ toBytes 4 c.2

/-- The current list is written. -/
def putList (s : State) (g : Agent) (off : Nat) (l : List Cand) : State :=
  spadWrite (spadWrite s g.core (some g) 4 off (toBytes 4 l.length)) g.core (some g) 4 (off + 64) (l.flatMap candBytes)

/-- R337, R340: the checks of a list area's offset. -/
def checkList (s : State) (g : Agent) (a : Word) : Res Nat :=
  if a.toNat % 1024 ≠ 0 || 2 ^ 22 < a.toNat + listSize then raise s (flt .align a 1024)
  else if g.bank = .shadow && !spadAllReserved a.toNat listSize then raise s (flt .prot a 4)
  else .ok a.toNat

/-! ### PKSET (R337) -/

/-- The state with a bank's unit changed. -/
def modPk (s : State) (g : Agent) (f : Plectrum → Plectrum) : State := modBankOf s g (fun k => { k with pk := f k.pk })

/-- R337: PKTEMP and its flag. -/
def tempOf (b : Nat) : Nat × Flagset :=
  match decodeF ffF32 b with
  | .num q => if q < 0 then (0x3F800000, fNV) else (b, 0)
  | _ => (0x3F800000, fNV)

/-- R337: PKP and its flag. -/
def toppOf (b : Nat) : Nat × Flagset :=
  match decodeF ffF32 b with
  | .nan => (0x3F800000, fNV)
  | .inf false => (0x3F800000, fSATF)
  | .num q => if 1 < q then (0x3F800000, fSATF) else (b, 0)
  | _ => (b, 0)

/-- R337: .topk: the depth, and the current list cut to it. -/
def setTopk (s : State) (g : Agent) (a : Nat) : Res State := do
  let k := if a = 0 then 1 else Nat.min a 4096
  let s1 := setFp (modPk s g (fun p => { p with k := k })) g (flagIf (a = 0 || 4096 < a) fSATF)
  match (pkOf s g).list with
  | none => .ok s1
  | some off => do
    let n ← listHeader s g off
    .ok (if k < n then spadWrite s1 g.core (some g) 4 off (toBytes 4 k) else s1)

/-- R337: .list. -/
def setList (s : State) (g : Agent) (a : Word) : Res State := do
  let off ← checkList s g a
  if !spadAllowed s g.core g.bank off listSize then raise s (flt .prot a 4)
  .ok (spadWrite (modPk s g (fun p => { p with list := some off })) g.core (some g) 4 off (List.replicate 64 0))

/-- PKSET (R337). -/
def execPkset (w : WordF) (s : State) : Out :=
  let srcs := [w.srcA]
  runX w false (fun s g => do
    takeSources s g srcs []
    let a := scal s g w srcs 0
    let b := a.toNat % 2 ^ 32
    match w.mod.toNat with
    | 0 => donePop (modPk s g (fun p => { p with seed := a })) srcs
    | 1 => donePop (modPk s g (fun p => { p with seq := BitVec.ofNat 32 b })) srcs
    | 2 => donePop (modPk s g (fun p => { p with pos := BitVec.ofNat 32 b })) srcs
    | 3 => donePop (setFp (modPk s g (fun p => { p with temp := BitVec.ofNat 32 (tempOf b).1 })) g (tempOf b).2) srcs
    | 4 => do
      let s ← setTopk s g a.toNat
      donePop s srcs
    | 5 => donePop (setFp (modPk s g (fun p => { p with p := BitVec.ofNat 32 (toppOf b).1 })) g (toppOf b).2) srcs
    | _ => do
      let s ← setList s g a
      donePop s srcs) s

/-! ### Draws (R332, R335, R338) -/

/-- R332: word 0 of the unit's generator at a draw index. -/
def pkWord (p : Plectrum) (b : Nat) : Nat := philox p.seed p.pos.toNat p.seq.toNat (b % 2 ^ 32) 0

/-- R332: u as an exact value. -/
def pkU (p : Plectrum) (b : Nat) : Val := ofRat (mkRat (pkWord p b / 256 : Nat) (2 ^ 24))

/-- PKRAND (R338). -/
def execPkrand (w : WordF) (s : State) : Out :=
  let srcs := [w.srcA]
  runX w false (fun s g => do
    takeSources s g srcs (dstPush w.dst)
    let a := (scal s g w srcs 0).toNat
    let p := pkOf s g
    let lane (j : Nat) : Nat := if w.mod.getLsbD 0 then (rn32 (pkU p (a + j))).1 else pkWord p (a + j)
    donePop (writeVec s g w.dst (BitVec.allOnes 2048) (vecOf 32 ((List.range 64).map lane))) srcs) s

/-- PKTOPK (R339). -/
def execPktopk (w : WordF) (s : State) : Out :=
  let srcs := [w.srcA, w.srcB]
  runX w false (fun s g => do
    takeSources s g srcs []
    let v := vecSource s g .f32 srcs 0
    let b := scal s g w srcs 1
    let (off, l) ← currentList s g
    let first := bits b 23 0
    let c := Nat.min (bits b 38 32) 64
    let cs := ((List.range c).filter (fun j => first + j < 2 ^ 24)).map (fun j => (elemAt v 32 j, first + j))
    let r := offerAll (pkOf s g).k l cs
    donePop (setFp (putList s g off r.1) g (flagIf r.2 fNV)) srcs) s

/-- PKMERGE (R340). -/
def execPkmerge (w : WordF) (s : State) : Out :=
  let srcs := [w.srcA]
  runX w false (fun s g => do
    takeSources s g srcs []
    let src ← checkList s g (scal s g w srcs 0)
    let cs ← listEntries s g src
    let (off, l) ← currentList s g
    let r := offerAll (pkOf s g).k l cs
    donePop (setFp (putList s g off r.1) g (flagIf r.2 fNV)) srcs) s

/-- FEXP of a value, correctly rounded. -/
def expVal (v : Val) : Val :=
  let e := fexpV v
  decodeF ffF32 (roundF ffF32 .rne false e.2.1 e.1).1

/-- R335: the cumulated weights of the entries after the first. -/
def cumulate (top temp : Val) : Val → List Cand → List Val
  | _, [] => []
  | acc, c :: cs =>
    let d := (divV (addV (decodeF ffF32 c.1) top.flip).1 temp).1
    let acc := (rn32v (addV acc (expVal (rn32v d).1)).1).1
    acc :: cumulate top temp acc cs

/-- R335: the draw: token, rank, ranks kept, and whether NV is set. -/
def pkDraw (p : Plectrum) (l : List Cand) (b : Nat) : Nat × Nat × Nat × Bool :=
  match l with
  | [] => (0xFFFFFFFF, 0, 0, false)
  | c :: cs =>
    let top := decodeF ffF32 c.1
    if top.special then (c.2, 0, 1, true)
    else
      let one := Val.num 1
      let cum := one :: cumulate top (decodeF ffF32 p.temp.toNat) one cs
      let sum := (cum.getLast?).getD one
      let thr := (rn32v (mulV (decodeF ffF32 p.p.toNat) sum).1).1
      let m := ((List.range cum.length).find? (fun i => !ltV ((cum[i]?).getD one) thr)).getD 0
      let t := (rn32v (mulV (pkU p b) ((cum[m]?).getD one)).1).1
      let rk := ((List.range (m + 1)).find? (fun i => ltV t ((cum[i]?).getD one))).getD m
      ((((c :: cs)[rk]?).getD c).2, rk, m + 1, false)

/-- PKDRAW (R341). -/
def execPkdraw (w : WordF) (s : State) : Out :=
  let srcs := [w.srcA]
  runX w false (fun s g => do
    takeSources s g srcs (dstPush w.dst)
    let a := (scal s g w srcs 0).toNat
    let (_, l) ← currentList s g
    let r := pkDraw (pkOf s g) l a
    let v := w64 (r.1 + r.2.1 * 2 ^ 32 + r.2.2.1 * 2 ^ 48)
    donePop (setFp (writeScalar s g w.dst v) g (flagIf r.2.2.2 fNV)) srcs) s

end Sys2Proof.Machine
end

