-- ==== Sys2Proof/Machine/QueueForms.lean ====
section
/-! DEFINITION. The queue and token forms (R106, R107). -/

namespace Sys2Proof.Machine

/-- The queue of a queue operand. -/
def queueNo (o : Operand) : Fin 16 := (Operand.queue? o).getD 0

/-- QPUSH (R106): n copies need room for n entries. -/
def execQpush (w : WordF) (s : State) : Out :=
  let srcs := [w.srcA]
  let n := mod3 w + 1
  runWord w false (fun s g => do
    takeSources s g srcs [(queueNo w.dst, n)]
    let e : Entry := { val := (scal s g w srcs 0).setWidth 2048 }
    donePop (modBankOf s g (fun k => pushQ k (queueNo w.dst) (now s) (List.replicate n e))) srcs) s

/-- R106: QPOP and QPEEK on the operand that pops or peeks; .try takes F when no entry is visible. -/
def takeForm (w : WordF) (o : Operand) (s : State) : Out :=
  runWord w false (fun s g => do
    let q := queueNo w.srcA
    let k := bankOf s g
    let legal := queueReader q == g.stream && !boundFor k q g.stream
    let srcs := if w.mod.getLsbD 0 && legal && (k.q.get q).seen (now s) = 0 then [w.srcB] else [o]
    takeSources s g srcs (dstPush w.dst)
    donePop (writeScalar s g w.dst (scal s g w srcs 0)) srcs) s

/-- QPOP (R106). -/
def execQpop (w : WordF) (s : State) : Out := takeForm w w.srcA s
/-- QPEEK (R106): the head is read and stays. -/
def execQpeek (w : WordF) (s : State) : Out := takeForm w (.queue (queueNo w.srcA) true) s

/-- QLEN (R106): legal on any queue the stream reads or writes, bound or not. -/
def execQlen (w : WordF) (s : State) : Out :=
  runWord w false (fun s g => do
    takeSources s g [] (dstPush w.dst)
    let q := queueNo w.srcA
    let f := (bankOf s g).q.get q
    if queueReader q = g.stream then done (writeScalar s g w.dst (w64 (f.seen (now s))))
    else if queueWriter q = g.stream then done (writeScalar s g w.dst (w64 (f.held (now s))))
    else raise s (flt .queue 0 (w64 q.val))) s

/-- TKPUSH (R107). -/
def execTkpush (w : WordF) (s : State) : Out := runTokens w 1 s
/-- TKPOP (R107). -/
def execTkpop (w : WordF) (s : State) : Out := runTokens w 2 s

end Sys2Proof.Machine
end

