-- ==== Sys2Proof/Machine/Registers.lean ====
section
/-! DEFINITION. The host-visible registers (R387 to R391), curve records (R304 to R306), the debug hold (R375) and host
accesses through CXL.mem (R365, R379). -/

namespace Sys2Proof.Machine

/-- R383, R387: do the registers beyond BOOT and MODRESET respond? -/
def regsRespond (s : State) : Bool := s.boot.stat = 1

/-! ### Rings (R388) -/

/-- R257, R388: are the fields of a ring entry in range? -/
def ringOk (g : HostRing) : Bool :=
  g.rb.toNat % 4096 = 0 && g.rb.toNat < 2 ^ 52 && [16, 32, 64, 128, 256, 512, 1024, 2048, 4096, 8192, 16384, 32768, 65536].contains g.n

/-- R259, R388: has a record that was read from a ring not yet taken effect: a LAUNCH that is held, a WSLOAD held or running, a
CTXQUIESCE that has not completed? -/
def recordsOut (s : State) (r : Fin 16) : Bool :=
  s.disp.kerns.any (fun k => k.st == .held && k.ring.any (fun q => q.1 == r))
    || s.caux.toList.any (fun a => a.ws.any (fun w => w.ring == r) || a.quiesce.any (fun q => q.1 == r))

/-- R388: a start takes effect: HEAD becomes HEADSET in the register and in the ring. -/
def startRing (s : State) (r : Fin 16) : State :=
  let g := getRing16 s r
  let s := modRing16 s r (fun g => { g with st := 1, starting := false, head := g.headset, tail := g.headset, fullcnt := 0 })
  enterAll s 8 (cellsAt (hostKey (g.rb.toNat + 128)) (toBytes 4 g.headset.toNat))

/-- RING_START (R388): CMD 1. It takes effect at once, or when the records already read have; the ring is not read until
then. -/
def execRingStart (r : Fin 16) (s : State) : Out :=
  if s.disp.linkDown then .fault .notEnabled
  else if !regsRespond s || !ringOk (getRing16 s r) then .next s
  else if recordsOut s r then .next (modRing16 s r (fun g => { g with starting := true }))
  else .next (startRing s r)

/-- R388: a start that waited takes effect. -/
def lateStart (r : Fin 16) (s : State) : Out :=
  if (getRing16 s r).starting && !recordsOut s r && !s.disp.linkDown then .next (startRing s r) else .fault .notEnabled

/-- RING_DISABLE (R388): CMD 2. -/
def execRingDisable (r : Fin 16) (s : State) : Out :=
  if s.disp.linkDown then .fault .notEnabled
  else if !regsRespond s || !ringOk (getRing16 s r) then .next s
  else .next (modRing16 s r (fun g => { g with st := 0, starting := false }))

/-! ### Curve records (R304 to R306) -/

/-- A field of a record. -/
def recField (bs : List Byte) (off len : Nat) : Nat := ofBytes ((bs.drop off).take len)

/-- R304: point i of a record. -/
def readPoint (bs : List Byte) (i : Nat) : Point :=
  { time := recField bs (64 + 16 * i) 8, power := recField bs (72 + 16 * i) 4, grade := recField bs (76 + 16 * i) 1 }

/-- R304: does TIME never decrease, and do no three points in a row share one? -/
def pointsOrdered : List Point → Bool
  | p :: q :: r :: ps => p.time ≤ q.time && !(p.time = q.time && q.time = r.time) && pointsOrdered (q :: r :: ps)
  | [p, q] => p.time ≤ q.time
  | _ => true

/-- R304: a record's header and points. -/
def readCurve (bs : List Byte) : Curve :=
  { maxGrade := recField bs 4 1, seq := recField bs 8 8, start := recField bs 16 8, end_ := recField bs 24 8
    points := (List.range (recField bs 2 2)).map (readPoint bs) }

/-- R304, R306 check 1: length, ranges, zero fields and order. -/
def curveFormed (bs : List Byte) : Bool :=
  let n := recField bs 2 2
  let c := readCurve bs
  recField bs 0 2 = 1 && 1 ≤ n && n ≤ 256 && bs.length = 2828 + 16 * n && c.maxGrade ≤ 2 && recField bs 5 1 ≤ 3
    && recField bs 6 1 ≤ 3 && recField bs 7 1 = 0 && c.start < c.end_ && c.end_ - c.start ≤ 86400000000000
    && recField bs 32 32 = 0
    && c.points.all (fun p => 160000 ≤ p.power && p.power ≤ 3000000 && p.grade ≤ 3)
    && (List.range n).all (fun i => recField bs (77 + 16 * i) 3 = 0)
    && (c.points.head?.map (·.time)) == some c.start && pointsOrdered c.points
    && (match c.points.getLast? with
        | some p => p.time ≤ c.end_
        | none => false)

/-- R305, R306: both signatures of a record verify against the keys it names; an absent key fails. -/
def curveSigned (bs : List Byte) : Bool :=
  let m := bs.take (64 + 16 * recField bs 2 2)
  let sigs := bs.drop (64 + 16 * recField bs 2 2)
  let ec := recField bs 5 1
  let lms := recField bs 6 1
  Config.ecKeyPresent ec && Config.lmsKeyPresent lms
    && Config.ecdsaVerifies m (sigs.take 96) ec && Config.lmsVerifies m ((sigs.drop 96).take 2668) lms

/-- R306: has the Capo accepted a record of this SEQ or a higher one? -/
def seqStale (s : State) (seq : Nat) : Bool :=
  match s.bud.topSeq with
  | some n => seq ≤ n
  | none => false

/-- R306: the first check that a record fails, by its code of R321; 0 for none. -/
def curveCode (s : State) (bs : List Byte) : Nat :=
  let c := readCurve bs
  if !curveFormed bs then 1
  else if !curveSigned bs then 2
  else if seqStale s c.seq then 3
  else if c.end_ ≤ facilityNs s then 4
  else 0

/-- R306: an accepted record becomes the current curve if its START has passed, else the pending one. -/
def acceptCurve (s : State) (c : Curve) : State :=
  let s := budgetLog { s with bud := { s.bud with topSeq := some c.seq } } 1 0 0 c.seq
  if s.cal.time.isSome && c.start ≤ facilityNs s then
    let s := sumTarget s
    budgetLog (noteStep s { s with bud := { s.bud with current := some c } }) 3 0 0 c.seq
  else { s with bud := { s.bud with pending := some c } }

/-- R305, R306, R321: the Capo checks a record that the host delivers, by the mailbox or over the management path. -/
def takeCurve (s : State) (bs : List Byte) : State :=
  let code := curveCode s bs
  if code = 0 then acceptCurve s (readCurve bs) else budgetLog s 2 code 0 (readCurve bs).seq

/-- CURVE_SUBMIT (R306, R321, R389): GO of the curve mailbox. -/
def execCurveSubmit (s : State) : Out :=
  if s.disp.linkDown then .fault .notEnabled
  else if !regsRespond s || s.boot.curve.busy then .next s
  else
    let m := s.boot.curve
    let bs := (m.buf ++ List.replicate 8192 0).take (Nat.min m.len.toNat 8192)
    let bs := if m.len.toNat ≤ 8192 then bs else []
    .next (takeCurve { s with boot := { s.boot with curve := { m with status := curveCode s bs, busy := true } } } bs)

/-! ### Attestation and communicators (R385, R386, R389, R391) -/

/-- ATTEST_REQUEST (R385, R386, R389): GO of the attestation mailbox; the report takes the buffer's place. -/
def execAttestRequest (s : State) : Out :=
  if s.disp.linkDown then .fault .notEnabled
  else if !regsRespond s || s.boot.attest.busy then .next s
  else
    let m := { s.boot.attest with busy := true }
    if !leavesLeft s then .next { s with boot := { s.boot with attest := { m with status := 3 } } }
    else
      let r := makeReport s 0 0 (m.buf.take 32)
      .next { r.1 with boot := { r.1.boot with attest := { m with status := 0, buf := r.2 } } }

/-- R391: a descriptor in host memory, if it is well formed, with its context. -/
def readComm (s : State) (at_ : Nat) : Option (CtxId × Comm) :=
  let rd (off len : Nat) : Nat := ofBytes (viewBytes s.ms 8 (hostKey (at_ + off)) len)
  let p := rd 0 2
  let g := rd 6 2
  if !(2 ≤ p && p ≤ 4096 && 1 ≤ g && g ≤ p) then none
  else
    let rank (i : Nat) := 16 + 8 * i
    let groups := (List.range g).map (fun i => rd (16 + 8 * p + 2 * i) 2)
    let ok := rd 2 2 < p && rd 5 1 ≠ 0 && rd 8 8 = 0 && groups.head? == some 0
      && (List.zip groups (groups.drop 1)).all (fun q => q.1 < q.2) && groups.all (fun v => v < p)
      && (List.range p).all (fun i => rd (rank i + 2) 1 < 64 && rd (rank i + 4) 4 = 0)
    match ctxNo (rd 4 1) with
    | none => none
    | some x =>
      if !ok then none
      else some (x, {
        handle := BitVec.ofNat 8 (rd 5 1), p := p, rank := rd 2 2
        ranks := (List.range p).map (fun i =>
          (BitVec.ofNat 16 (rd (rank i) 2), Fin.ofNat 64 (rd (rank i + 2) 1), rd (rank i + 3) 1))
        groups := groups })

/-- R389: has a communicator of a context an operation outstanding? -/
def commBusy (s : State) (x : CtxId) (h : BitVec 8) : Bool :=
  allDies.any (fun d => (getDie s d).coOps.any (fun o => o.ctx == x && o.handle == h && !o.finished))

/-- COMM_REGISTER (R355, R389, R391): GO of the communicator mailbox. -/
def execCommRegister (s : State) : Out :=
  if s.disp.linkDown then .fault .notEnabled
  else if !regsRespond s || s.boot.comm.busy then .next s
  else
    let status (s : State) (n : Nat) : State :=
      { s with boot := { s.boot with comm := { s.boot.comm with status := n, busy := true } } }
    match readComm s s.boot.comm.arg.toNat with
    | none => .next (status s 1)
    | some (x, c) =>
      if commBusy s x c.handle then .next (status s 2)
      else .next (status (modCaux s x (fun a => { a with
        comms := a.comms.filter (fun d => d.handle != c.handle) ++ [c] })) 0)

/-! ### The debug hold (R375, R390) -/

/-- DBG_HOLD (R390): HOLD is written, and a bank already frozen stays so. RELEASE is 0, or 3, which applies nothing: a
write with RELEASE 1 or 2 is one of the two steps below. -/
def execDbgHold (x : CtxId) (value : Word) (s : State) : Out :=
  if s.disp.linkDown || bits value 3 2 = 1 || bits value 3 2 = 2 then .fault .notEnabled
  else if !regsRespond s then .next s
  else .next (modCaux s x (fun a => { a with dbgHold := value.getLsbD 0 }))

/-- The tasks of a context that a BRK froze under the hold (R375). -/
def heldTasks (s : State) (x : CtxId) : List (FrozenAt × Task × Freeze) :=
  ((bankTasks s).filterMap (fun t => match (getAux s t.1 t.2.1).freeze with
    | some z => if z.done && z.held && t.2.2.ctx == x then some (FrozenAt.bank t.1 t.2.1, t.2.2, z) else none
    | none => none))
  ++ (getCaux s x).images.filterMap (fun i => match i.bank.task, i.aux.freeze with
      | some t, some z => if z.held && z.decided.isNone then some (.image i.slot, t, z) else none
      | _, _ => none)

/-- R390: a write with RELEASE 1 or 2 writes HOLD, and every BRK freeze of the context ends. -/
def releaseHeld (s : State) (w : DbgWrite) (f : State → FrozenAt × Task × Freeze → State) : Out :=
  if s.disp.linkDown then .fault .notEnabled
  else if !regsRespond s then .next s
  else
    .next (modCaux (foldAll s (heldTasks s w.ctx) f) w.ctx (fun a => { a with dbgHold := w.hold }))

/-- DBG_RELEASE_THAW (R375, R390): RELEASE 1, the effect of QTHAW. -/
def execDbgReleaseThaw (w : DbgWrite) (s : State) : Out := releaseHeld s w (fun s f => decideFrozen s w.ctx f false)

/-- DBG_RELEASE_CANCEL (R375, R390): RELEASE 2, the effect of KCANCEL.task. -/
def execDbgReleaseCancel (w : DbgWrite) (s : State) : Out :=
  releaseHeld s w (fun s f => if nodeClosed s f.2.1.kinst f.2.1.node then s else cancelNode s f.2.1.kinst f.2.1.node false)

/-- R389: a mailbox whose command is done is not BUSY any more. -/
def mailboxesDone (s : State) : Out :=
  let b := s.boot
  if !(b.curve.busy || b.attest.busy || b.comm.busy) then .fault .notEnabled
  else .next { s with boot := { b with
    curve := { b.curve with busy := false }, attest := { b.attest with busy := false }, comm := { b.comm with busy := false } } }

/-! ### Register writes (R379, R387 to R390) -/

/-- Bytes written into a mailbox buffer. -/
def writeBuf (buf : List Byte) (off : Nat) (bs : List Byte) : List Byte :=
  let b := buf ++ List.replicate (off + bs.length - buf.length) 0
  b.take off ++ bs ++ b.drop (off + bs.length)

/-- R388: a write of 8 bytes of a ring entry; STATE and FULLCNT are read only. -/
def writeRing (g : HostRing) (j : Nat) (v : Word) : HostRing :=
  if j = 0 then { g with rb := v }
  else if j = 8 then { g with n := bits v 31 0, allow := w64 (g.allow.toNat / 2 ^ 32 * 2 ^ 32 + bits v 63 32) }
  else if j = 16 then { g with allow := w64 (g.allow.toNat % 2 ^ 32 + bits v 31 0 * 2 ^ 32) }
  else { g with headset := v.setWidth 32 }

/-- R389: a write of 8 bytes to a mailbox's control, at offset 0 or 8, where it is not BUSY: LEN, or the address. -/
def writeControl (m : Mailbox) (j : Nat) (v : Word) : Mailbox :=
  if m.busy then m else if j = 0 then { m with len := v.setWidth 32 } else { m with arg := v }

/-- R389: a write of 8 bytes to a mailbox's buffer, where it is not BUSY. -/
def writeData (m : Mailbox) (j : Nat) (v : Word) : Mailbox :=
  if m.busy then m else { m with buf := writeBuf m.buf j (toBytes 8 v.toNat) }

/-- What a write of 8 bytes stores in the fields of a register. -/
def writeReg (s : State) (off : Nat) (v : Word) : State :=
  let b := s.boot
  if 0x1000 ≤ off && off < 0x1200 then
    modRing16 s (Fin.ofNat 16 ((off - 0x1000) / 32)) (fun g => writeRing g ((off - 0x1000) % 32) v)
  else if off = 0x6000 then { s with boot := { b with curve := writeControl b.curve 0 v } }
  else if off = 0xA000 then { s with boot := { b with attest := writeControl b.attest 0 v } }
  else if off = 0xC000 || off = 0xC008 then { s with boot := { b with comm := writeControl b.comm (off - 0xC000) v } }
  else if 0x8000 ≤ off && off < 0xA000 then { s with boot := { b with curve := writeData b.curve (off - 0x8000) v } }
  else if 0xB000 ≤ off && off < 0xC000 then { s with boot := { b with attest := writeData b.attest (off - 0xB000) v } }
  else s

/-- R390: a write to a DBGHOLD entry. -/
def writeDbg (s : State) (x : CtxId) (v : Word) : Out :=
  if bits v 3 2 = 1 then execDbgReleaseThaw { ctx := x, hold := v.getLsbD 0 } s
  else if bits v 3 2 = 2 then execDbgReleaseCancel { ctx := x, hold := v.getLsbD 0 } s
  else execDbgHold x v s

/-- The command that a write to a register gives, in the state that the write leaves: CMD of a ring entry (R388), GO of a
mailbox (R389). -/
def runCommand (s : State) (off : Nat) (v : Word) : Out :=
  if 0x1000 ≤ off && off < 0x1200 && (off - 0x1000) % 32 = 16 then
    let r : Fin 16 := Fin.ofNat 16 ((off - 0x1000) / 32)
    if bits v 47 40 = 1 then execRingStart r s else if bits v 47 40 = 2 then execRingDisable r s else .next s
  else if off = 0x6000 && v.getLsbD 32 then execCurveSubmit s
  else if off = 0xA000 && v.getLsbD 32 then execAttestRequest s
  else if off = 0xC000 && v.getLsbD 32 then execCommRegister s
  else .next s

/-- REG_WRITE (R379, R387 to R390): an aligned write of 8 bytes to BAR0, with the command that it gives; other offsets ignore
it, and so do all but MODRESET before READY. One past the BAR is a violation. -/
def execRegWrite (off : Nat) (value : Word) (s : State) : Out :=
  if s.disp.linkDown || off % 8 ≠ 0 then .fault .notEnabled
  else if off = 0x40 then execModreset value s
  else if !regsRespond s then .next s
  else if 0x80000 ≤ off then .next (logViolation s 8 0xFE 0xFF 0xFF 2 off)
  else if 0x5000 ≤ off && off < 0x5200 then writeDbg s (Fin.ofNat 64 ((off - 0x5000) / 8)) value
  else runCommand (writeReg s off value) off value

/-! ### What the host reads (R231, R321, R367, R373, R380, R387 to R390) -/

/-- A mailbox's control (R389). -/
def mailboxBytes (m : Mailbox) : List Byte :=
  toBytes 8 (m.len.toNat + (if m.busy then 2 ^ 33 else 0) + m.status % 16 * 2 ^ 36) ++ toBytes 8 m.arg.toNat

/-- R231: a context record. -/
def ctxBytes (s : State) (x : CtxId) : List Byte :=
  let c := getCtx s x
  toBytes 1 c.st.num ++ toBytes 1 c.attr.toNat ++ toBytes 2 c.touched.toNat ++ toBytes 4 c.owner.toNat
    ++ toBytes 8 c.root.toNat ++ toBytes 8 c.evlog.toNat ++ toBytes 8 c.evseq.toNat ++ toBytes 8 c.park.toNat
    ++ toBytes 4 c.krun ++ toBytes 4 (getCaux s x).images.length ++ toBytes 8 (c.energy / 1000) ++ toBytes 2 c.fvec
    ++ List.replicate 6 0

/-- R373, R387: a context's kept fault record and its count of frozen banks. -/
def ctxFaultBytes (s : State) (x : CtxId) : List Byte :=
  let a := getCaux s x
  (match a.kept with
   | some f => f.bytes
   | none => List.replicate 64 0) ++ toBytes 8 a.frozenN ++ List.replicate 56 0

/-- R390: a DBGHOLD entry. -/
def dbgBytes (s : State) (x : CtxId) : List Byte :=
  toBytes 8 ((if (getCaux s x).dbgHold then 1 else 0) + (if (heldTasks s x).isEmpty then 0 else 2))

/-- R388: a ring entry. -/
def ringBytes (g : HostRing) : List Byte :=
  toBytes 8 g.rb.toNat ++ toBytes 4 g.n ++ toBytes 8 g.allow.toNat ++ toBytes 1 g.st ++ toBytes 3 0
    ++ toBytes 4 g.headset.toNat ++ toBytes 4 g.fullcnt.toNat

/-- R367: the number of a link state. -/
def LinkSt.num : LinkSt → Nat
  | .reset => 0 | .training => 1 | .up => 2 | .degraded => 3 | .narrow => 4 | .down => 5

/-- R344, R351: the lanes that a link uses. -/
def linkWidth (l : LinkId) (k : Link) : Nat :=
  let full := match l with
    | .dl _ _ => 64
    | .fab _ => 8
  match k.st with
  | .up | .degraded => full
  | .narrow => full / 2
  | .reset | .training | .down => 0

/-- R367: a status record. -/
def linkBytes (s : State) (l : LinkId) : List Byte :=
  let k := getLink s l
  toBytes 1 k.st.num ++ toBytes 1 (linkWidth l k) ++ toBytes 1 ((if k.mark0 then 1 else 0) + (if k.mark1 then 2 else 0))
    ++ toBytes 1 0 ++ (k.counters.toList.flatMap (fun c => toBytes 4 c.toNat)) ++ List.replicate 8 0

/-- R321: the budget log record that stands at a place of the ring. -/
def budgetBytes (s : State) (i : Nat) : List Byte :=
  match s.bud.log.find? (fun r => (r.seq - 1) % 1024 = i) with
  | none => List.replicate 32 0
  | some r => toBytes 8 r.seq ++ toBytes 1 r.kind ++ toBytes 1 r.new ++ toBytes 1 r.old ++ toBytes 5 0 ++ toBytes 8 r.time
      ++ toBytes 8 (BitVec.ofInt 64 r.value).toNat

/-- R380: the violation record that stands at a place of a die's log. -/
def violationBytes (s : State) (d : DieId) (i : Nat) : List Byte :=
  match (getDie s d).viol.find? (fun v => (v.seq - 1) % 256 = i) with
  | none => List.replicate 32 0
  | some v => toBytes 8 v.seq ++ toBytes 1 v.srcDie ++ toBytes 1 v.srcCore ++ toBytes 1 v.ctx ++ toBytes 1 v.kind
      ++ toBytes 4 0 ++ toBytes 8 v.paddr ++ toBytes 8 v.cycle.toNat

/-- A byte of a list of records of one size. -/
def recordByte (off size : Nat) (f : Nat → List Byte) : Byte := ((f (off / size))[off % size]?).getD 0

/-- R383, R387: what the host reads at an offset of BAR0. -/
def hostReadByte (s : State) (off : Nat) : Byte :=
  let b := s.boot
  let at_ (lo size n : Nat) (f : Nat → List Byte) : Option Byte :=
    if lo ≤ off && off < lo + size * n then some (recordByte (off - lo) size f) else none
  let ctx (f : CtxId → List Byte) (i : Nat) : List Byte := ((ctxNo i).map f).getD []
  let first (l : List (Option Byte)) : Byte := (l.findSome? id).getD 0
  if off < 64 then (([b.stat, b.step, b.cause, b.resetCause].map (fun n => BitVec.ofNat 8 n))[off]?).getD 0
  else if !regsRespond s then 0
  else first [
    at_ 0x80 1 64 (fun i => [BitVec.ofNat 8 (b.itable.get (Fin.ofNat 64 i)).val]),
    at_ 0x1000 32 16 (fun i => ringBytes (getRing16 s (Fin.ofNat 16 i))),
    at_ 0x2000 64 64 (ctx (ctxBytes s)),
    at_ 0x3000 128 64 (ctx (ctxFaultBytes s)),
    at_ 0x5000 8 64 (ctx (dbgBytes s)),
    at_ 0x6000 16 1 (fun _ => mailboxBytes b.curve),
    at_ 0x8000 0x2000 1 (fun _ => b.curve.buf),
    at_ 0xA000 16 1 (fun _ => mailboxBytes b.attest),
    at_ 0xB000 0x1000 1 (fun _ => b.attest.buf),
    at_ 0xC000 16 1 (fun _ => mailboxBytes b.comm),
    at_ 0x10000 32 1024 (budgetBytes s),
    at_ 0x20000 32 80 (fun i => linkBytes s (.dl (Fin.ofNat 10 (i / 8)) (Fin.ofNat 8 i))),
    at_ 0x20A00 32 12 (fun i => linkBytes s (.fab (Fin.ofNat 12 i))),
    at_ 0x30000 32 2560 (fun i => violationBytes s (Fin.ofNat 10 (i / 256)) (i % 256))]

/-! ### CXL_MEM_ACCESS (R365, R379) -/

/-- R365: the first frame of the HDM range, and how many frames it has (assumption 30). -/
def hdmRange (s : State) : Nat × Nat :=
  let h := Config.hdmFrames % 2 ^ 23
  (2 ^ 26 - h, if present s 9 then h else 0)

/-- What the host's CXL.mem read returns. -/
def setHostRead (s : State) (r : Option (List Byte)) : State := { s with boot := { s.boot with hostRead := r } }

/-- CXL_MEM_ACCESS (R365, R379, R380): a host access to the HDM range is performed at its home, bridge die 9; a read returns
its data. One outside is a violation: nothing is performed, and a read returns poison. -/
def execCxlMemAccess (a : HostAccess) (s : State) : Out :=
  if s.boot.stat ≠ 1 || s.disp.linkDown then .fault .notEnabled
  else
    let r := hdmRange s
    let lo := 65536 * r.1
    if lo ≤ a.pa.toNat && a.pa.toNat + a.len ≤ lo + 65536 * r.2 then
      match a.write with
      | none => .next (setHostRead s (some (viewBytes s.ms 9 a.pa.toNat a.len)))
      | some bs => .next (enterView s 9 (cellsAt a.pa.toNat (bs.take a.len)))
    else .next (setHostRead (logViolation s 8 0xFE 0xFF 0xFF 2 a.pa.toNat) none)

end Sys2Proof.Machine
end

