-- ==== Sys2Proof/Machine/Responses.lean ====
section
/-! DEFINITION. FENCE (R209), and how a word past step 8 completes when its result returns (R96). -/

namespace Sys2Proof.Machine

/-! ### FENCE -/

/-- R43, R209: the mask register of a FENCE, in the file that mfile names. -/
def fenceMask (s : State) (g : Agent) (w : WordF) : Word :=
  if w.scope = .mask then (bankOf s g).areg (if w.mfile then .s else .l) (regNo w.srcC) else 0

/-- R187, R376: the checks of that register. -/
def checkFenceMask (s : State) (g : Agent) (w : WordF) : Res Unit :=
  if w.scope = .mask then
    let a := (bankOf s g).a
    if (if w.mfile then a.badS else a.badL).getLsbD (regNo w.srcC).val then raise s (eccRegs (regNo w.srcC).val)
    else checkDieMask s (fenceMask s g w)
  else .ok ()

/-- R195, R197, R209: what a FENCE waits for. -/
def fenceReady (s : State) (g : Agent) (w : WordF) : Bool :=
  let m := fenceMask s g w
  match w.order with
  | .rel | .acqrel => releaseReady s g w.scope m
  | .sc => scReady s g w.scope m
  | .rlx | .acq => w.scope != .core || (bufferOf s g).isEmpty

/-- R196: must the word acquire before it completes? -/
def acquires (o : Order) : Bool := o == .acq || o == .acqrel || o == .sc

/-- R196, R209: what follows a FENCE that acquires. -/
def fenceAcquire (s : State) (g : Agent) (w : WordF) : State :=
  if acquires w.order then acquireAll s g w.scope (fenceMask s g w) else s

/-- FENCE (R209). -/
def execFence (w : WordF) (s : State) : Out :=
  runB w (fun s g => do
    checkFenceMask s g w
    match lostDie s w.scope (fenceMask s g w) with
    | some d => raise s (flt .dielost 0 (w64 d.val))
    | none => if fenceReady s g w then done (fenceAcquire s g w) else .ok (.pend s .fence 0)) s

/-! ### RESPONSE_RETURN -/

/-- A word that waited past step 8 commits: its tokens, its pops, its PC. -/
def completeWord (s : State) (g : Agent) (w : WordF) : State :=
  commitWord s g (tokensOf w.pbl w.pbr w.pal w.par 0 0 false) (popsOf [w.srcA, w.srcB, w.srcC]) none 1

/-- R187: a word whose scope names a die that is lost fails. -/
def lostFault (d : DieId) : FaultInfo := flt .dielost 0 (w64 d.val)

/-- The store of a STREL whose release has come (R207). -/
def returnRelease (s : State) (g : Agent) (p : Pending) : Option State :=
  match lostDie s p.word.scope (wordMask s g p.word) with
  | some d => some (wordFault s g (lostFault d) false false)
  | none =>
    if !releaseReady s g p.word.scope (wordMask s g p.word) then none
    else match strelStore s g p.word with
      | .ok s1 => if p.word.order = .sc
          then some (modStOf s1 g (fun x => { x with pending := some { p with kind := .storeSc } }))
          else some (completeWord s1 g p.word)
      | .error (.fault s1 f) => some (wordFault s1 g f false false)
      | .error (.stall s1 _) => if s1.nextId = s.nextId then none else some s1

/-- R190, R197: may a performed atomic's word complete: its write is in its own die's view, and an sc one in every view
of its scope? -/
def atomicSeen (s : State) (g : Agent) (p : Pending) : Bool :=
  performedAt s p.wrote (agentDie g)
    && (p.word.order != .sc || performedAll s p.wrote (scopeDies s p.word.scope (agentDie g) (wordMask s g p.word)))

/-- R196: an atomic that acquires orders its own write, and so the one it read, before what follows it. -/
def atomicAcquire (s : State) (g : Agent) (p : Pending) : State :=
  if acquires p.word.order
  then acquireWrites s g.core g.bank [p.wrote] (scopeDies s p.word.scope (agentDie g) (wordMask s g p.word))
  else s

/-- A register-result atomic that returns (R187, R204): the loss of a die that its mask names fails the word, and its
request goes with it if it is not performed. -/
def returnReg (s : State) (g : Agent) (p : Pending) : Option State :=
  match lostDie s p.word.scope (wordMask s g p.word) with
  | some d => some (wordFault (modMs s (fun m => { m with atomics := m.atomics.filter (fun r => r.id != p.sent) })) g
      (lostFault d) false false)
  | none => match p.result with
    | none => none
    | some v => if atomicSeen s g p then some (completeWord (writeScalar (atomicAcquire s g p) g p.word.dst v) g p.word)
        else none

/-- What a pending word does when what it waits for is there; none while it is not. -/
def returned (s : State) (g : Agent) (p : Pending) : Option State :=
  match p.failed with
  | some f => some (wordFault s g f false false)
  | none =>
    match p.kind with
    | .atomic => returnReg s g p
    | .send | .gbar => if p.result.isSome then some (completeWord s g p.word) else none
    | .release => returnRelease s g p
    | .storeSc => (match lostDie s p.word.scope (wordMask s g p.word) with
        | some d => some (wordFault s g (lostFault d) false false)
        | none => if scReady s g p.word.scope (wordMask s g p.word) then some (completeWord s g p.word) else none)
    | .fence => (match lostDie s p.word.scope (fenceMask s g p.word) with
        | some d => some (wordFault s g (lostFault d) true true)
        | none => if fenceReady s g p.word then some (commitB (fenceAcquire s g p.word) g) else none)

/-- RESPONSE_RETURN (R33, R96): the word of a stream past step 8 completes, in a suspended bank too, on an issue cycle
(R20) and outside the change of the clock's level (R19, R327). -/
def execResponseReturn (g : Agent) (s : State) : Out :=
  match (stOf s g).pending with
  | none => .fault .notEnabled
  | some p =>
    if !issueNow s g.core || s.cal.relock ≠ 0 then .fault .notEnabled
    else match returned s g p with
      | none => .fault .notEnabled
      | some s => .next s

end Sys2Proof.Machine
end

