-- ==== Sys2Proof/Machine/VectorInt.lean ====
section
/-! DEFINITION. The integer vector forms (R117, R118). -/

namespace Sys2Proof.Machine

/-- An integer form of one, two or three elements: `f` takes the type's signedness, its width and the raw elements. -/
def intForm (w : WordF) (n : Nat) (f : Bool → Nat → Nat → Nat → Nat → Nat × Flagset) (s : State) : Out :=
  let sg := EType.signed w.etype
  let wd := EType.width w.etype
  mapForm w (([w.srcA, w.srcB, w.srcC]).take n) (fun _ _ _ e => f sg wd (e 0) (e 1) (e 2)) s

/-- A result mod 2ʷ, no flag. -/
def wrap (w : Nat) (x : Int) : Nat × Flagset := (ofSigned w x, 0)

/-- A bit pattern, no flag. -/
def pat (x : Nat) : Nat × Flagset := (x, 0)

/-- A result clamped to the type's range; a clamp sets SATF. -/
def satRes (sg : Bool) (w : Nat) (x : Int) : Nat × Flagset :=
  let (k, c) := clampTo (intMin sg w) (intMax sg w) x
  (ofSigned w k, flagIf c fSATF)

/-- Leading zero bits of an element. -/
def clzOf (w a : Nat) : Nat := if a = 0 then w else w - 1 - Nat.log2 a

/-- Set bits of an element. -/
def popOf (w a : Nat) : Nat := ((List.range w).filter (fun i => a.testBit i)).length

/-- An arithmetic right shift of an element. -/
def sraOf (w a k : Nat) : Nat := ofSigned w (toSigned w a / (2 ^ k : Nat))

/-- VADD (R117). -/
def execVadd (w : WordF) (s : State) : Out := intForm w 2 (fun _ n a b _ => wrap n ((a : Int) + b)) s
/-- VSUB (R117). -/
def execVsub (w : WordF) (s : State) : Out := intForm w 2 (fun _ n a b _ => wrap n ((a : Int) - b)) s
/-- VMUL (R117). -/
def execVmul (w : WordF) (s : State) : Out := intForm w 2 (fun _ n a b _ => wrap n ((a : Int) * b)) s
/-- VMULH (R117). -/
def execVmulh (w : WordF) (s : State) : Out :=
  intForm w 2 (fun sg n a b _ => wrap n (intOf sg n a * intOf sg n b / (2 ^ n : Nat))) s
/-- VMADD (R117). -/
def execVmadd (w : WordF) (s : State) : Out := intForm w 3 (fun _ n a b c => wrap n ((a : Int) * b + c)) s
/-- VSADD (R117). -/
def execVsadd (w : WordF) (s : State) : Out :=
  intForm w 2 (fun sg n a b _ => satRes sg n (intOf sg n a + intOf sg n b)) s
/-- VSSUB (R117). -/
def execVssub (w : WordF) (s : State) : Out :=
  intForm w 2 (fun sg n a b _ => satRes sg n (intOf sg n a - intOf sg n b)) s
/-- VAND (R117). -/
def execVand (w : WordF) (s : State) : Out := intForm w 2 (fun _ _ a b _ => pat (a &&& b)) s
/-- VOR (R117). -/
def execVor (w : WordF) (s : State) : Out := intForm w 2 (fun _ _ a b _ => pat (a ||| b)) s
/-- VXOR (R117). -/
def execVxor (w : WordF) (s : State) : Out := intForm w 2 (fun _ _ a b _ => pat (a ^^^ b)) s
/-- VANDN (R117). -/
def execVandn (w : WordF) (s : State) : Out := intForm w 2 (fun _ n a b _ => pat (a &&& (2 ^ n - 1 - b))) s
/-- VSHL (R117). -/
def execVshl (w : WordF) (s : State) : Out := intForm w 2 (fun _ n a b _ => pat (a * 2 ^ (b % n) % 2 ^ n)) s
/-- VSHR (R117). -/
def execVshr (w : WordF) (s : State) : Out := intForm w 2 (fun _ n a b _ => pat (a / 2 ^ (b % n))) s
/-- VSRA (R117). -/
def execVsra (w : WordF) (s : State) : Out := intForm w 2 (fun _ n a b _ => pat (sraOf n a (b % n))) s
/-- VMIN (R117). -/
def execVmin (w : WordF) (s : State) : Out :=
  intForm w 2 (fun sg n a b _ => pat (if intOf sg n b < intOf sg n a then b else a)) s
/-- VMAX (R117). -/
def execVmax (w : WordF) (s : State) : Out :=
  intForm w 2 (fun sg n a b _ => pat (if intOf sg n a < intOf sg n b then b else a)) s
/-- VABS (R117). -/
def execVabs (w : WordF) (s : State) : Out :=
  intForm w 1 (fun _ n a _ _ => wrap n (if toSigned n a < 0 then -toSigned n a else toSigned n a)) s
/-- VNEG (R117). -/
def execVneg (w : WordF) (s : State) : Out := intForm w 1 (fun _ n a _ _ => wrap n (-(a : Int))) s
/-- VCLZ (R117). -/
def execVclz (w : WordF) (s : State) : Out := intForm w 1 (fun _ n a _ _ => pat (clzOf n a)) s
/-- VPOPC (R117). -/
def execVpopc (w : WordF) (s : State) : Out := intForm w 1 (fun _ n a _ _ => pat (popOf n a)) s

/-- R118: srcC of VDOT4: a short literal is extended to 32 bits and broadcast. -/
def dotC (s : State) (g : Agent) (srcs : List Operand) : Vec :=
  match (srcs.drop 2).head? with
  | some (.short v) => broadcast 32 (ofSigned 32 v.toInt)
  | _ => whole s g srcs 2

/-- VDOT4 (R118). -/
def execVdot4 (w : WordF) (s : State) : Out :=
  let srcs := [w.srcA, w.srcB, w.srcC]
  let sa := EType.signed w.etype
  let sb := w.mod.getLsbD 0
  runX w true (fun s g => do
    takeSources s g srcs (dstPush w.dst)
    let a := vecSource s g w.etype srcs 0
    let b := vecSource s g w.etype srcs 1
    let c := dotC s g srcs
    let rs := (List.range 64).map (fun i =>
      let x := toSigned 32 (elemAt c 32 i) + ((List.range 4).map (fun k =>
        intOf sa 8 (elemAt a 8 (4 * i + k)) * intOf sb 8 (elemAt b 8 (4 * i + k)))).sum
      if w.mod.getLsbD 1 then satRes true 32 x else wrap 32 x)
    donePop (putElems s g w 32 rs) srcs) s

end Sys2Proof.Machine
end

