-- ==== Sys2Proof/Machine/VectorMask.lean ====
section
/-! DEFINITION. The compare and mask forms (R123, R124). -/

namespace Sys2Proof.Machine

/-- A mask from a truth value for each element (R123): a 64-bit element gives both its bits. -/
def maskOf (w : Nat) (f : Nat → Bool) : Word :=
  BitVec.ofNat 64 (ofElems 1 ((List.range 64).map (fun j => if f (if w = 64 then j / 2 else j) then 1 else 0)))

/-- A compare form. -/
def cmpForm (w : WordF) (f : Nat → Nat → Bool) (s : State) : Out :=
  let srcs := [w.srcA, w.srcB]
  let width := EType.width w.etype
  runX w true (fun s g => do
    takeSources s g srcs []
    let a := vecSource s g w.etype srcs 0
    let b := vecSource s g w.etype srcs 1
    let m := maskOf width (fun i => f (elemAt a width i) (elemAt b width i))
    donePop (putMask s g w width m) srcs) s

/-- R123: the condition of a code, from equality and order. -/
def cmpCond (code : Nat) (eq lt gt un : Bool) : Bool :=
  match code with
  | 0 => eq
  | 1 => !eq
  | 2 => lt
  | 3 => lt || eq
  | 4 => gt
  | 5 => gt || eq
  | 6 => un
  | _ => !un

/-- VCMP (R123). -/
def execVcmp (w : WordF) (s : State) : Out :=
  let sg := EType.signed w.etype
  let n := EType.width w.etype
  cmpForm w (fun a b =>
    let x := intOf sg n a
    let y := intOf sg n b
    cmpCond (w.mod.toNat % 8) (x = y) (x < y) (y < x) false) s

/-- FCMP (R123). -/
def execFcmp (w : WordF) (s : State) : Out :=
  cmpForm w (fun a b =>
    let x := decodeF ffF32 a
    let y := decodeF ffF32 b
    let eq := eqV x y
    cmpCond (w.mod.toNat % 8) eq (!eq && ltV x y) (!eq && ltV y x) (x.isNan || y.isNan)) s

/-- A form of masks to a mask. -/
def maskForm (w : WordF) (n : Nat) (f : Word → Word → Word) (s : State) : Out :=
  let srcs := ([w.srcA, w.srcB]).take n
  runX w true (fun s g => do
    takeSources s g srcs []
    donePop (putMask s g w 32 (f (maskSource s g srcs 0) (maskSource s g srcs 1))) srcs) s

/-- MAND (R124). -/
def execMand (w : WordF) (s : State) : Out := maskForm w 2 (· &&& ·) s
/-- MOR (R124). -/
def execMor (w : WordF) (s : State) : Out := maskForm w 2 (· ||| ·) s
/-- MXOR (R124). -/
def execMxor (w : WordF) (s : State) : Out := maskForm w 2 (· ^^^ ·) s
/-- MNOT (R124). -/
def execMnot (w : WordF) (s : State) : Out := maskForm w 1 (fun a _ => ~~~a) s

/-- A form of a mask to a 64-bit scalar in lanes 0 and 1 (R113). -/
def maskCount (w : WordF) (f : Word → Nat) (s : State) : Out :=
  let srcs := [w.srcA]
  runX w true (fun s g => do
    takeSources s g srcs (dstPush w.dst)
    donePop (putVec s g w 32 (BitVec.ofNat 2048 (f (maskSource s g srcs 0)))) srcs) s

/-- MPOPC (R124). -/
def execMpopc (w : WordF) (s : State) : Out := maskCount w (fun m => popOf 64 m.toNat) s
/-- The index of the lowest set bit; 64 if none is set. -/
def firstSet (m : Word) : Nat := ((List.range 64).find? (fun i => m.getLsbD i)).getD 64
/-- MFIRST (R124). -/
def execMfirst (w : WordF) (s : State) : Out := maskCount w firstSet s

/-- VSEL (R124). -/
def execVsel (w : WordF) (s : State) : Out :=
  let srcs := [w.srcA, w.srcB, w.srcC]
  let width := EType.width w.etype
  runX w true (fun s g => do
    takeSources s g srcs (dstPush w.dst)
    let m := maskSource s g srcs 2
    let a := readElem w.etype (vecSource s g w.etype srcs 0)
    let b := readElem w.etype (vecSource s g w.etype srcs 1)
    let v := vecOf width ((List.range (elemCount width)).map (fun i => if selects width m i then a i else b i))
    donePop (putVec s g w width v) srcs) s

/-- MSET (R124). -/
def execMset (w : WordF) (s : State) : Out :=
  let srcs := [w.srcA]
  runX w true (fun s g => do
    takeSources s g srcs []
    donePop (putMask s g w 32 (scal s g w srcs 0)) srcs) s

end Sys2Proof.Machine
end

