-- ==== Sys2Proof/Machine/VectorPermute.lean ====
section
/-! DEFINITION. The permute, reduce, scan, position and move forms (R129 to R133). -/

namespace Sys2Proof.Machine

/-- A form that builds its elements from whole vectors: `f` gets the state, the agent, the element width and the elements
of A. -/
def permForm (w : WordF) (srcs : List Operand) (f : State → Agent → Nat → (Nat → Nat) → Nat → Nat) (s : State) : Out :=
  let width := EType.width w.etype
  runX w true (fun s g => do
    takeSources s g srcs (dstPush w.dst)
    let a := readElem w.etype (vecSource s g w.etype srcs 0)
    let v := vecOf width ((List.range (elemCount width)).map (f s g width a))
    donePop (putVec s g w width v) srcs) s

/-- VBCAST (R129). -/
def execVbcast (w : WordF) (s : State) : Out :=
  let srcs := [w.srcA, w.srcB]
  permForm w srcs (fun s g n a _ => a ((scal s g w srcs 1).toNat % elemCount n)) s

/-- VSHUF (R129): an index is all the bits of its element's width (log 58). -/
def execVshuf (w : WordF) (s : State) : Out :=
  let srcs := [w.srcA, w.srcB]
  permForm w srcs (fun s g n a i => a (elemAt (vecSource s g w.etype srcs 1) n i % elemCount n)) s

/-- VROT (R129). -/
def execVrot (w : WordF) (s : State) : Out :=
  let srcs := [w.srcA, w.srcB]
  permForm w srcs (fun s g n a i =>
    a ((i + elemCount n - (scal s g w srcs 1).toNat % elemCount n) % elemCount n)) s

/-- VSLIDE (R129): mod 0 down, 1 up. -/
def execVslide (w : WordF) (s : State) : Out :=
  let srcs := [w.srcA, w.srcB, w.srcC]
  permForm w srcs (fun s g n a i =>
    let c := readElem w.etype (vecSource s g w.etype srcs 2)
    let k := Nat.min (scal s g w srcs 1).toNat (elemCount n)
    if w.mod.getLsbD 0 then (if k ≤ i then a (i - k) else c (elemCount n + i - k))
    else if i + k < elemCount n then a (i + k) else c (i + k - elemCount n)) s

/-- The selected elements of a vector, in order, below a bound (R130, R131). -/
def selectedElems (n : Nat) (m : Word) (a : Vec) (bound : Nat) : List Nat :=
  ((List.range bound).filter (selects n m)).map (elemAt a n)

/-- R130, R131: the sum of elements: mod 2ʷ, or one rounding of the exact sum (R78). -/
def sumElems (t : EType) (m : Rnd) (es : List Nat) : Nat × Flagset :=
  match EType.float? t with
  | none => (es.sum % 2 ^ EType.width t, 0)
  | some f =>
    let x := sumV (es.map (decodeF f))
    let r := roundF f m false false x.1
    (r.1, x.2 ||| r.2)

/-- A reduction to element 0 (R113, R130). -/
def redForm (w : WordF) (f : State → Agent → List Nat → Nat × Flagset) (s : State)
    (rounds : Bool := false) : Out :=
  let srcs := [w.srcA, w.srcB]
  let n := EType.width w.etype
  runX w true (fun s g => do
    takeSources s g srcs (dstPush w.dst)
    let r := f s g (selectedElems n (maskSource s g srcs 1) (vecSource s g w.etype srcs 0) (elemCount n))
    donePop (putElems s g w n (r :: List.replicate (elemCount n - 1) (0, 0))) srcs) s rounds

/-- VREDADD (R130). -/
def execVredadd (w : WordF) (s : State) : Out :=
  redForm w (fun s g es => sumElems w.etype (xRnd s g (w.mod.toNat % 4) 0) es) s (EType.float? w.etype).isSome

/-- R130: the greatest or least of elements of a type, or the value for none. -/
def extremum (t : EType) (greatest : Bool) (es : List Nat) : Nat :=
  match EType.float? t, es with
  | some f, [] => (roundF f .rne false false (.inf greatest)).1
  | some f, e :: rest =>
    (roundF f .rne false false ((rest.map (decodeF f)).foldl (if greatest then maxV else minV) (decodeF f e))).1
  | none, [] => ofSigned (EType.width t)
      (if greatest then intMin (EType.signed t) (EType.width t) else intMax (EType.signed t) (EType.width t))
  | none, e :: rest => rest.foldl (fun x y =>
      let lt := intOf (EType.signed t) (EType.width t) x < intOf (EType.signed t) (EType.width t) y
      if greatest then (if lt then y else x) else (if lt then x else y)) e

/-- VREDMAX (R130). -/
def execVredmax (w : WordF) (s : State) : Out := redForm w (fun _ _ es => (extremum w.etype true es, 0)) s
/-- VREDMIN (R130). -/
def execVredmin (w : WordF) (s : State) : Out := redForm w (fun _ _ es => (extremum w.etype false es, 0)) s

/-- VSCAN (R131). -/
def execVscan (w : WordF) (s : State) : Out :=
  let srcs := [w.srcA, w.srcB]
  let n := EType.width w.etype
  runX w true (fun s g => do
    takeSources s g srcs (dstPush w.dst)
    let a := vecSource s g w.etype srcs 0
    let m := maskSource s g srcs 1
    let rs := (List.range (elemCount n)).map (fun i =>
      sumElems w.etype (xRnd s g (w.mod.toNat % 4) i)
        (selectedElems n m a (if w.mod.getLsbD 2 then i else i + 1)))
    donePop (putElems s g w n rs) srcs) s (EType.float? w.etype).isSome

/-- How many positions below i a mask selects. -/
def rankIn (n : Nat) (m : Word) (i : Nat) : Nat := ((List.range i).filter (selects n m)).length

/-- VIOTA (R132). -/
def execViota (w : WordF) (s : State) : Out :=
  let srcs := [w.srcA]
  let n := EType.width w.etype
  runX w true (fun s g => do
    takeSources s g srcs (dstPush w.dst)
    let m := maskSource s g srcs 0
    donePop (putVec s g w n (vecOf n ((List.range (elemCount n)).map (rankIn n m)))) srcs) s

/-- VCMPRS (R132). -/
def execVcmprs (w : WordF) (s : State) : Out :=
  let srcs := [w.srcA, w.srcB]
  let n := EType.width w.etype
  runX w true (fun s g => do
    takeSources s g srcs (dstPush w.dst)
    let v := vecOf n ((selectedElems n (maskSource s g srcs 1) (vecSource s g w.etype srcs 0) (elemCount n)).map
      (elemTrim w.etype))
    donePop (putVec s g w n v) srcs) s

/-- VEXPND (R132). -/
def execVexpnd (w : WordF) (s : State) : Out :=
  let srcs := [w.srcA, w.srcB]
  permForm w srcs (fun s g n a i =>
    let m := maskSource s g srcs 1
    if selects n m i then a (rankIn n m i) else 0) s

/-- VMOV (R133). -/
def execVmov (w : WordF) (s : State) : Out := permForm w [w.srcA] (fun _ _ _ a i => a i) s
/-- VLIT (R133). -/
def execVlit (w : WordF) (s : State) : Out := permForm w [w.srcA] (fun _ _ _ a i => a i) s

/-- VINS (R133). -/
def execVins (w : WordF) (s : State) : Out :=
  let srcs := [w.srcA, w.srcB, w.srcC]
  permForm w srcs (fun s g n a i =>
    if i = (scal s g w srcs 2).toNat % elemCount n then elemTrim w.etype ((scal s g w srcs 1).toNat % 2 ^ n) else a i) s

/-- R133: an element extended to 64 bits: by its sign for signed integers, else with zeros. -/
def extendElem (t : EType) (v : Nat) : Word :=
  if EType.signed t then sext64 (EType.width t) v else zext64 (EType.width t) v

/-- VEXT (R133). -/
def execVext (w : WordF) (s : State) : Out :=
  let srcs := [w.srcA, w.srcB]
  let n := EType.width w.etype
  runX w true (fun s g => do
    takeSources s g srcs (dstPush w.dst)
    let e := readElem w.etype (vecSource s g w.etype srcs 0) ((scal s g w srcs 1).toNat % elemCount n)
    donePop (putVec s g w n ((extendElem w.etype e).setWidth 2048)) srcs) s

end Sys2Proof.Machine
end

