-- ==== Sys2Proof/Machine/Words.lean ====
section
/-! DEFINITION. The words of Instr alone: what WORD_RESUME asks of the word at a PC (R33, R84). -/

namespace Sys2Proof.Machine

/-- The evaluation of a word or a record; an event is none. -/
def wordExec (i : Instr) (s : State) : Out :=
  match i with
  | .nop a => execNop a s
  | .mov a => execMov a s
  | .add a => execAdd a s
  | .sub a => execSub a s
  | .mul a => execMul a s
  | .mulh a => execMulh a s
  | .div a => execDiv a s
  | .rem a => execRem a s
  | .and a => execAnd a s
  | .or a => execOr a s
  | .xor a => execXor a s
  | .shl a => execShl a s
  | .shr a => execShr a s
  | .sra a => execSra a s
  | .min a => execMin a s
  | .max a => execMax a s
  | .set a => execSet a s
  | .sel a => execSel a s
  | .madd a => execMadd a s
  | .scale a => execScale a s
  | .clz a => execClz a s
  | .popc a => execPopc a s
  | .bfx a => execBfx a s
  | .bfi a => execBfi a s
  | .br a => execBr a s
  | .bc a => execBc a s
  | .call a => execCall a s
  | .ret a => execRet a s
  | .bri a => execBri a s
  | .loopSet a => execLoopSet a s
  | .loop a => execLoop a s
  | .lbrk a => execLbrk a s
  | .qpush a => execQpush a s
  | .qpop a => execQpop a s
  | .qpeek a => execQpeek a s
  | .qlen a => execQlen a s
  | .tkpush a => execTkpush a s
  | .tkpop a => execTkpop a s
  | .gets a => execGets a s
  | .sets a => execSets a s
  | .trap a => execTrap a s
  | .brk a => execBrk a s
  | .cyc a => execCyc a s
  | .perf a => execPerf a s
  | .barinit a => execBarinit a s
  | .bararr a => execBararr a s
  | .bartry a => execBartry a s
  | .gbararr a => execGbararr a s
  | .gbartry a => execGbartry a s
  | .waittl a => execWaittl a s
  | .tlget a => execTlget a s
  | .setwt a => execSetwt a s
  | .tuneq a => execTuneq a s
  | .spawn a => execSpawn a s
  | .renq a => execRenq a s
  | .klaunch a => execKlaunch a s
  | .kwait a => execKwait a s
  | .kretry a => execKretry a s
  | .kcancelTask a => execKcancelTask a s
  | .kcancelKern a => execKcancelKern a s
  | .qthaw a => execQthaw a s
  | .ld a => execLd a s
  | .ldq a => execLdq a s
  | .ldqDec a => execLdqDec a s
  | .ldqs a => execLdqs a s
  | .gathq a => execGathq a s
  | .strm a => execStrm a s
  | .strmx a => execStrmx a s
  | .rfill a => execRfill a s
  | .rfillg a => execRfillg a s
  | .pref a => execPref a s
  | .ldacq a => execLdacq a s
  | .waitaddr a => execWaitaddr a s
  | .rdrop a => execRdrop a s
  | .rinit a => execRinit a s
  | .aadd a => execAadd a s
  | .afadd a => execAfadd a s
  | .amin a => execAmin a s
  | .amax a => execAmax a s
  | .aand a => execAand a s
  | .aor a => execAor a s
  | .axor a => execAxor a s
  | .aswp a => execAswp a s
  | .acas a => execAcas a s
  | .aincw a => execAincw a s
  | .cpy a => execCpy a s
  | .cpyh a => execCpyh a s
  | .migr a => execMigr a s
  | .pin a => execPin a s
  | .unpin a => execUnpin a s
  | .coll a => execColl a s
  | .digest a => execDigest a s
  | .tlbinv a => execTlbinv a s
  | .pgzero a => execPgzero a s
  | .st a => execSt a s
  | .stq a => execStq a s
  | .stqEnc a => execStqEnc a s
  | .stqs a => execStqs a s
  | .scatq a => execScatq a s
  | .drn a => execDrn a s
  | .drnx a => execDrnx a s
  | .rdrain a => execRdrain a s
  | .redsp a => execRedsp a s
  | .sendh a => execSendh a s
  | .strel a => execStrel a s
  | .zero a => execZero a s
  | .clean a => execClean a s
  | .inval a => execInval a s
  | .vadd a => execVadd a s
  | .vsub a => execVsub a s
  | .vmul a => execVmul a s
  | .vmulh a => execVmulh a s
  | .vmadd a => execVmadd a s
  | .vsadd a => execVsadd a s
  | .vssub a => execVssub a s
  | .vand a => execVand a s
  | .vor a => execVor a s
  | .vxor a => execVxor a s
  | .vandn a => execVandn a s
  | .vshl a => execVshl a s
  | .vshr a => execVshr a s
  | .vsra a => execVsra a s
  | .vmin a => execVmin a s
  | .vmax a => execVmax a s
  | .vabs a => execVabs a s
  | .vneg a => execVneg a s
  | .vclz a => execVclz a s
  | .vpopc a => execVpopc a s
  | .vdot4 a => execVdot4 a s
  | .fadd a => execFadd a s
  | .fsub a => execFsub a s
  | .fmul a => execFmul a s
  | .ffma a => execFfma a s
  | .ffnma a => execFfnma a s
  | .fmin a => execFmin a s
  | .fmax a => execFmax a s
  | .fabs a => execFabs a s
  | .fneg a => execFneg a s
  | .fdiv a => execFdiv a s
  | .fsqrt a => execFsqrt a s
  | .fexp a => execFexp a s
  | .fexp2 a => execFexp2 a s
  | .flog2 a => execFlog2 a s
  | .ftanh a => execFtanh a s
  | .frnd a => execFrnd a s
  | .fclass a => execFclass a s
  | .vcmp a => execVcmp a s
  | .fcmp a => execFcmp a s
  | .mand a => execMand a s
  | .mor a => execMor a s
  | .mxor a => execMxor a s
  | .mnot a => execMnot a s
  | .mpopc a => execMpopc a s
  | .mfirst a => execMfirst a s
  | .vsel a => execVsel a s
  | .mset a => execMset a s
  | .cvt a => execCvt a s
  | .pack a => execPack a s
  | .unpack a => execUnpack a s
  | .qenc a => execQenc a s
  | .qdec a => execQdec a s
  | .vbcast a => execVbcast a s
  | .vshuf a => execVshuf a s
  | .vrot a => execVrot a s
  | .vslide a => execVslide a s
  | .vredadd a => execVredadd a s
  | .vredmax a => execVredmax a s
  | .vredmin a => execVredmin a s
  | .vscan a => execVscan a s
  | .viota a => execViota a s
  | .vcmprs a => execVcmprs a s
  | .vexpnd a => execVexpnd a s
  | .vmov a => execVmov a s
  | .vlit a => execVlit a s
  | .vins a => execVins a s
  | .vext a => execVext a s
  | .pkset a => execPkset a s
  | .pkrand a => execPkrand a s
  | .pktopk a => execPktopk a s
  | .pkmerge a => execPkmerge a s
  | .pkdraw a => execPkdraw a s
  | .mma a => execMma a s
  | .mmas a => execMmas a s
  | .mhad a => execMhad a s
  | .mclr a => execMclr a s
  | .mlda a => execMlda a s
  | .msta a => execMsta a s
  | .mscl a => execMscl a s
  | .madda a => execMadda a s
  | .mxp a => execMxp a s
  | .fence a => execFence a s
  | .yieldTl a => execYieldTl a s
  | .yieldNb a => execYieldNb a s
  | .yieldGb a => execYieldGb a s
  | .yieldArr a => execYieldArr a s
  | .tend a => execTend a s
  | .ktrig a => execKtrig a s
  | .sync a => execSync a s
  | .wordResume _ => .fault .notEnabled
  | .waitaddrWake _ => .fault .notEnabled
  | .taskDispatch _ => .fault .notEnabled
  | .shadowSwap _ => .fault .notEnabled
  | .shadowBankStart _ => .fault .notEnabled
  | .activeBankResume _ => .fault .notEnabled
  | .streamStop _ => .fault .notEnabled
  | .deferredFault _ => .fault .notEnabled
  | .streamEngineStep _ _ _ => .fault .notEnabled
  | .queueAtomicResult _ _ _ => .fault .notEnabled
  | .matrixStep _ _ => .fault .notEnabled
  | .matrixPop _ _ => .fault .notEnabled
  | .copyPiece _ _ _ => .fault .notEnabled
  | .migratorPage _ => .fault .notEnabled
  | .moveCommit _ => .fault .notEnabled
  | .collectiveStep _ _ _ => .fault .notEnabled
  | .atomicAtHome _ => .fault .notEnabled
  | .storeBufferDrain _ _ => .fault .notEnabled
  | .writeApply _ _ => .fault .notEnabled
  | .sendhArrival _ => .fault .notEnabled
  | .redspArrival _ => .fault .notEnabled
  | .gbarCount _ => .fault .notEnabled
  | .contReady _ _ => .fault .notEnabled
  | .pageWalk _ _ _ _ => .fault .notEnabled
  | .eccError _ => .fault .notEnabled
  | .refetchComplete _ _ => .fault .notEnabled
  | .repairTimeout _ => .fault .notEnabled
  | .hostFlipAccess _ _ => .fault .notEnabled
  | .atsInvalidate _ _ => .fault .notEnabled
  | .capoEvict _ _ _ _ => .fault .notEnabled
  | .dieFault _ => .fault .notEnabled
  | .dieResetDone _ _ => .fault .notEnabled
  | .islandGate _ => .fault .notEnabled
  | .islandUngate _ => .fault .notEnabled
  | .ungateComplete _ => .fault .notEnabled
  | .flitSend _ _ => .fault .notEnabled
  | .flitReceive _ _ _ => .fault .notEnabled
  | .replayTimeout _ => .fault .notEnabled
  | .linkTrainDone _ _ _ => .fault .notEnabled
  | .linkAckTimeout _ => .fault .notEnabled
  | .hostLinkDown => .fault .notEnabled
  | .ringTailRead _ => .fault .notEnabled
  | .launch _ => .fault .notEnabled
  | .ctxopen _ => .fault .notEnabled
  | .ctxready _ => .fault .notEnabled
  | .wsload _ => .fault .notEnabled
  | .ctxquiesce _ => .fault .notEnabled
  | .ctxrelease _ => .fault .notEnabled
  | .quiesceComplete _ => .fault .notEnabled
  | .wsloadBegin _ => .fault .notEnabled
  | .kernelAdmit _ => .fault .notEnabled
  | .tileQueueFill _ => .fault .notEnabled
  | .gangReserve => .fault .notEnabled
  | .gangBankHold _ => .fault .notEnabled
  | .periodBoundary => .fault .notEnabled
  | .drainWindowStart => .fault .notEnabled
  | .levelChange => .fault .notEnabled
  | .refresh => .fault .notEnabled
  | .sensorSweep _ => .fault .notEnabled
  | .targetedSelftest _ _ => .fault .notEnabled
  | .slotEnd => .fault .notEnabled
  | .overrunComplete _ => .fault .notEnabled
  | .cadenceCapApply _ => .fault .notEnabled
  | .parkImage _ _ => .fault .notEnabled
  | .imageResume _ _ _ => .fault .notEnabled
  | .shedEnd => .fault .notEnabled
  | .curveActivate => .fault .notEnabled
  | .curveExpire => .fault .notEnabled
  | .heartbeatTimeout => .fault .notEnabled
  | .powerOnReset => .fault .notEnabled
  | .bootSelftestDone _ => .fault .notEnabled
  | .modreset _ => .fault .notEnabled
  | .ringStart _ => .fault .notEnabled
  | .ringDisable _ => .fault .notEnabled
  | .curveSubmit => .fault .notEnabled
  | .attestRequest => .fault .notEnabled
  | .commRegister => .fault .notEnabled
  | .dbgHold _ _ => .fault .notEnabled
  | .dbgReleaseThaw _ => .fault .notEnabled
  | .dbgReleaseCancel _ => .fault .notEnabled
  | .regWrite _ _ => .fault .notEnabled
  | .extendedSlotRetrain _ => .fault .notEnabled
  | .ieee1588TimeLost => .fault .notEnabled
  | .ieee1588TimeGained _ => .fault .notEnabled
  | .cxlMemAccess _ => .fault .notEnabled
  | .responseReturn _ => .fault .notEnabled

end Sys2Proof.Machine
end

