-- ==== Sys2Proof/Machine/Resuming.lean ====
section
/-! DEFINITION. The evaluation of the word at a stream's PC (R29, R33, R251), how a stalled word continues (R33, R84,
R208), takes a deferred fault (R370) or stops (R85). -/

namespace Sys2Proof.Machine

/-! ### The word at a PC -/

/-- The bits at a stream's PC, 0 if they cannot be fetched. -/
def rawHere (s : State) (g : Agent) : Nat :=
  match fetchBytes s g ((stOf s g).pc.setWidth 64) 16 with
  | .ok bs => ofBytes bs
  | .error _ => 0

/-- R251: a thawed word that cannot be fetched or decoded: its token bits and its wait, as far as its bits give them, and
nothing else. -/
def thawRaw (s : State) (g : Agent) : Out :=
  let raw := BitVec.ofNat 128 (rawHere s g)
  let wait := if 42 < bits raw 120 115 then 0 else bits raw 120 115
  if bits raw 127 125 = 4 then runB { tag := .b, wait := BitVec.ofNat 6 wait } (fun s _ => done s) s
  else evalWord (bit raw 124) (bit raw 123) (bit raw 122) (bit raw 121) (BitVec.ofNat 6 wait) 0 false false
    (if bits raw 127 125 = 3 then 4 else 1) {} 0 0 false (fun s _ => done s) s

/-- R33, R84: the word at a stream's PC has passed steps 1 and 2. What the stream's earlier words wrote races no more. -/
def latchWord (s : State) (g : Agent) (i : Instr) : State :=
  modStOf (settleSpad s g.core (· == some g)) g (fun x => { x with latch := some i })

/-- R29, R31 to R33: a stream evaluates the word at its PC, by a meaning of words: the word that it has decoded and that
stalled, or the one it fetches. -/
def evalHere (f : Instr → State → Out) (s : State) (g : Agent) : Out :=
  let s := { s with cur := g }
  if !mayEvaluate s g then .fault .notEnabled
  else match (stOf s g).latch with
    | some i => f i s
    | none =>
      let t := textServed s g
      match fetchInstr t g with
      | .skip => .next (skipWord t g)
      | .stop x => if (stOf t g).thaw then thawRaw t g else .next (fetchStop g x)
      | .instr i => f i (latchWord t g i)

/-! ### WORD_RESUME (R33, R84, R86) -/

/-- R33, R96: is a stream stalled in a word that may go on by its own condition? In a suspended bank that is a word at
step 8 alone. -/
def mayResume (x : StreamSt) : Bool :=
  match x.run with
  | .stalled why =>
    x.watching.isNone && x.pending.isNone && x.deferred.isEmpty && (!x.suspended || (why == .op && x.passed == 7))
  | .free | .running | .halted | .stopped => false

/-- Has a stream been left stalled? -/
def isStalled (x : StreamSt) : Bool :=
  match x.run with
  | .stalled _ => true
  | .free | .running | .halted | .stopped => false

/-- R33: has the word of a stream gone past its stall from one state to another: it stalls no more, or at a later step,
or it has begun a page move (R216)? -/
def wentOn (s t : State) (g : Agent) : Bool :=
  !isStalled (stOf t g) || (stOf t g).run != (stOf s g).run || (stOf t g).passed != (stOf s g).passed
    || t.nextId != s.nextId

/-- What the evaluation of a stalled stream's word gives now, if it gets past the step at which it stalls. -/
def wordNow (s : State) (g : Agent) : Option State :=
  let r := modStOf s g (fun x => { x with run := .running })
  let r := if (stOf s g).suspended then modBankOf r g (fun k => k.onStreams unsuspend) else r
  match evalHere wordExec r g with
  | .next t => if wentOn s t g then some t else none
  | .fault _ => none
  | .refused _ => none

/-- R95, R96: a stream stays SUSPENDED, and its count as it was, after a word of its bank has completed. -/
def stillSuspended (old x : StreamSt) : StreamSt :=
  { x with suspended := true, slip := old.slip, slipDue := some x.slip }

/-- WORD_RESUME (R33, R84): the condition at which the word stalls holds, and the stream runs on in it. In a suspended
bank an acceptance completes (R86, R96). -/
def execWordResume (g : Agent) (s : State) : Out :=
  let x := stOf s g
  if !mayResume x || (bankOf s g).task.isNone || struck s g.core g.bank then .fault .notEnabled
  else match wordNow s g with
    | none => .fault .notEnabled
    | some t =>
      if !x.suspended then .next (modStOf s g (fun x => { x with run := .running }))
      else if isStalled (stOf t g) then .fault .notEnabled
      else if (bankOf t g).task.isNone then .next t
      else
        let k := bankOf s g
        .next (modBankOf t g (fun j =>
          { j with l := stillSuspended k.l j.l, x := stillSuspended k.x j.x, s := stillSuspended k.s j.s }))

/-! ### WAITADDR_WAKE (R208) -/

/-- The first cycle after a cycle on which a slot ends. -/
def slotEndAfter (s : State) (c : Nat) : Nat :=
  let start := match extOf s (c / 65536) with
    | some e => 65536 * e
    | none => 65536 * (c / 65536)
  if c < slotEndOf s start then slotEndOf s start else slotEndOf s (slotStartFrom s c)

/-- R208: has a write to the line that a stream watches entered the view? -/
def lineHit (s : State) (g : Agent) : Bool := s.ms.watches.any (fun v => v.agent == g && v.hit)

/-- WAITADDR_WAKE (R208): a write to the watched line, or the end of a slot, has the word read its location again. -/
def execWaitaddrWake (g : Agent) (s : State) : Out :=
  let x := stOf s g
  match x.watching with
  | none => .fault .notEnabled
  | some w =>
    if isStalled x && !x.suspended
      && (lineHit s g || lineBytes s g w.line ≠ w.bytes || slotEndAfter s w.since ≤ s.cal.cycle)
    then .next (modStOf s g (fun x => { x with run := .running, watching := none, stalledFor := 0 }))
    else .fault .notEnabled

/-! ### DEFERRED_FAULT (R86, R370) -/

/-- DEFERRED_FAULT (R370): a stream that waits in a word that has not begun takes it at that word. -/
def execDeferredFault (g : Agent) (s : State) : Out :=
  let x := stOf s g
  match x.deferred with
  | [] => .fault .notEnabled
  | d :: rest =>
    if isStalled x && !x.suspended && x.pending.isNone then .next (takeDeferred s g d rest) else .fault .notEnabled

/-! ### STREAM_STOP (R85) -/

/-- R85: does the stream stand at a B word? -/
def atBWord (s : State) (g : Agent) : Bool :=
  (stOf s g).arrived || (match (stOf s g).latch with
    | some i => ofBytes (encodeBytes i) / 2 ^ 125 % 8 == 4
    | none => rawHere s g / 2 ^ 125 % 8 == 4)

/-- R85 step 2, R233: must the stream stop now? In a context that stops, as soon as no word is past step 8. -/
def stopDue (s : State) (g : Agent) (z : Freeze) : Bool :=
  let x := stOf s g
  x.moves && x.pending.isNone
    && (z.stopping || (!x.suspended
      && ((isStalled x && (64 ≤ x.stalledFor || atBWord s g)) || z.since + 65536 ≤ s.cal.cycle)))

/-- STREAM_STOP (R85). -/
def execStreamStop (g : Agent) (s : State) : Out :=
  match (getAux s g.core g.bank).freeze with
  | none => .fault .notEnabled
  | some z =>
    if z.done || !stopDue s g z then .fault .notEnabled
    else .next (freezeIfStill (modStOf s g stopHere) g.core g.bank)

end Sys2Proof.Machine
end

