-- ==== Sys2Proof/Machine/Dispatch.lean ====
section
/-! DEFINITION. The dispatch of every instruction to its meaning. -/

namespace Sys2Proof.Machine

/-- The meaning of every step of the part. -/
def exec (i : Instr) (s : State) : Host.Outcome State Fault Refusal :=
  match i with
  | .nop a => Sys2Proof.Machine.execNop a s
  | .mov a => Sys2Proof.Machine.execMov a s
  | .add a => Sys2Proof.Machine.execAdd a s
  | .sub a => Sys2Proof.Machine.execSub a s
  | .mul a => Sys2Proof.Machine.execMul a s
  | .mulh a => Sys2Proof.Machine.execMulh a s
  | .div a => Sys2Proof.Machine.execDiv a s
  | .rem a => Sys2Proof.Machine.execRem a s
  | .and a => Sys2Proof.Machine.execAnd a s
  | .or a => Sys2Proof.Machine.execOr a s
  | .xor a => Sys2Proof.Machine.execXor a s
  | .shl a => Sys2Proof.Machine.execShl a s
  | .shr a => Sys2Proof.Machine.execShr a s
  | .sra a => Sys2Proof.Machine.execSra a s
  | .min a => Sys2Proof.Machine.execMin a s
  | .max a => Sys2Proof.Machine.execMax a s
  | .set a => Sys2Proof.Machine.execSet a s
  | .sel a => Sys2Proof.Machine.execSel a s
  | .madd a => Sys2Proof.Machine.execMadd a s
  | .scale a => Sys2Proof.Machine.execScale a s
  | .clz a => Sys2Proof.Machine.execClz a s
  | .popc a => Sys2Proof.Machine.execPopc a s
  | .bfx a => Sys2Proof.Machine.execBfx a s
  | .bfi a => Sys2Proof.Machine.execBfi a s
  | .br a => Sys2Proof.Machine.execBr a s
  | .bc a => Sys2Proof.Machine.execBc a s
  | .call a => Sys2Proof.Machine.execCall a s
  | .ret a => Sys2Proof.Machine.execRet a s
  | .bri a => Sys2Proof.Machine.execBri a s
  | .loopSet a => Sys2Proof.Machine.execLoopSet a s
  | .loop a => Sys2Proof.Machine.execLoop a s
  | .lbrk a => Sys2Proof.Machine.execLbrk a s
  | .qpush a => Sys2Proof.Machine.execQpush a s
  | .qpop a => Sys2Proof.Machine.execQpop a s
  | .qpeek a => Sys2Proof.Machine.execQpeek a s
  | .qlen a => Sys2Proof.Machine.execQlen a s
  | .tkpush a => Sys2Proof.Machine.execTkpush a s
  | .tkpop a => Sys2Proof.Machine.execTkpop a s
  | .gets a => Sys2Proof.Machine.execGets a s
  | .sets a => Sys2Proof.Machine.execSets a s
  | .trap a => Sys2Proof.Machine.execTrap a s
  | .brk a => Sys2Proof.Machine.execBrk a s
  | .cyc a => Sys2Proof.Machine.execCyc a s
  | .perf a => Sys2Proof.Machine.execPerf a s
  | .barinit a => Sys2Proof.Machine.execBarinit a s
  | .bararr a => Sys2Proof.Machine.execBararr a s
  | .bartry a => Sys2Proof.Machine.execBartry a s
  | .gbararr a => Sys2Proof.Machine.execGbararr a s
  | .gbartry a => Sys2Proof.Machine.execGbartry a s
  | .waittl a => Sys2Proof.Machine.execWaittl a s
  | .tlget a => Sys2Proof.Machine.execTlget a s
  | .setwt a => Sys2Proof.Machine.execSetwt a s
  | .tuneq a => Sys2Proof.Machine.execTuneq a s
  | .spawn a => Sys2Proof.Machine.execSpawn a s
  | .renq a => Sys2Proof.Machine.execRenq a s
  | .klaunch a => Sys2Proof.Machine.execKlaunch a s
  | .kwait a => Sys2Proof.Machine.execKwait a s
  | .kretry a => Sys2Proof.Machine.execKretry a s
  | .kcancelTask a => Sys2Proof.Machine.execKcancelTask a s
  | .kcancelKern a => Sys2Proof.Machine.execKcancelKern a s
  | .qthaw a => Sys2Proof.Machine.execQthaw a s
  | .ld a => Sys2Proof.Machine.execLd a s
  | .ldq a => Sys2Proof.Machine.execLdq a s
  | .ldqDec a => Sys2Proof.Machine.execLdqDec a s
  | .ldqs a => Sys2Proof.Machine.execLdqs a s
  | .gathq a => Sys2Proof.Machine.execGathq a s
  | .strm a => Sys2Proof.Machine.execStrm a s
  | .strmx a => Sys2Proof.Machine.execStrmx a s
  | .rfill a => Sys2Proof.Machine.execRfill a s
  | .rfillg a => Sys2Proof.Machine.execRfillg a s
  | .pref a => Sys2Proof.Machine.execPref a s
  | .ldacq a => Sys2Proof.Machine.execLdacq a s
  | .waitaddr a => Sys2Proof.Machine.execWaitaddr a s
  | .rdrop a => Sys2Proof.Machine.execRdrop a s
  | .rinit a => Sys2Proof.Machine.execRinit a s
  | .aadd a => Sys2Proof.Machine.execAadd a s
  | .afadd a => Sys2Proof.Machine.execAfadd a s
  | .amin a => Sys2Proof.Machine.execAmin a s
  | .amax a => Sys2Proof.Machine.execAmax a s
  | .aand a => Sys2Proof.Machine.execAand a s
  | .aor a => Sys2Proof.Machine.execAor a s
  | .axor a => Sys2Proof.Machine.execAxor a s
  | .aswp a => Sys2Proof.Machine.execAswp a s
  | .acas a => Sys2Proof.Machine.execAcas a s
  | .aincw a => Sys2Proof.Machine.execAincw a s
  | .cpy a => Sys2Proof.Machine.execCpy a s
  | .cpyh a => Sys2Proof.Machine.execCpyh a s
  | .migr a => Sys2Proof.Machine.execMigr a s
  | .pin a => Sys2Proof.Machine.execPin a s
  | .unpin a => Sys2Proof.Machine.execUnpin a s
  | .coll a => Sys2Proof.Machine.execColl a s
  | .digest a => Sys2Proof.Machine.execDigest a s
  | .tlbinv a => Sys2Proof.Machine.execTlbinv a s
  | .pgzero a => Sys2Proof.Machine.execPgzero a s
  | .st a => Sys2Proof.Machine.execSt a s
  | .stq a => Sys2Proof.Machine.execStq a s
  | .stqEnc a => Sys2Proof.Machine.execStqEnc a s
  | .stqs a => Sys2Proof.Machine.execStqs a s
  | .scatq a => Sys2Proof.Machine.execScatq a s
  | .drn a => Sys2Proof.Machine.execDrn a s
  | .drnx a => Sys2Proof.Machine.execDrnx a s
  | .rdrain a => Sys2Proof.Machine.execRdrain a s
  | .redsp a => Sys2Proof.Machine.execRedsp a s
  | .sendh a => Sys2Proof.Machine.execSendh a s
  | .strel a => Sys2Proof.Machine.execStrel a s
  | .zero a => Sys2Proof.Machine.execZero a s
  | .clean a => Sys2Proof.Machine.execClean a s
  | .inval a => Sys2Proof.Machine.execInval a s
  | .vadd a => Sys2Proof.Machine.execVadd a s
  | .vsub a => Sys2Proof.Machine.execVsub a s
  | .vmul a => Sys2Proof.Machine.execVmul a s
  | .vmulh a => Sys2Proof.Machine.execVmulh a s
  | .vmadd a => Sys2Proof.Machine.execVmadd a s
  | .vsadd a => Sys2Proof.Machine.execVsadd a s
  | .vssub a => Sys2Proof.Machine.execVssub a s
  | .vand a => Sys2Proof.Machine.execVand a s
  | .vor a => Sys2Proof.Machine.execVor a s
  | .vxor a => Sys2Proof.Machine.execVxor a s
  | .vandn a => Sys2Proof.Machine.execVandn a s
  | .vshl a => Sys2Proof.Machine.execVshl a s
  | .vshr a => Sys2Proof.Machine.execVshr a s
  | .vsra a => Sys2Proof.Machine.execVsra a s
  | .vmin a => Sys2Proof.Machine.execVmin a s
  | .vmax a => Sys2Proof.Machine.execVmax a s
  | .vabs a => Sys2Proof.Machine.execVabs a s
  | .vneg a => Sys2Proof.Machine.execVneg a s
  | .vclz a => Sys2Proof.Machine.execVclz a s
  | .vpopc a => Sys2Proof.Machine.execVpopc a s
  | .vdot4 a => Sys2Proof.Machine.execVdot4 a s
  | .fadd a => Sys2Proof.Machine.execFadd a s
  | .fsub a => Sys2Proof.Machine.execFsub a s
  | .fmul a => Sys2Proof.Machine.execFmul a s
  | .ffma a => Sys2Proof.Machine.execFfma a s
  | .ffnma a => Sys2Proof.Machine.execFfnma a s
  | .fmin a => Sys2Proof.Machine.execFmin a s
  | .fmax a => Sys2Proof.Machine.execFmax a s
  | .fabs a => Sys2Proof.Machine.execFabs a s
  | .fneg a => Sys2Proof.Machine.execFneg a s
  | .fdiv a => Sys2Proof.Machine.execFdiv a s
  | .fsqrt a => Sys2Proof.Machine.execFsqrt a s
  | .fexp a => Sys2Proof.Machine.execFexp a s
  | .fexp2 a => Sys2Proof.Machine.execFexp2 a s
  | .flog2 a => Sys2Proof.Machine.execFlog2 a s
  | .ftanh a => Sys2Proof.Machine.execFtanh a s
  | .frnd a => Sys2Proof.Machine.execFrnd a s
  | .fclass a => Sys2Proof.Machine.execFclass a s
  | .vcmp a => Sys2Proof.Machine.execVcmp a s
  | .fcmp a => Sys2Proof.Machine.execFcmp a s
  | .mand a => Sys2Proof.Machine.execMand a s
  | .mor a => Sys2Proof.Machine.execMor a s
  | .mxor a => Sys2Proof.Machine.execMxor a s
  | .mnot a => Sys2Proof.Machine.execMnot a s
  | .mpopc a => Sys2Proof.Machine.execMpopc a s
  | .mfirst a => Sys2Proof.Machine.execMfirst a s
  | .vsel a => Sys2Proof.Machine.execVsel a s
  | .mset a => Sys2Proof.Machine.execMset a s
  | .cvt a => Sys2Proof.Machine.execCvt a s
  | .pack a => Sys2Proof.Machine.execPack a s
  | .unpack a => Sys2Proof.Machine.execUnpack a s
  | .qenc a => Sys2Proof.Machine.execQenc a s
  | .qdec a => Sys2Proof.Machine.execQdec a s
  | .vbcast a => Sys2Proof.Machine.execVbcast a s
  | .vshuf a => Sys2Proof.Machine.execVshuf a s
  | .vrot a => Sys2Proof.Machine.execVrot a s
  | .vslide a => Sys2Proof.Machine.execVslide a s
  | .vredadd a => Sys2Proof.Machine.execVredadd a s
  | .vredmax a => Sys2Proof.Machine.execVredmax a s
  | .vredmin a => Sys2Proof.Machine.execVredmin a s
  | .vscan a => Sys2Proof.Machine.execVscan a s
  | .viota a => Sys2Proof.Machine.execViota a s
  | .vcmprs a => Sys2Proof.Machine.execVcmprs a s
  | .vexpnd a => Sys2Proof.Machine.execVexpnd a s
  | .vmov a => Sys2Proof.Machine.execVmov a s
  | .vlit a => Sys2Proof.Machine.execVlit a s
  | .vins a => Sys2Proof.Machine.execVins a s
  | .vext a => Sys2Proof.Machine.execVext a s
  | .pkset a => Sys2Proof.Machine.execPkset a s
  | .pkrand a => Sys2Proof.Machine.execPkrand a s
  | .pktopk a => Sys2Proof.Machine.execPktopk a s
  | .pkmerge a => Sys2Proof.Machine.execPkmerge a s
  | .pkdraw a => Sys2Proof.Machine.execPkdraw a s
  | .mma a => Sys2Proof.Machine.execMma a s
  | .mmas a => Sys2Proof.Machine.execMmas a s
  | .mhad a => Sys2Proof.Machine.execMhad a s
  | .mclr a => Sys2Proof.Machine.execMclr a s
  | .mlda a => Sys2Proof.Machine.execMlda a s
  | .msta a => Sys2Proof.Machine.execMsta a s
  | .mscl a => Sys2Proof.Machine.execMscl a s
  | .madda a => Sys2Proof.Machine.execMadda a s
  | .mxp a => Sys2Proof.Machine.execMxp a s
  | .fence a => Sys2Proof.Machine.execFence a s
  | .yieldTl a => Sys2Proof.Machine.execYieldTl a s
  | .yieldNb a => Sys2Proof.Machine.execYieldNb a s
  | .yieldGb a => Sys2Proof.Machine.execYieldGb a s
  | .yieldArr a => Sys2Proof.Machine.execYieldArr a s
  | .tend a => Sys2Proof.Machine.execTend a s
  | .ktrig a => Sys2Proof.Machine.execKtrig a s
  | .sync a => Sys2Proof.Machine.execSync a s
  | .wordResume a => Sys2Proof.Machine.execWordResume a s
  | .waitaddrWake a => Sys2Proof.Machine.execWaitaddrWake a s
  | .taskDispatch a => Sys2Proof.Machine.execTaskDispatch a s
  | .shadowSwap a => Sys2Proof.Machine.execShadowSwap a s
  | .shadowBankStart a => Sys2Proof.Machine.execShadowBankStart a s
  | .activeBankResume a => Sys2Proof.Machine.execActiveBankResume a s
  | .streamStop a => Sys2Proof.Machine.execStreamStop a s
  | .deferredFault a => Sys2Proof.Machine.execDeferredFault a s
  | .streamEngineStep a b c => Sys2Proof.Machine.execStreamEngineStep a b c s
  | .queueAtomicResult a b c => Sys2Proof.Machine.execQueueAtomicResult a b c s
  | .matrixStep a b => Sys2Proof.Machine.execMatrixStep a b s
  | .matrixPop a b => Sys2Proof.Machine.execMatrixPop a b s
  | .copyPiece a b c => Sys2Proof.Machine.execCopyPiece a b c s
  | .migratorPage a => Sys2Proof.Machine.execMigratorPage a s
  | .moveCommit a => Sys2Proof.Machine.execMoveCommit a s
  | .collectiveStep a b c => Sys2Proof.Machine.execCollectiveStep a b c s
  | .atomicAtHome a => Sys2Proof.Machine.execAtomicAtHome a s
  | .storeBufferDrain a b => Sys2Proof.Machine.execStoreBufferDrain a b s
  | .writeApply a b => Sys2Proof.Machine.execWriteApply a b s
  | .sendhArrival a => Sys2Proof.Machine.execSendhArrival a s
  | .redspArrival a => Sys2Proof.Machine.execRedspArrival a s
  | .gbarCount a => Sys2Proof.Machine.execGbarCount a s
  | .contReady a b => Sys2Proof.Machine.execContReady a b s
  | .pageWalk a b c d => Sys2Proof.Machine.execPageWalk a b c d s
  | .eccError a => Sys2Proof.Machine.execEccError a s
  | .refetchComplete a b => Sys2Proof.Machine.execRefetchComplete a b s
  | .repairTimeout a => Sys2Proof.Machine.execRepairTimeout a s
  | .hostFlipAccess a b => Sys2Proof.Machine.execHostFlipAccess a b s
  | .atsInvalidate a b => Sys2Proof.Machine.execAtsInvalidate a b s
  | .capoEvict a b c d => Sys2Proof.Machine.execCapoEvict a b c d s
  | .dieFault a => Sys2Proof.Machine.execDieFault a s
  | .dieResetDone a b => Sys2Proof.Machine.execDieResetDone a b s
  | .islandGate a => Sys2Proof.Machine.execIslandGate a s
  | .islandUngate a => Sys2Proof.Machine.execIslandUngate a s
  | .ungateComplete a => Sys2Proof.Machine.execUngateComplete a s
  | .flitSend a b => Sys2Proof.Machine.execFlitSend a b s
  | .flitReceive a b c => Sys2Proof.Machine.execFlitReceive a b c s
  | .replayTimeout a => Sys2Proof.Machine.execReplayTimeout a s
  | .linkTrainDone a b c => Sys2Proof.Machine.execLinkTrainDone a b c s
  | .linkAckTimeout a => Sys2Proof.Machine.execLinkAckTimeout a s
  | .hostLinkDown => Sys2Proof.Machine.execHostLinkDown s
  | .ringTailRead a => Sys2Proof.Machine.execRingTailRead a s
  | .launch a => Sys2Proof.Machine.execLaunch a s
  | .ctxopen a => Sys2Proof.Machine.execCtxopen a s
  | .ctxready a => Sys2Proof.Machine.execCtxready a s
  | .wsload a => Sys2Proof.Machine.execWsload a s
  | .ctxquiesce a => Sys2Proof.Machine.execCtxquiesce a s
  | .ctxrelease a => Sys2Proof.Machine.execCtxrelease a s
  | .quiesceComplete a => Sys2Proof.Machine.execQuiesceComplete a s
  | .wsloadBegin a => Sys2Proof.Machine.execWsloadBegin a s
  | .kernelAdmit a => Sys2Proof.Machine.execKernelAdmit a s
  | .tileQueueFill a => Sys2Proof.Machine.execTileQueueFill a s
  | .gangReserve => Sys2Proof.Machine.execGangReserve s
  | .gangBankHold a => Sys2Proof.Machine.execGangBankHold a s
  | .periodBoundary => Sys2Proof.Machine.execPeriodBoundary s
  | .drainWindowStart => Sys2Proof.Machine.execDrainWindowStart s
  | .levelChange => Sys2Proof.Machine.execLevelChange s
  | .refresh => Sys2Proof.Machine.execRefresh s
  | .sensorSweep a => Sys2Proof.Machine.execSensorSweep a s
  | .targetedSelftest a b => Sys2Proof.Machine.execTargetedSelftest a b s
  | .slotEnd => Sys2Proof.Machine.execSlotEnd s
  | .overrunComplete a => Sys2Proof.Machine.execOverrunComplete a s
  | .cadenceCapApply a => Sys2Proof.Machine.execCadenceCapApply a s
  | .parkImage a b => Sys2Proof.Machine.execParkImage a b s
  | .imageResume a b c => Sys2Proof.Machine.execImageResume a b c s
  | .shedEnd => Sys2Proof.Machine.execShedEnd s
  | .curveActivate => Sys2Proof.Machine.execCurveActivate s
  | .curveExpire => Sys2Proof.Machine.execCurveExpire s
  | .heartbeatTimeout => Sys2Proof.Machine.execHeartbeatTimeout s
  | .powerOnReset => Sys2Proof.Machine.execPowerOnReset s
  | .bootSelftestDone a => Sys2Proof.Machine.execBootSelftestDone a s
  | .modreset a => Sys2Proof.Machine.execModreset a s
  | .ringStart a => Sys2Proof.Machine.execRingStart a s
  | .ringDisable a => Sys2Proof.Machine.execRingDisable a s
  | .curveSubmit => Sys2Proof.Machine.execCurveSubmit s
  | .attestRequest => Sys2Proof.Machine.execAttestRequest s
  | .commRegister => Sys2Proof.Machine.execCommRegister s
  | .dbgHold a b => Sys2Proof.Machine.execDbgHold a b s
  | .dbgReleaseThaw a => Sys2Proof.Machine.execDbgReleaseThaw a s
  | .dbgReleaseCancel a => Sys2Proof.Machine.execDbgReleaseCancel a s
  | .regWrite a b => Sys2Proof.Machine.execRegWrite a b s
  | .extendedSlotRetrain a => Sys2Proof.Machine.execExtendedSlotRetrain a s
  | .ieee1588TimeLost => Sys2Proof.Machine.execIeee1588TimeLost s
  | .ieee1588TimeGained a => Sys2Proof.Machine.execIeee1588TimeGained a s
  | .cxlMemAccess a => Sys2Proof.Machine.execCxlMemAccess a s
  | .responseReturn a => Sys2Proof.Machine.execResponseReturn a s

end Sys2Proof.Machine
end

