-- ==== Sys2Proof/Machine/Turns.lean ====
section
/-! DEFINITION. Who moves next: a turn of the model is the evaluation of one stream's word, one event of the part, or
one package cycle of the clock (assumption 3). -/

namespace Sys2Proof.Machine

/-- R29, R31 to R33: a stream evaluates the word at its PC. -/
def wordTurn (s : State) (g : Agent) : Out := evalHere Sys2Proof.Machine.exec s g

/-! ### The clock (R20, R21, R85, R109, R269, R307, R327) -/

/-- R109: the counter that counts a cycle of a stall, if one does. -/
def stallCounter : StallStep → Option (Fin 8)
  | .queues => some 2
  | .tokens => some 3
  | .wait => some 4
  | .slip => some 5
  | .rendezvous => some 5
  | .op => none

/-- R85, R109: a cycle passes for a stream of a bank; `issue` says whether it is an issue cycle. -/
def tickStream (issue : Bool) (k : Bank) (t : Stream) : Bank :=
  match (k.st t).run with
  | .stalled why =>
    if (k.st t).suspended then k
    else
      let k := k.modSt t (fun x => { x with stalledFor := x.stalledFor + 1 })
      (match stallCounter why with
       | some i => if issue then k.modRegs t (fun r => countPerf r i) else k
       | none => k)
  | .free | .running | .halted | .stopped => k

/-- A cycle passes for a bank. -/
def tickBank (issue : Bool) (k : Bank) : Bank := tickStream issue (tickStream issue (tickStream issue k .l) .x) .s

/-- R319: the kernels that have run in the banks of a core in the period in progress. -/
def noteRan (s : State) (c : CoreId) : State :=
  let k := getCore s c
  let new := ((k.active.task.map (fun t => (c, BankId.active, t.ctx, t.kinst))).toList
    ++ (k.shadow.task.map (fun t => (c, BankId.shadow, t.ctx, t.kinst))).toList).filter (fun r => !s.bud.cur.ran.contains r)
  if new.isEmpty then s else { s with bud := { s.bud with cur := { s.bud.cur with ran := s.bud.cur.ran ++ new } } }

/-- R310: has a core no task to take? -/
def coreIdle (s : State) (c : CoreId) : Bool :=
  let k := getCore s c
  (getDie s (dieOf c)).st == .up && !(s.ctl.get c).fenced && k.active.task.isNone && k.shadow.task.isNone
    && k.swap == .none && k.work.tile.isEmpty && k.work.engine.isEmpty && k.work.ready.isEmpty

/-- R310: a core without a task to take is noted for the period in progress. -/
def noteIdle (s : State) : State :=
  if s.bud.cur.idle || !allCores.any (coreIdle s) then s
  else { s with bud := { s.bud with cur := { s.bud.cur with idle := true } } }

/-- A cycle passes for a core. -/
def tickCore (s : State) (c : CoreId) : State :=
  let s := settleSpad s c (fun _ => true)
  let k := getCore s c
  if k.active.task.isNone && k.shadow.task.isNone then s
  else
    let issue := issueNow s c
    let s := noteRan s c
    setCore s c { k with active := tickBank issue k.active, shadow := tickBank issue k.shadow }

/-- R21: a die's count advances unless the die is absent or being reset. -/
def tickDie (d : Die) : Die :=
  match d.st with
  | .absent | .resetting => d
  | .up | .gated | .ungating => { d with cycle := d.cycle + 1 }

/-- R269: a cycle passes for an admitted kernel. -/
def tickKernel (m : Nat) (k : Kernel) : Kernel :=
  match k.st with
  | .admitted | .triggered => { k with counter := k.counter + m }
  | .held | .retired => k

/-- One package cycle. -/
def tickTurn (s : State) : State :=
  let m := levelM s.cal.level
  let s := noteIdle (foldAll s allCores tickCore)
  let s := { s with
    dies := s.dies.map tickDie
    disp := { s.disp with kerns := s.disp.kerns.map (tickKernel m) }
    cal := { s.cal with cycle := s.cal.cycle + 1, relock := s.cal.relock - 1, time := s.cal.time.map (· + m)
                        age := s.cal.age + m }
    turn := 0 }
  foldAll s allCores takeCadence

/-! ### The events that are due -/

/-- An event of the part, as what it does: the same function that exec calls for it. -/
abbrev Event := State → Out


/-- Events of a bank. -/
def bankEvents (s : State) (c : CoreId) (b : BankId) : List Event :=
  let k := getBank s c b
  let a := getAux s c b
  let agents := streams.map (fun t => ({ core := c, bank := b, stream := t } : Agent))
  (if a.sb.isEmpty then [] else [execStoreBufferDrain c b])
  ++ (if k.task.isNone then []
      else
        agents.flatMap (fun g =>
          (if (stOf s g).pending.isSome then [execResponseReturn g] else [])
          ++ (if (stOf s g).deferred.isEmpty then [] else [execDeferredFault g])
          ++ (if (stOf s g).watching.isSome then [execWaitaddrWake g] else [])
          ++ (if a.freeze.isSome then [execStreamStop g] else []))
        ++ (List.range 8).flatMap (fun e =>
          if (k.eng.ops.get (Fin.ofNat 8 e)).isEmpty then [] else [execStreamEngineStep c b (Fin.ofNat 8 e)])
        ++ (if s.ms.atomics.isEmpty then [] else (List.range 4).map (fun q => execQueueAtomicResult c b (Fin.ofNat 4 q)))
        ++ (if k.eng.recs.isEmpty then [] else [execMatrixPop c b, execMatrixStep c b])
        ++ [execParkImage c b])

/-- Events of a core. -/
def coreEvents (s : State) (c : CoreId) : List Event :=
  let k := getCore s c
  bankEvents s c .shadow ++ bankEvents s c .active
    ++ (if k.swap = .none then [] else [execShadowBankStart c, execActiveBankResume c])
    ++ (if s.disp.kerns.isEmpty then [] else [execGangBankHold c])
    ++ (if k.work.tile.isEmpty && k.work.engine.isEmpty && k.work.ready.isEmpty then [] else [execShadowSwap c, execTaskDispatch c])
    ++ (if (s.ctl.get c).cap = rungCap s.bud.rung then [] else [execCadenceCapApply c])

/-- Events of a die. -/
def dieEvents (s : State) (d : DieId) : List Event :=
  let k := getDie s d
  (List.range 8).flatMap (fun i => match (k.cp.get (Fin.ofNat 8 i)).ops with
    | [] => []
    | o :: _ => if o.host.isSome && !o.discarded && o.done < o.len then [] else [execCopyPiece d (Fin.ofNat 8 i) []])
    ++ (k.coOps.filter (fun o => !o.finished)).map (fun o => execCollectiveStep d { ctx := o.ctx, handle := o.handle } (.data [] [] [] [] []))
    ++ [execMigratorPage d]
    ++ (if k.st = .gated then [execIslandUngate d] else [])
    ++ (if k.st = .ungating then [execUngateComplete d] else [])
    ++ (if k.st = .up && 2 ≤ s.bud.grade then [execIslandGate d] else [])

/-- Events of a context. -/
def ctxEvents (s : State) (x : CtxId) : List Event :=
  if (getCtx s x).st = .free then []
  else
    let a := getCaux s x
    [execQuiesceComplete x, execWsloadBegin x, execKernelAdmit x]
      ++ a.images.map (fun i => execImageResume x i.slot true)
      ++ a.conts.map (fun k => execContReady x k.slot)

/-- Events of the memory system. -/
def memEvents (s : State) : List Event :=
  s.ms.unplaced.map (fun w => execWriteApply w.id none)
    ++ s.ms.writes.flatMap (fun w => (w.reached.filter (fun d => !w.applied.contains d)).map (fun d => execWriteApply w.id (some d)))
    ++ s.ms.atomics.map (fun r => execAtomicAtHome r.id)
    ++ s.ms.sends.map (fun r => execSendhArrival r.id)
    ++ s.ms.gbars.map (fun r => execGbarCount r.id)
    ++ s.ms.moves.flatMap (fun m => [execMoveCommit m.id, execRepairTimeout m.id])

/-- Events of a host ring: TAIL is read when it has changed (R258). -/
def ringEvents (s : State) (r : Fin 16) : List Event :=
  let g := getRing16 s r
  if g.starting then [lateStart r]
  else if g.st ≠ 1 then []
  else
    (if ofBytes (viewBytes s.ms 8 (hostKey g.rb.toNat) 4) = g.tail.toNat then [] else [execRingTailRead r])
    ++ [execLaunch r, execCtxopen r, execCtxready r, execWsload r, execCtxquiesce r, execCtxrelease r]

/-- Events of a link: what is on its way to it arrives, without errors; the packets that it may send leave, as many as a flit
holds; an idle flit carries an ACK or a NAK that is due (R346, R347). -/
def linkEvents (s : State) (l : LinkId) : List Event :=
  let k := getLink s l
  if !k.st.carries then []
  else
    (if (partner l).any (fun e => !(getLink s e).wire.isEmpty) then [execFlitReceive l none []] else [])
    ++ (let n := Nat.min 15 (sendable s l).length
        if k.replay.isEmpty && n = 0 then [] else [execFlitSend l (Nat.max 1 n)])
    ++ (if k.nakDue || k.ackSent ≠ k.rxNext - 1 then [execFlitSend l 0] else [])
    ++ (if k.buffer.isEmpty then [] else [execLinkAckTimeout l, execReplayTimeout l])

/-- The events that the state itself can make due, in the order in which the model takes them. The others come from
outside the module, or tell what only a measurement can: they stand in the agenda. -/
def ownEvents (s : State) : List Event :=
  [execCurveActivate, execCurveExpire, execPeriodBoundary, execDrainWindowStart, execLevelChange, execRefresh, execSlotEnd, execShedEnd,
    heartbeat, execHeartbeatTimeout, mailboxesDone, evictWithdrawn, strandOne, nodesDone, kernelsDone]
    ++ (dieLinks ++ fabLinks).flatMap (linkEvents s)
    ++ ((List.range 16).map (Fin.ofNat 16)).flatMap (ringEvents s)
    ++ memEvents s
    ++ allDies.flatMap (dieEvents s)
    ++ allCtxs.flatMap (ctxEvents s)
    ++ [execGangReserve]
    ++ (if s.disp.kerns.isEmpty then [] else allCores.map execTileQueueFill)
    ++ allCores.flatMap (coreEvents s)
    ++ s.care.overruns.map (fun o => execOverrunComplete o.1)

/-- R295: the contributions that arrive on a cycle, after the streams' own arrivals and in order of receipt. -/
def lateEvents (s : State) : List Event := s.ms.sends.map (fun r => execRedspArrival r.id)

/-- What an event gives, if it is due. -/
def eventNow (s : State) (e : Event) : Option State :=
  match e s with
  | .next t => some t
  | .fault _ => none
  | .refused _ => none

/-! ### The streams' turns (R20, R81, R84, R327) -/

/-- The stream at a place of the rotation within a cycle: cores in ascending number, the active bank first, L, X, S. -/
def agentAt (i : Nat) : Agent :=
  { core := Fin.ofNat 128 (i / 6), bank := if i / 3 % 2 = 0 then .active else .shadow
    stream := if i % 3 = 0 then .l else if i % 3 = 1 then .x else .s }

/-- May a core's streams advance on this cycle? -/
def coreMoves (s : State) (c : CoreId) : Bool :=
  (getDie s (dieOf c)).st == .up && issueNow s c && s.cal.relock = 0 && !coreStopped s c

/-- What the stream at a place does now: a word, or the resumption of a stalled one, after which it has its turn. -/
def streamNow (s : State) (i : Nat) : Option State :=
  let g := agentAt i
  if !coreMoves s g.core then none
  else if mayEvaluate s g then
    (match wordTurn s g with
     | .next t => some { t with turn := i + 1 }
     | .fault _ => none
     | .refused _ => none)
  else if mayResume (stOf s g) then (eventNow s (execWordResume g)).map (fun t =>
    { t with turn := if (stOf t g).suspended then i + 1 else i })
  else none

/-- The model's own rotation: events that are due, then the streams in turn, then contributions that arrive, after which
no stream moves on that cycle, then a cycle of the clock. -/
def ownTurn (s : State) : State :=
  match (ownEvents s).findSome? (eventNow s) with
  | some t => t
  | none =>
    match ((List.range 768).drop s.turn).findSome? (streamNow s) with
    | some t => t
    | none => match (lateEvents s).findSome? (eventNow s) with
      | some t => { t with turn := 768 }
      | none => tickTurn s

/-- R221: the loader binds a handle of a context: 1 to 4,095, its host range in multiples of 4 KiB. -/
def bindHandle (s : State) (x : CtxId) (h : Handle) : State :=
  if h.n = 0 || h.base % 4096 ≠ 0 || h.len % 4096 ≠ 0 then s
  else modCaux s x (fun a => { a with handles := a.handles.filter (fun k => k.n != h.n) ++ [h] })

/-- R200: the host stores to bytes of its memory, through the host link of bridge die 8. -/
def hostStore (s : State) (cells : List Host.Cell) : State :=
  if s.disp.linkDown then s else enterView s 8 (cells.filter (fun c => hostKey 0 ≤ c.1))

/-- R17, R307: the floor curve is provisioned, at a power of 160 W to 3,000 W. -/
def setFloor (s : State) (power grade : Nat) : State :=
  if power < 160000 || 3000000 < power then s else
  let s := sumTarget s
  noteStep s { s with bud := { s.bud with pfloor := power, gfloor := Nat.min grade 3 } }

/-- The next turn: the head of the agenda, if there is one. -/
def nextTurn (s : State) : Out :=
  match s.agenda with
  | .word g :: rest => wordTurn { s with agenda := rest } g
  | .event i :: rest => Sys2Proof.Machine.exec i { s with agenda := rest }
  | .tick :: rest => .next (tickTurn { s with agenda := rest })
  | .bind x h :: rest => .next (bindHandle { s with agenda := rest } x h)
  | .host cells :: rest => .next (hostStore { s with agenda := rest } cells)
  | .curve bs :: rest => .next (takeCurve { s with agenda := rest } bs)
  | .floor p g :: rest => .next (setFloor { s with agenda := rest } p g)
  | .strike f :: rest =>
    .next (modMs { s with agenda := rest } (fun m => { m with latent := (m.latent ++ [f.toNat]).dedup }))
  | .node id :: rest => .next { s with agenda := rest, boot := { s.boot with node := id } }
  | .silent b :: rest => .next { s with agenda := rest, boot := { s.boot with silent := b } }
  | [] => .next (ownTurn s)

end Sys2Proof.Machine
end

