-- ==== Sys2Proof/Machine/Step.lean ====
section
/-! DEFINITION. One step of the machine, and the placing of an instruction where the next step fetches it. -/

namespace Sys2Proof.Machine

/-- One step: the turn at the head of the agenda, or the next turn of the model's own rotation. -/
def step (s : State) : Host.Outcome State Fault Refusal := nextTurn s

/-- The state whose next step fetches and evaluates the instruction of the given bits, least significant first, with the
bits above them zero. -/
def State.withFetchWord (s : State) (nbits w : Nat) : State :=
  placeInstr s (toBytes (nbits / 8) w ++ List.replicate (64 - nbits / 8) 0)

end Sys2Proof.Machine
end

