-- ==== Sys2Proof/Safety.lean ====
section
/-! DEFINITION. The terms in which claims are made: the canonical form of every memory, the lawful number of leaves, the
states that a run of steps reaches, and when steps 1 to 6 of R33 let a word go on to its own effect. -/

namespace Sys2Proof

open Sys2Proof.Machine

/-- Every memory of a core is in canonical form. -/
def coreMemOk (k : Core) : Prop := Mem.wf k.spad = true ∧ Mem.wf k.acc = true

/-- What a park image holds of a core's memories is in canonical form. -/
def imageMemOk (i : ParkImg) : Prop := Mem.wf i.spad = true ∧ Mem.wf i.acc = true

/-- Every memory of the machine is in canonical form. -/
def memOk (s : State) : Prop :=
  Mem.wf s.ms.mem = true ∧ (∀ c : CoreId, coreMemOk (getCore s c))
    ∧ ∀ x : CtxId, ∀ i ∈ (getCaux s x).images, imageMemOk i

/-- R386: the leaf counter never passes the number of leaves of the identity key. -/
def leavesOk (s : State) : Prop := s.boot.leaf ≤ 32768

/-- The states that steps reach from a state without a fault or a refusal. -/
inductive Reaches : State → State → Prop
  | here (s : State) : Reaches s s
  | step {s t u : State} (h : Sys2Proof.Machine.step s = .next t) (r : Reaches t u) : Reaches s u

/-! ### Words that reach step 7 of R33 -/

/-- The state in which a word stands once steps 3 and 4 have passed: its wait has begun. -/
def begun (s : State) (wait : BitVec 6) : State :=
  match passSlipWait s s.cur wait false with
  | .ok t => t
  | .error t => t

/-- Do steps 3 and 4 of R33 pass? -/
def slipAndWaitPass (s : State) (wait : BitVec 6) (bword : Bool) : Bool :=
  match passSlipWait s s.cur wait bword with
  | .ok _ => true
  | .error _ => false

/-- The tokens that a word's token bits move (R36). -/
def bitTokens (w : WordF) : Tokens := tokensOf w.pbl w.pbr w.pal w.par 0 0 false

/-- Do steps 5 and 6 of R33 pass with a true predicate, in the state after steps 3 and 4? -/
def tokensAndPredicatePass (s : State) (g : Agent) (toks : Tokens) (pidx : Fin 8) (pneg perLane : Bool) : Bool :=
  tokensReady (bankOf s g) g.stream s.cal.cycle toks && !tokensBad (bankOf s g) g.stream toks && !(stOf s g).thaw
    && !predicateBad (bankOf s g) g.stream pidx && ((perLane && g.stream == .x) || predicate (bankOf s g) g.stream pidx pneg)

/-- The stream may evaluate, no deferred fault waits at it (R84, R370), and steps 3 to 6 of R33 pass: the word goes on to
its own effect. `perLane` says that an X word has a lane mask in place of a predicate. -/
def readyWith (wait : BitVec 6) (toks : Tokens) (pidx : Fin 8) (pneg perLane : Bool) (s : State) : Bool :=
  mayEvaluate s s.cur && (stOf s s.cur).deferred.isEmpty && slipAndWaitPass s wait false
    && tokensAndPredicatePass (begun s wait) s.cur toks pidx pneg perLane

/-- `readyWith` for a word of L, X or S. -/
def ready (w : WordF) (perLane : Bool) (s : State) : Bool := readyWith w.wait (bitTokens w) w.pidx w.pneg perLane s

/-- The tokens of a matrix record (R48). -/
def recTokens (r : RecF) : Tokens := tokensOf r.pbl r.pbr r.pal r.par 0 0 false

/-- `readyWith` for a matrix record. -/
def readyRec (r : RecF) (s : State) : Bool := readyWith r.wait (recTokens r) r.pidx r.pneg false s

/-- A B word's state once its stream has arrived (R38). -/
def gathered (s : State) (wait : BitVec 6) : State :=
  match passSlipWait s s.cur wait true with
  | .ok t => modStOf t s.cur (fun x => { x with arrived := true })
  | .error t => t

/-- The three streams of the bank stand at the B word of the evaluating stream, none thawed by QTHAW (R38, R251). -/
def readyB (w : WordF) (s : State) : Bool :=
  let t := gathered s w.wait
  let k := bankOf t s.cur
  let pc := (stOf t s.cur).pc
  mayEvaluate s s.cur && (stOf s s.cur).deferred.isEmpty && slipAndWaitPass s w.wait true
    && hasArrived k.l pc && hasArrived k.x pc && hasArrived k.s pc && !(k.l.thaw || k.x.thaw || k.s.thaw)

/-- The sources of a word can be taken and the queues it pushes have room (R33 step 7, R40, R376). -/
def sourcesOk (s : State) (g : Agent) (srcs : List Operand) (pushes : List (Fin 16 × Nat)) : Bool :=
  match takeSources s g srcs pushes with
  | .ok _ => true
  | .error _ => false

/-- The state that a word of L, X or S leaves when its own effect has given `t` (R33 step 9). -/
def commits (w : WordF) (s t : State) (srcs : List Operand) (next : Option VAddr) : State :=
  commitWord t s.cur (bitTokens w) (popsOf srcs) next 1

end Sys2Proof
end

