-- ==== Sys2Proof/Certificates/Slice0/Obligations.lean ====
section
/-! DEFINITION. The statements for the provers, and the terms they share. -/

namespace Sys2Proof.Claims

open Sys2Proof.Machine

/-! ### Scalar forms -/

/-- Source i of a word, read once its wait has begun. -/
def src (s : State) (w : WordF) (srcs : List Operand) (i : Nat) : Word := scal (begun s w.wait) s.cur w srcs i

/-- A form with one scalar result goes on to its effect: steps 3 to 6 of R33 pass, its sources can be taken, and the
queue it writes, if any, has room. -/
def scalarReady (w : WordF) (srcs : List Operand) (s : State) : Bool :=
  ready w false s && sourcesOk (begun s w.wait) s.cur srcs (dstPush w.dst)

/-- What such a form leaves when its result is v: v at the destination, then the commit of R33 step 9. -/
def scalarLeaves (w : WordF) (srcs : List Operand) (v : Word) (s : State) : State :=
  commits w s (writeScalar (begun s w.wait) s.cur w.dst v) srcs none

/-- 1 where a condition holds, else 0. -/
def truth (b : Bool) : Word := if b then 1 else 0

/-- The forms of R103 of two sources, with their results in the words of R103's table. -/
def twoSources : List ((WordF → Instr) × (WordF → Word → Word → Word)) :=
  [(.add, fun _ a b => a + b),
   (.sub, fun _ a b => a - b),
   (.mul, fun _ a b => a * b),
   (.mulh, fun w a b =>
     let x : BitVec 128 := if w.mod.toNat % 8 = 1 then a.setWidth 128 else a.signExtend 128
     let y : BitVec 128 := if w.mod.toNat % 8 = 0 then b.signExtend 128 else b.setWidth 128
     ((x * y) >>> 64).setWidth 64),
   (.div, fun w a b =>
     if b = 0 then BitVec.allOnes 64 else if w.mod.getLsbD 0 then a / b else a.sdiv b),
   (.rem, fun w a b => if b = 0 then a else if w.mod.getLsbD 0 then a % b else a.srem b),
   (.and, fun _ a b => a &&& b),
   (.or, fun _ a b => a ||| b),
   (.xor, fun _ a b => a ^^^ b),
   (.shl, fun _ a b => a <<< (b &&& 63)),
   (.shr, fun _ a b => a >>> (b &&& 63)),
   (.sra, fun _ a b => a.sshiftRight' (b &&& 63)),
   (.min, fun w a b => if (if w.mod.getLsbD 0 then a.ult b else a.slt b) then a else b),
   (.max, fun w a b => if (if w.mod.getLsbD 0 then a.ult b else a.slt b) then b else a),
   (.set, fun w a b => truth (
     match w.mod.toNat % 8 with
     | 0 => a == b
     | 1 => a != b
     | 2 => a.slt b
     | 3 => b.sle a
     | 4 => a.ult b
     | 5 => b.ule a
     | 6 => b.slt a
     | _ => b.ult a)),
   (.scale, fun w a b => a + b * BitVec.ofNat 64 (2 ^ (w.mod.toNat % 8))),
   (.bfx, fun w a b =>
     let n := (b >>> 8 &&& 63).toNat + 1
     let f : Word := (a >>> (b &&& 63)) &&& (BitVec.allOnes 64 >>> (64 - n))
     if w.mod.getLsbD 0 && f.getLsbD (n - 1) then f ||| ~~~(BitVec.allOnes 64 >>> (64 - n)) else f)]

/-- The forms of R103 of one source. -/
def oneSource : List ((WordF → Instr) × (Word → Word)) :=
  [(.mov, fun a => a),
   (.clz, fun a => a.clz),
   (.popc, fun a => BitVec.ofNat 64 ((List.range 64).countP (fun i => a.getLsbD i)))]

/-- The forms of R103 of three sources. BFI's field is bits p to min(p + w − 1, 63). -/
def threeSources : List ((WordF → Instr) × (Word → Word → Word → Word)) :=
  [(.sel, fun a b c => if c = 0 then b else a),
   (.madd, fun a b c => a * b + c),
   (.bfi, fun a b c =>
     let n := (b >>> 8 &&& 63).toNat + 1
     let m : Word := (BitVec.allOnes 64 >>> (64 - n)) <<< (b &&& 63)
     (c &&& ~~~m) ||| ((a <<< (b &&& 63)) &&& m))]

/-! ### Control -/

/-- R104: a direct target, before its range is checked. -/
def target (s : State) (w : WordF) (o : Operand) : Int :=
  (stOf (begun s w.wait) s.cur).pc.toNat + 16 * offsetOf o

/-- R104: a direct target lies in [0, 2⁵²). -/
def inRange (t : Int) : Bool := 0 ≤ t && t < 2 ^ 52

/-- R104: the condition of BC: on a signed value in L and S, on 64 mask bits in X. -/
def branchTaken (t : Stream) (mod : BitVec 4) (a : Word) : Bool :=
  match t with
  | .x => (match mod.toNat % 4 with
    | 0 => a != 0
    | 1 => a == BitVec.allOnes 64
    | _ => a == 0)
  | _ => (match mod.toNat % 8 with
    | 0 => a == 0
    | 1 => a != 0
    | 2 => a.slt 0
    | 3 => !a.slt 0
    | 4 => (0 : Word).slt a
    | _ => !(0 : Word).slt a)

/-! ### Words that may end the task of their bank -/

/-- What a word of L, X or S leaves when its effect t may have ended the task of its bank: the commit, or nothing more. -/
def commitsUnlessEnded (w : WordF) (s t : State) (srcs : List Operand) : State :=
  if (bankOf t s.cur).task.isNone then t else commits w s t srcs none

/-! ### Vector forms -/

/-- A word of X goes on to its effect: steps 3 to 6 of R33 pass, no error of the vector path is pending (R376), its sources can
be taken and the queues it pushes have room. -/
def vectorReady (w : WordF) (srcs : List Operand) (pushes : List (Fin 16 × Nat)) (perLane : Bool) (s : State) : Bool :=
  ready w perLane s && !(getAux (begun s w.wait) s.cur.core s.cur.bank).datapathBad
    && sourcesOk (begun s w.wait) s.cur srcs pushes

/-- `vectorReady` for a word that rounds by its mode field: no register that a stochastic rounding reads is marked (R69, R376). -/
def roundReady (w : WordF) (srcs : List Operand) (pushes : List (Fin 16 × Nat)) (s : State) : Bool :=
  vectorReady w srcs pushes true s && (srMarked (bankOf (begun s w.wait) s.cur).sregs w.mod.toNat).isNone

/-- What an element-wise form leaves: element i is f of the elements i of the sources, under the word's predicate, with the
flags of the selected elements. -/
def elementsLeave (w : WordF) (srcs : List Operand) (f : Nat → (Nat → Nat) → Nat × Flagset) (s : State) : State :=
  let s1 := begun s w.wait
  let n := EType.width w.etype
  commits w s (putElems s1 s.cur w n ((List.range (2048 / n)).map (fun i =>
    f i (fun k => elemAt (vecSource s1 s.cur w.etype srcs k) n i)))) srcs none

/-- A result in n bits, and whether it was clamped (SATF). -/
def clampInt (sg : Bool) (n : Nat) (x : Int) : BitVec n × Bool :=
  let lo : Int := if sg then -(2 ^ (n - 1) : Nat) else 0
  let hi : Int := if sg then (2 ^ (n - 1) : Nat) - 1 else (2 ^ n : Nat) - 1
  (BitVec.ofInt n (max lo (min hi x)), x < lo || hi < x)

/-- An element as a signed or unsigned integer. -/
def elemInt (sg : Bool) {n : Nat} (a : BitVec n) : Int := if sg then a.toInt else a.toNat

/-- The element-wise integer forms (R117) with their numbers of sources: signedness, width, elements, the result and SATF. -/
def vectorInt : List ((WordF → Instr) × Nat × (Bool → (n : Nat) → BitVec n → BitVec n → BitVec n → BitVec n × Bool)) :=
  [(.vadd, 2, fun _ _ a b _ => (a + b, false)),
   (.vsub, 2, fun _ _ a b _ => (a - b, false)),
   (.vmul, 2, fun _ _ a b _ => (a * b, false)),
   (.vmulh, 2, fun sg n a b _ => (BitVec.ofInt n (elemInt sg a * elemInt sg b / (2 ^ n : Nat)), false)),
   (.vmadd, 3, fun _ _ a b c => (a * b + c, false)),
   (.vsadd, 2, fun sg n a b _ => clampInt sg n (elemInt sg a + elemInt sg b)),
   (.vssub, 2, fun sg n a b _ => clampInt sg n (elemInt sg a - elemInt sg b)),
   (.vand, 2, fun _ _ a b _ => (a &&& b, false)),
   (.vor, 2, fun _ _ a b _ => (a ||| b, false)),
   (.vxor, 2, fun _ _ a b _ => (a ^^^ b, false)),
   (.vandn, 2, fun _ _ a b _ => (a &&& ~~~b, false)),
   (.vshl, 2, fun _ n a b _ => (a <<< (b.toNat % n), false)),
   (.vshr, 2, fun _ n a b _ => (a >>> (b.toNat % n), false)),
   (.vsra, 2, fun _ n a b _ => (a.sshiftRight (b.toNat % n), false)),
   (.vmin, 2, fun sg _ a b _ => (if elemInt sg b < elemInt sg a then b else a, false)),
   (.vmax, 2, fun sg _ a b _ => (if elemInt sg a < elemInt sg b then b else a, false)),
   (.vabs, 1, fun _ _ a _ _ => (if a.toInt < 0 then -a else a, false)),
   (.vneg, 1, fun _ _ a _ _ => (-a, false)),
   (.vclz, 1, fun _ _ a _ _ => (a.clz, false)),
   (.vpopc, 1, fun _ n a _ _ => (BitVec.ofNat n ((List.range n).countP (fun i => a.getLsbD i)), false))]

/-- The forms of R120 that round an exact result once, with their numbers of sources. -/
def vectorRounded : List ((WordF → Instr) × Nat × (Val → Val → Val → Val × Flagset)) :=
  [(.fadd, 2, fun a b _ => addV a b), (.fsub, 2, fun a b _ => addV a b.flip), (.fmul, 2, fun a b _ => mulV a b),
   (.ffma, 3, fun a b c => fmaV a b c), (.ffnma, 3, fun a b c => fmaV a.flip b c), (.fdiv, 2, fun a b _ => divV a b)]

/-- The forms of R120 and R122 that pick or change an operand, exactly and without flags. -/
def vectorExact : List ((WordF → Instr) × Nat × (WordF → Val → Val → Val)) :=
  [(.fmin, 2, fun _ a b => minV a b), (.fmax, 2, fun _ a b => maxV a b), (.fabs, 1, fun _ a _ => a.abs),
   (.fneg, 1, fun _ a _ => a.flip), (.frnd, 1, fun w a _ => roundIntegral (w.mod.toNat % 4) a)]

/-- The functions of R120 and R121 of one f32. -/
def vectorFun : List ((WordF → Instr) × (Val → Fun1)) :=
  [(.fsqrt, fsqrtV), (.fexp, fexpV), (.fexp2, fexp2V), (.flog2, flog2V), (.ftanh, ftanhV)]

/-! ### Atomics -/

/-- R205: the new value, of operand b and, of ACAS, the value c, in the arithmetic of n-bit words, signed or not. -/
def atomicTable (sg : Bool) {n : Nat} (op : AOp) (old b c : BitVec n) : BitVec n :=
  match op with
  | .add => old + b
  | .fadd => BitVec.ofNat n (rn32 (addV (decodeF ffF32 old.toNat) (decodeF ffF32 b.toNat)).1).1
  | .min => if elemInt sg b < elemInt sg old then b else old
  | .max => if elemInt sg old < elemInt sg b then b else old
  | .and => old &&& b
  | .or => old ||| b
  | .xor => old ^^^ b
  | .swp => b
  | .cas => if old = b then c else old
  | .incw => if b ≤ old then 0 else old + 1

end Sys2Proof.Claims

open Sys2Proof Sys2Proof.Machine Sys2Proof.Claims

/-- R103: NOP and the scalar forms of one, two and three sources complete with the result of R103's table at the destination. -/
def Obligations.ScalarForms : Prop :=
  (∀ (w : WordF) (s : State), ready w false s = true → exec (.nop w) s = .next (commits w s (begun s w.wait) [] none))
  ∧ (∀ p ∈ oneSource, ∀ (w : WordF) (s : State), scalarReady w [w.srcA] s = true →
    exec (p.1 w) s = .next (scalarLeaves w [w.srcA] (p.2 (src s w [w.srcA] 0)) s))
  ∧ (∀ p ∈ twoSources, ∀ (w : WordF) (s : State), let srcs := [w.srcA, w.srcB]
    scalarReady w srcs s = true →
    exec (p.1 w) s = .next (scalarLeaves w srcs (p.2 w (src s w srcs 0) (src s w srcs 1)) s))
  ∧ (∀ p ∈ threeSources, ∀ (w : WordF) (s : State), let srcs := [w.srcA, w.srcB, w.srcC]
    scalarReady w srcs s = true →
    exec (p.1 w) s = .next (scalarLeaves w srcs (p.2 (src s w srcs 0) (src s w srcs 1) (src s w srcs 2)) s))

/-- R104: BR, CALL and LBRK move control to PC + 16 × t when it lies in [0, 2⁵²), and raise NOTMAPPED when it does not; CALL
leaves PC + 16 in the link, LBRK zero in its loop counter. RET to the link and BRI to its operand go where Check lets them: an
address of 52 bits aligned to 16; a misaligned one raises ALIGN, one above 52 bits NOTMAPPED. -/
def Obligations.Transfers : Prop :=
  ∀ (w : WordF) (s : State), ready w false s = true →
    let s1 := begun s w.wait
    let t := target s w w.srcA
    let out := wordFault s1 s.cur (flt .notmapped (BitVec.ofInt 64 t)) false false
    (inRange t = true →
      exec (.br w) s = .next (commits w s s1 [] (some (BitVec.ofInt 52 t)))
      ∧ exec (.call w) s = .next (commits w s (setLink s1 s.cur ((stOf s1 s.cur).pc.setWidth 64 + 16)) []
          (some (BitVec.ofInt 52 t)))
      ∧ exec (.lbrk w) s = .next (commits w s (putLc s1 s.cur (lcNo w) 0) [] (some (BitVec.ofInt 52 t))))
    ∧ (inRange t = false → exec (.br w) s = .next out ∧ exec (.call w) s = .next out ∧ exec (.lbrk w) s = .next out)
    ∧ (∀ p ∈ [(Instr.ret w, Operand.reg 31, ([] : List Operand)), (Instr.bri w, w.srcA, [w.srcA])],
      sourcesOk s1 s.cur [p.2.1] [] = true →
      let a := src s w [p.2.1] 0
      (a.toNat % 16 = 0 → a.toNat < 2 ^ 52 → exec p.1 s = .next (commits w s s1 p.2.2 (some (a.setWidth 52))))
      ∧ (a.toNat % 16 ≠ 0 → exec p.1 s = .next (wordFault s1 s.cur (flt .align a 16) false false))
      ∧ (a.toNat % 16 = 0 → 2 ^ 52 ≤ a.toNat → exec p.1 s = .next (wordFault s1 s.cur (flt .notmapped a) false false)))

/-- R104, R105: BC moves control where its condition holds and goes on to the next word where it does not; LOOP moves control
while its counter is above 1, counting down, and else clears it; LOOP.set sets the counter. A target out of range raises
NOTMAPPED where control would move there. -/
def Obligations.ConditionalTransfers : Prop :=
  ∀ (w : WordF) (s : State), ready w false s = true →
    let s1 := begun s w.wait
    (sourcesOk s1 s.cur [w.srcA] [] = true →
      let a := src s w [w.srcA] 0
      exec (.loopSet w) s = .next (commits w s (putLc s1 s.cur (lcNo w) a) [w.srcA] none)
      ∧ (branchTaken s.cur.stream w.mod a = false → exec (.bc w) s = .next (commits w s s1 [w.srcA] none))
      ∧ (branchTaken s.cur.stream w.mod a = true → inRange (target s w w.srcB) = true →
          exec (.bc w) s = .next (commits w s s1 [w.srcA] (some (BitVec.ofInt 52 (target s w w.srcB)))))
      ∧ (branchTaken s.cur.stream w.mod a = true → inRange (target s w w.srcB) = false →
          exec (.bc w) s = .next (wordFault s1 s.cur (flt .notmapped (BitVec.ofInt 64 (target s w w.srcB))) false false)))
    ∧ ((regsOf s1 s.cur).badLc.getLsbD (lcNo w).val = false →
      let v := (regsOf s1 s.cur).lc.get (lcNo w)
      (1 < v.toNat → inRange (target s w w.srcA) = true →
        exec (.loop w) s = .next (commits w s (putLc s1 s.cur (lcNo w) (v - 1)) []
          (some (BitVec.ofInt 52 (target s w w.srcA)))))
      ∧ (1 < v.toNat → inRange (target s w w.srcA) = false →
        exec (.loop w) s = .next (wordFault s1 s.cur (flt .notmapped (BitVec.ofInt 64 (target s w w.srcA))) false false))
      ∧ (v.toNat ≤ 1 → exec (.loop w) s = .next (commits w s (putLc s1 s.cur (lcNo w) 0) [] none)))

/-- R106, R107: TKPUSH and TKPOP move their tokens; QPUSH pushes its copies; QPOP and QPEEK give the head of the queue and QPOP takes it; with .try an empty queue gives
F; QLEN gives the reader the entries it sees and the writer the entries that count against its room. -/
def Obligations.QueueAndTokenForms : Prop :=
  (∀ (w : WordF) (s : State), ∀ p ∈ [(Instr.tkpush w, 1), (Instr.tkpop w, 2)],
    let toks := tokensOf w.pbl w.pbr w.pal w.par p.2 (shortNat w.srcA) (w.mod.getLsbD 0)
    readyWith w.wait toks w.pidx w.pneg false s = true →
      exec p.1 s = .next (commitWord (begun s w.wait) s.cur toks [] none 1))
  ∧ (∀ (w : WordF) (s : State), ready w false s = true →
      let s1 := begun s w.wait
      let g := s.cur
      let q := queueNo w.srcA
      let n := w.mod.toNat % 8 + 1
      let empty := w.mod.getLsbD 0 && queueReader q == g.stream && !boundFor (bankOf s1 g) q g.stream
        && ((bankOf s1 g).q.get q).seen (now s1) == 0
      (sourcesOk s1 g [w.srcA] [(queueNo w.dst, n)] = true →
        exec (.qpush w) s = .next (commits w s (modBankOf s1 g (fun k => pushQ k (queueNo w.dst) (now s1)
          (List.replicate n { val := (src s w [w.srcA] 0).setWidth 2048 }))) [w.srcA] none))
      ∧ (empty = false → scalarReady w [w.srcA] s = true →
        exec (.qpop w) s = .next (scalarLeaves w [w.srcA] (src s w [w.srcA] 0) s))
      ∧ (empty = false → scalarReady w [.queue q true] s = true →
        exec (.qpeek w) s = .next (scalarLeaves w [.queue q true] (src s w [.queue q true] 0) s))
      ∧ (empty = true → scalarReady w [w.srcB] s = true →
        exec (.qpop w) s = .next (scalarLeaves w [w.srcB] (src s w [w.srcB] 0) s)
        ∧ exec (.qpeek w) s = .next (scalarLeaves w [w.srcB] (src s w [w.srcB] 0) s))
      ∧ (scalarReady w [] s = true → queueReader q = g.stream →
        exec (.qlen w) s = .next (scalarLeaves w [] (w64 (((bankOf s1 g).q.get q).seen (now s1))) s))
      ∧ (scalarReady w [] s = true → queueReader q ≠ g.stream → queueWriter q = g.stream →
        exec (.qlen w) s = .next (scalarLeaves w [] (w64 (((bankOf s1 g).q.get q).held (now s1))) s)))

/-- R100, R101, R108, R109, R299, R303, R330: GETS writes the register it names, CYC the die's cycle count, PERF a counter of the
stream, TLGET the counter as the bank sees it and TUNEQ the calendar's word; SETS writes a register that may be written, FPSTAT
and MSTAT only in bits [6:0] and SLIPW at most 65,535, and raises PRIV at any other; SETWT writes a wait-table entry, and
WAITTL completes once the counter has its target. -/
def Obligations.CountsAndRegisters : Prop :=
  (∀ (w : WordF) (s : State), scalarReady w [] s = true →
      let s1 := begun s w.wait
      let g := s.cur
      (sregBad (bankOf s1 g).sregs (sregOf w) = false → exec (.gets w) s = .next (scalarLeaves w [] (readSreg s1 g (sregOf w)) s))
      ∧ (sregBad (bankOf s1 g).sregs (sregOf w) = true →
          exec (.gets w) s = .next (wordFault s1 g (eccRegs (SReg.num (sregOf w))) false false))
      ∧ exec (.cyc w) s = .next (scalarLeaves w [] (getDie s1 (dieOf g.core)).cycle s)
      ∧ exec (.perf w) s = .next (scalarLeaves w [] ((regsOf s1 g).perf.get (Fin.ofNat 8 (shortNat w.srcA))) s)
      ∧ exec (.tlget w) s = .next (scalarLeaves w [] (tlValue s1 g.core g.bank (tlNo w.srcA)) s)
      ∧ exec (.tuneq w) s = .next (scalarLeaves w [] (tuneq s1) s))
  ∧ (∀ (w : WordF) (s : State), ready w false s = true →
      let s1 := begun s w.wait
      let g := s.cur
      sourcesOk s1 g [w.srcB] [] = true →
      let v := src s w [w.srcB] 0
      let put (f : BankSregs → BankSregs) := modBankOf s1 g (fun k => { k with sregs := f (clearSreg k.sregs (sregOf w)) })
      (sregOf w = .fpstat → exec (.sets w) s = .next (commits w s (put (fun x => { x with fpstat := v &&& 0x7F })) [w.srcB] none))
      ∧ (sregOf w = .mstat → exec (.sets w) s = .next (commits w s (put (fun x => { x with mstat := v &&& 0x7F })) [w.srcB] none))
      ∧ (sregOf w = .srseed → exec (.sets w) s = .next (commits w s (put (fun x => { x with srseed := v })) [w.srcB] none))
      ∧ (sregOf w = .xsrpos → exec (.sets w) s = .next (commits w s (put (fun x => { x with xsrpos := v })) [w.srcB] none))
      ∧ (sregOf w = .msrpos → exec (.sets w) s = .next (commits w s (put (fun x => { x with msrpos := v })) [w.srcB] none))
      ∧ (sregOf w = .slipw → ∃ t, exec (.sets w) s = .next (commits w s t [w.srcB] none)
          ∧ (bankOf t g).sregs.slipw = (if 65535 < v.toNat then 65535 else v))
      ∧ (SReg.writable (sregOf w) = false →
          exec (.sets w) s = .next (wordFault s1 g (flt .priv 0 0x081) false false))
      ∧ exec (.setwt w) s = .next (commits w s (modRegsOf s1 g (fun r => { r with
          wt := vset r.wt (Fin.ofNat 8 (w.mod.toNat % 8)) { ctr := BitVec.ofNat 5 (Tl.id (tlNo w.srcA)), target := v }
          badWt := r.badWt &&& ~~~((1 : BitVec 8) <<< (w.mod.toNat % 8)) })) [w.srcB] none)
      ∧ (v.toNat ≤ (tlValue s1 g.core g.bank (tlNo w.srcA)).toNat →
          exec (.waittl w) s = .next (commits w s s1 [w.srcB] none))
      ∧ ((tlValue s1 g.core g.bank (tlNo w.srcA)).toNat < v.toNat →
          exec (.waittl w) s = .next (stallAt s1 g .queues 6)))

/-- R374, R375: TRAP and BRK raise TRAPSW with the code in AUX and the value in DETAIL; BRK sets flag bit 2. That entry is
their whole effect: the word does not commit. -/
def Obligations.SoftwareTraps : Prop :=
  ∀ (w : WordF) (s : State), ready w false s = true →
    let s1 := begun s w.wait
    let srcs := if w.mod.getLsbD 0 then [w.srcB] else []
    sourcesOk s1 s.cur srcs [] = true →
    let f (b : BitVec 8) : FaultInfo :=
      { code := .trapsw, detail := src s w srcs 0, aux := trapCode w.srcA, flags := b }
    exec (.trap w) s = .next (wordFault s1 s.cur (f 0) false false)
    ∧ exec (.brk w) s = .next (wordFault s1 s.cur (f 4) false false)

/-- R293 to R296, R301: BARINIT opens a barrier that is idle, BARARR drains the store buffer, arrives where the count has room
and its place in the order of the cycle has not been overtaken, and completes the phase with its last arrival, BARTRY reads the barrier; a barrier that the bank may not use raises PROT at each. -/
def Obligations.NamedBarriers : Prop :=
  ∀ (w : WordF) (s : State), ready w false s = true →
    let s1 := begun s w.wait
    let g := s.cur
    let bar (n : Fin 32) := (getCore s1 g.core).nb.get n
    (sourcesOk s1 g [w.srcA] [] = true → nbAllowed s1 g.core g.bank (nbNo w.dst).val = true →
      let a := src s w [w.srcA] 0
      1 ≤ a.toNat → a.toNat ≤ 65535 →
      ((bar (nbNo w.dst)).count = 0 ∨ ((bar (nbNo w.dst)).arrivals = 0 ∧ (bar (nbNo w.dst)).held = [])) →
      exec (.barinit w) s = .next (commits w s (openNb s1 g.core (nbNo w.dst) a.toNat) [w.srcA] none))
    ∧ (sourcesOk s1 g [w.srcB] [] = true → nbAllowed s1 g.core g.bank (nbNo w.srcA).val = true →
      let n := nbNo w.srcA
      let a := (src s w [w.srcB] 0).toNat
      1 ≤ a → a ≤ 65535 → arrivesNow s1 (bar n) (arrivalPlace g.stream) = true → (bar n).count ≠ 0 →
      (bar n).arrivals.toNat + a ≤ (bar n).count.toNat →
      let u := markArrival (drainAll s1 g.core g.bank) g n
      let seen := some (u.cal.cycle, arrivalPlace g.stream)
      exec (.bararr w) s = .next (commits w s (settleHeld (modNb u g.core n (fun _ =>
        if (bar n).arrivals.toNat + a = (bar n).count.toNat
        then { bar n with phase := (bar n).phase + 1, arrivals := 0, seen := seen }
        else { bar n with arrivals := BitVec.ofNat 16 ((bar n).arrivals.toNat + a), seen := seen })) g.core n) [w.srcB] none))
    ∧ (sourcesOk s1 g [w.srcB] [] = true → nbAllowed s1 g.core g.bank (nbNo w.srcA).val = true →
      let n := nbNo w.srcA
      let a := (src s w [w.srcB] 0).toNat
      a = 0 ∨ 65535 < a ∨ (arrivesNow s1 (bar n) (arrivalPlace g.stream) = true
        ∧ ((bar n).count = 0 ∨ (bar n).count.toNat < (bar n).arrivals.toNat + a)) →
      exec (.bararr w) s = .next (wordFault s1 g (flt .barrier 0 (w64 n.val)) false false))
    ∧ (sourcesOk s1 g [] (dstPush w.dst) = true →
      (nbAllowed s1 g.core g.bank (nbNo w.srcA).val = true →
        let n := nbNo w.srcA
        exec (.bartry w) s = .next (scalarLeaves w []
          (tryWord (nbCond s1 g n) (bar n).arrivals.toNat (bar n).phase) s))
      ∧ (nbAllowed s1 g.core g.bank (nbNo w.srcA).val = false →
        exec (.bartry w) s = .next (wordFault s1 g (flt .prot 0 4) false false)))
    ∧ (sourcesOk s1 g [w.srcA] [] = true → nbAllowed s1 g.core g.bank (nbNo w.dst).val = false →
      exec (.barinit w) s = .next (wordFault s1 g (flt .prot 0 4) false false))
    ∧ (sourcesOk s1 g [w.srcB] [] = true → nbAllowed s1 g.core g.bank (nbNo w.srcA).val = false →
      exec (.bararr w) s = .next (wordFault s1 g (flt .prot 0 4) false false))

/-- R297, R302, R349: GBARARR drains the store buffer, sends the arrival of the task to bridge die 8 and waits to be answered; GBARTRY reads the group barrier with the
task's own condition; a number above 63 raises BARRIER. -/
def Obligations.GroupBarrierWords : Prop :=
  ∀ (w : WordF) (s : State), ready w false s = true →
    let s1 := begun s w.wait
    let g := s.cur
    let a := src s w [w.srcA] 0
    ∀ t, (bankOf s1 g).task = some t →
    (sourcesOk s1 g [w.srcA] [] = true → ∀ h : a.toNat < 64,
      let u := drainAll s1 g.core g.bank
      exec (.gbararr w) s = .next (pendWord (post (modMs { u with nextId := u.nextId + 1 } (fun m => { m with
        gbars := m.gbars ++ [{ id := u.nextId, agent := g, g := ⟨a.toNat, h⟩, task := t }] }))
        { src := agentDie g, dst := 8, kind := .request u.nextId, ctx := some t.ctx, agent := streamNo g }) g .gbar u.nextId w))
    ∧ (sourcesOk s1 g [w.srcA] (dstPush w.dst) = true → ∀ h : a.toNat < 64,
      exec (.gbartry w) s = .next (scalarLeaves w [w.srcA]
          (let b := (getCaux s1 t.ctx).gb.get ⟨a.toNat, h⟩
           tryWord (gbCond s1 t ⟨a.toNat, h⟩) b.arrivals b.phase) s))
    ∧ (64 ≤ a.toNat → ∀ p ∈ [(Instr.gbararr w, ([] : List (Fin 16 × Nat))), (.gbartry w, dstPush w.dst)],
      sourcesOk s1 g [w.srcA] p.2 = true →
      exec p.1 s = .next (wordFault s1 g (flt .barrier 0 (w64 (64 + a.toNat))) false false))

/-- R195, R249, R250: SPAWN enters its tasks in the pool of its node instance and gives the rank of the first, once what the bank
did before is performed at every die, and waits until then; RENQ touches its target's die and then enters one task in the engine
queue of its target core, and with .try gives 0 at a full queue. -/
def Obligations.SpawnAndRenq : Prop :=
  ∀ (w : WordF) (s : State), ready w false s = true →
    let s1 := begun s w.wait
    let g := s.cur
    (sourcesOk s1 g [w.srcA, w.srcB] (dstPush w.dst) = true →
      let n := (src s w [w.srcA, w.srcB] 0).toNat
      (n ≤ 65536 → n ≤ poolRoom s1 (taskOf s1 g) → releaseReady s1 g .device 0 = true →
        exec (.spawn w) s = .next (commits w s (writeScalar (spawnTasks s1 (taskOf s1 g)
          (spawnFirst s1 (taskOf s1 g)) n (src s w [w.srcA, w.srcB] 1) n) g w.dst (w64 (spawnFirst s1 (taskOf s1 g))))
          [w.srcA, w.srcB] none))
      ∧ (n ≤ 65536 → releaseReady s1 g .device 0 = false → exec (.spawn w) s = .next (stallAt s1 g .op 7)))
    ∧ (let srcs := [w.srcA, w.srcB, w.srcC]
      sourcesOk s1 g srcs (dstPush w.dst) = true → ∀ c, targetCore s1 id (src s w srcs 0) true = .ok c →
      (src s w srcs 2).toNat % 16 = 0 → (src s w srcs 2).toNat < 2 ^ 52 → checkReach s1 (agentDie g) (dieOf c) = .ok () →
      let u := touch s1 (taskOf s1 g).ctx (dieOf c)
      ((getCore s1 c).work.engine.length < 16 → releaseReady u g .device 0 = true →
        exec (.renq w) s = .next (commits w s (writeScalar (renqTask u g c
          (src s w srcs 1) (src s w srcs 2)) g w.dst 1) srcs none))
      ∧ (16 ≤ (getCore s1 c).work.engine.length → w.mod.getLsbD 0 = true →
        exec (.renq w) s = .next (commits w s (writeScalar u g w.dst 0) srcs none)))

/-- R195, R265 to R267, R280, R281, R283: KLAUNCH enters a kernel in HELD with its context's next handle, once what the bank did
before is performed at every die; KWAIT gives what the instance's end has left, once the last operations of its tasks have ended,
and with .try 0xFD before the instance has retired; KCANCEL.kern answers 1 for a handle the context never gave, 2 for an
instance that has retired or that ends, and else cancels every node. -/
def Obligations.KernelWords : Prop :=
  ∀ (w : WordF) (s : State), ready w false s = true →
    let s1 := begun s w.wait
    let g := s.cur
    let me := taskOf s1 g
    (sourcesOk s1 g [] (dstPush w.dst) = true → blockBad s1 g w.srcA 6 = none →
      let r (i : Nat) := blockReg s1 g w.srcA i
      (r 0).toNat % 64 = 0 → (r 3).toNat % 64 = 0 → (r 5) &&& ~~~(0x107FF : Word) = 0 → (r 0).toNat < 2 ^ 52 →
      (r 3).toNat < 2 ^ 52 → heldCount s1 < 4096 → releaseReady s1 g .device 0 = true → afterBad s1 me.ctx (r 4) = false →
      let h := w64 (me.ctx.val + 64 * ((getCaux s1 me.ctx).serial + 1))
      exec (.klaunch w) s = .next (commits w s (writeScalar (modDisp (modCaux s1 me.ctx (fun a =>
        { a with serial := (getCaux s1 me.ctx).serial + 1 })) (fun d => { d with kerns := d.kerns ++ [{
          kinst := h, ctx := me.ctx, image := r 0, argp := r 1, seed := r 2, cpl := r 3, after := r 4
          cvec := (r 5).toNat % 2048, noirq := (r 5).getLsbD 16 }] })) g w.dst h) [] none))
    ∧ (sourcesOk s1 g [w.srcA] (dstPush w.dst) = true →
      let a := src s w [w.srcA] 0
      let ends := (findKern s1 a).isNone && kernBusy s1 a
      (∀ v, ends = false → kwaitValue s1 me a = some v →
        exec (.kwait w) s = .next (commits w s (writeScalar s1 g w.dst v) [w.srcA] none))
      ∧ (ends = false → kwaitValue s1 me a = none → w.mod.getLsbD 0 = true →
        exec (.kwait w) s = .next (commits w s (writeScalar s1 g w.dst 0xFD) [w.srcA] none))
      ∧ (ends = true ∨ (kwaitValue s1 me a = none ∧ w.mod.getLsbD 0 = false) →
        exec (.kwait w) s = .next (stallAt s1 g .queues 6))
      ∧ (everLaunched s1 me.ctx a = false →
        exec (.kcancelKern w) s = .next (commits w s (writeScalar s1 g w.dst 1) [w.srcA] none))
      ∧ (everLaunched s1 me.ctx a = true → findKern s1 a = none →
        exec (.kcancelKern w) s = .next (commits w s (writeScalar s1 g w.dst 2) [w.srcA] none))
      ∧ (∀ k, everLaunched s1 me.ctx a = true → findKern s1 a = some k → k.ending.isSome = true →
        exec (.kcancelKern w) s = .next (commits w s (writeScalar s1 g w.dst 2) [w.srcA] none))
      ∧ (∀ k, everLaunched s1 me.ctx a = true → findKern s1 a = some k → k.ending = none →
        exec (.kcancelKern w) s
          = .next (commitsUnlessEnded w s (cancelKernel (writeScalar s1 g w.dst 0) k) [w.srcA])))

/-- R251, R282, R283: KRETRY, QTHAW and KCANCEL.task answer 1 where no task is frozen under the handle, 2 where its node is
CLOSED, and in the handler of the node 0 with their effect; outside it they raise PRIV. -/
def Obligations.FrozenTaskWords : Prop :=
  ∀ (w : WordF) (s : State), scalarReady w [w.srcA] s = true →
    let s1 := begun s w.wait
    let g := s.cur
    let me := taskOf s1 g
    (frozenTask s1 me.ctx (src s w [w.srcA] 0) = none →
      ∀ i ∈ [Instr.kretry w, Instr.qthaw w, Instr.kcancelTask w], exec i s = .next (scalarLeaves w [w.srcA] 1 s))
    ∧ (∀ f, frozenTask s1 me.ctx (src s w [w.srcA] 0) = some f →
      let k := f.2.1.kinst
      let n := f.2.1.node
      (nodeClosed s1 k n = true →
        ∀ i ∈ [Instr.kretry w, Instr.qthaw w, Instr.kcancelTask w], exec i s = .next (scalarLeaves w [w.srcA] 2 s))
      ∧ (nodeClosed s1 k n = false → handlerOf me k n = true →
        let s2 := writeScalar s1 g w.dst 0
        exec (.kretry w) s = .next (commitsUnlessEnded w s (decideFrozen s2 me.ctx f true) [w.srcA])
        ∧ exec (.qthaw w) s = .next (commitsUnlessEnded w s (decideFrozen s2 me.ctx f false) [w.srcA])
        ∧ exec (.kcancelTask w) s = .next (commitsUnlessEnded w s (cancelNode s2 k n false) [w.srcA]))
      ∧ (nodeClosed s1 k n = false → handlerOf me k n = false →
        ∀ p ∈ [(Instr.kretry w, 0x0CC), (Instr.qthaw w, 0x0CE), (Instr.kcancelTask w, 0x0CD)],
          exec p.1 s = .next (wordFault s1 g (flt .priv 0 (w64 p.2)) false false)))

/-- R195, R252 to R256: a YIELD whose queues and tokens are empty and whose operations are done writes a continuation with its
condition and frees the bank, once what the bank did before is performed at every die. YIELD.nb and YIELD.arr are pinned, the
others as mod[2] says. A queue or token left raises YIELDSTATE at each of the four, as a B word. The place of the continuation
area is the model's choice (log 30, log 45). -/
def Obligations.Yields : Prop :=
  ∀ (w : WordF) (s : State), readyB w s = true →
    let s1 := gathered s w.wait
    let g := s.cur
    let k := bankOf s1 g
    let me := taskOf s1 g
    let ends (cond : ContCond) (pinned : Bool) (n : Nat) : State :=
      let r := yieldRecord s1 g n cond pinned (yieldMask w.srcB)
      freeBank (modCaux (enterAs s1 (dieOf g.core) [] { ctx := some me.ctx, agent := dieAgentNo (dieOf g.core) 11 } (contCells r))
        me.ctx (fun a => { a with conts := a.conts ++ [r] })) g.core g.bank
    let i : Fin 10 := if tlNo w.srcA = .co then 9 else 8
    let v := k.a.l.get (regNo w.srcC)
    let off := k.eng.view.get i
    let vs := (streams.map (fun t => (k.regs t).nb.get (nbNo w.srcA))).filter (·.arrived)
    (fullBits k = 0 → opsOut s1 g = false → releaseReady s1 g .device 0 = true → yieldBad k (yieldMask w.srcB) = none →
      ∀ n, contSlot s1 me.ctx = some n →
      (k.a.badL.getLsbD (regNo w.srcC).val = false →
        exec (.yieldTl w) s = .next (ends (.tl (if i = 9 then 1 else 0)
          (if v.toNat ≤ (dieCounter s1 (dieOf g.core) i + off).toNat then 0 else v - off)) (w.mod.getLsbD 2) n))
      ∧ (nbAllowed s1 g.core g.bank (nbNo w.srcA).val = true →
        exec (.yieldNb w) s = .next (ends (.nb (nbNo w.srcA)
          (lastPhase ((getCore s1 g.core).nb.get (nbNo w.srcA)).phase (vs.map (·.last))) (!vs.isEmpty)) true n))
      ∧ (∀ h : (w64 (shortNat w.srcA)).toNat < 64,
        exec (.yieldGb w) s = .next (ends (.gb ⟨_, h⟩) (w.mod.getLsbD 2) n))
      ∧ exec (.yieldArr w) s = .next (ends .arr true n))
    ∧ (fullBits k ≠ 0 → ∀ p ∈ [(Instr.yieldTl w, !k.a.badL.getLsbD (regNo w.srcC).val),
        (.yieldNb w, nbAllowed s1 g.core g.bank (nbNo w.srcA).val), (.yieldGb w, decide ((w64 (shortNat w.srcA)).toNat < 64)),
        (.yieldArr w, true)],
      p.2 = true → exec p.1 s = .next (wordFault s1 g (flt .yieldstate 0 (w64 (fullBits k))) true true))

/-- R110, R195, R196, R209, R273, R284, R285: SYNC commits the three streams together; a FENCE does when what it waits for has
come, acquiring as its order says, and else waits; KTRIG waits until what the bank did before is performed at every die, and
counts toward the trigger; TEND waits until the bank's operations and posted atomics are done, drains the store buffer, ends the
task and leaves its bank free. -/
def Obligations.BWords : Prop :=
  ∀ (w : WordF) (s : State), readyB w s = true →
    let s1 := gathered s w.wait
    let g := s.cur
    exec (.sync w) s = .next (commitB s1 g)
    ∧ (∀ u, checkFenceMask s1 g w = .ok u → lostDie s1 w.scope (fenceMask s1 g w) = none →
      (fenceReady s1 g w = true → exec (.fence w) s = .next (commitB (fenceAcquire s1 g w) g))
      ∧ (fenceReady s1 g w = false → exec (.fence w) s = .next (pendAll s1 g .fence 0 w)))
    ∧ (releaseReady s1 g .device 0 = true →
       let s2 := modAux s1 g.core g.bank (fun a => { a with ktrig := true })
       let t := countTrigger s2 (taskOf s2 g)
       exec (.ktrig w) s = .next (if (bankOf t g).task.isNone then t else commitB t g))
    ∧ (releaseReady s1 g .device 0 = false → exec (.ktrig w) s = .next (stallAll s1 g .op))
    ∧ (opsOut s1 g = false → postedDone s1 g = true →
      let s2 := drainAll s1 g.core g.bank
      let t := endTask s2 g.core g.bank (taskOf s2 g)
      exec (.tend w) s = .next (if (bankOf t g).task.isNone then t else commitB t g))
    ∧ (opsOut s1 g = true ∨ postedDone s1 g = false → exec (.tend w) s = .next (stallAll s1 g .op))

/-- R139, R140, R143, R144, R206: a load whose access passes its checks gives its destination what its bank sees there: LD and
LDACQ one extended element, which LDACQ.acq acquires (R196), LDQ a raw vector from memory or from the scratchpad, LDQS and GATHQ elements in order. -/
def Obligations.Loads : Prop :=
  ∀ (w : WordF) (s : State), ready w false s = true →
    let s1 := begun s w.wait
    let g := s.cur
    let srcs := [w.srcA, w.srcB]
    let n := elemLen w.etype
    let t := w.etype
    let a := src s w srcs 0 + src s w srcs 1
    sourcesOk s1 g srcs (dstPush w.dst) = true →
    (∀ r, wordLoad s1 g a n n = .ok r →
      exec (.ld w) s = .next (commits w s (writeScalar r.1 g w.dst (extendLoad t (ofBytes r.2))) srcs none))
    ∧ (checkScope s1 g w = .ok () → ∀ c, checkedBy s1 (reqOf s1 g false) a n n = .ok c → scGate s1 g w = .ok () →
      let u := wordServed s1 g [c]
      exec (.ldacq w) s = .next (commits w s (writeScalar (acqRead u g w (keysOf c.parts)) g w.dst
        (extendLoad t (ofBytes (c.bytes u g)))) srcs none))
    ∧ (w.mod.getLsbD 2 = false → ∀ r, wordLoad s1 g a (rawLen t) (rawAlign t) = .ok r →
      exec (.ldq w) s = .next (commits w s (pushVec r.1 g w.dst (rawVec t r.2)) srcs none))
    ∧ (w.mod.getLsbD 2 = true → spadCheck s1 g.core g.bank a (rawLen t) (rawAlign t) true = .ok () →
      exec (.ldq w) s = .next (commits w s
        (pushVec s1 g w.dst (rawVec t (spadSeen s1 g a.toNat (rawLen t)))) srcs none))
    ∧ (∀ r, wordAccesses s1 g false n (strideAddrs t (src s w srcs 0) (src s w srcs 1)) = .ok r →
      exec (.ldqs w) s = .next (commits w s (pushVec r.1 g w.dst (vecOf (EType.width t)
        (r.2.map (fun ks => ofBytes (readKeys r.1 (bufferOf r.1 g) (dieOf g.core) ks))))) srcs none))
    ∧ (∀ r, indexedAccess s1 g false t (indexAddrs t (src s w srcs 0) (whole s1 g srcs 1)) = .ok r →
      exec (.gathq w) s = .next (commits w s (pushVec r.1 g w.dst (vecOf (EType.width t)
        (r.2.map (fun ks => ofBytes (readKeys r.1 (bufferOf r.1 g) (dieOf g.core) ks))))) srcs none))

/-- R139, R140, R143, R144, R194, R207: a store whose access passes its checks enters its bank's store buffer and commits, that
of several units in two parts that free values choose, or goes to the scratchpad under .sp; STREL does so once its release has come, and else waits. -/
def Obligations.Stores : Prop :=
  ∀ (w : WordF) (s : State), ready w false s = true →
    let s1 := begun s w.wait
    let g := s.cur
    let srcs := [w.srcA, w.srcB, w.srcC]
    let n := elemLen w.etype
    let t := w.etype
    let a := src s w srcs 0 + src s w srcs 1
    let v := whole s1 g srcs 2
    (sourcesOk s1 g srcs [] = true →
      (∀ r, wordStore s1 g a (toBytes n (src s w srcs 2).toNat) n = .ok r → exec (.st w) s = .next (commits w s r srcs none))
      ∧ (w.mod.getLsbD 2 = false → ∀ r, wordAccess s1 g true a (rawBytes t v).length (rawAlign t) = .ok r →
        exec (.stq w) s = .next (commits w s (bufferUnits r.1 g.core g.bank (unitLen t) (keyCells r.2 (rawBytes t v)))
          srcs none))
      ∧ (w.mod.getLsbD 2 = true → spadCheck s1 g.core g.bank a (rawLen t) (rawAlign t) false = .ok () →
        exec (.stq w) s = .next (commits w s (spadWrite s1 g.core (some g) (unitLen t) a.toNat (rawBytes t v)) srcs none))
      ∧ (∀ r, wordAccesses s1 g true n (strideAddrs t (src s w srcs 0) (src s w srcs 1)) = .ok r →
        exec (.stqs w) s = .next (commits w s (bufferUnits r.1 g.core g.bank (unitLen t) (elemCells t r.2 v)) srcs none))
      ∧ (∀ r, indexedAccess s1 g true t (indexAddrs t (src s w srcs 0) (whole s1 g srcs 1)) = .ok r →
        exec (.scatq w) s = .next (commits w s (bufferUnits r.1 g.core g.bank (unitLen t) (elemCells t r.2 v)) srcs none)))
    ∧ (sourcesOk s1 g [w.srcA, w.srcB] [] = true → checkScope s1 g w = .ok () →
      ∀ r, wordStore s1 g (src s w [w.srcA, w.srcB] 0) (toBytes n (src s w [w.srcA, w.srcB] 1).toNat) n = .ok r →
        (releaseReady s1 g w.scope (wordMask s1 g w) = true → w.order ≠ .sc →
          exec (.strel w) s = .next (commits w s r [w.srcA, w.srcB] none))
        ∧ (releaseReady s1 g w.scope (wordMask s1 g w) = true → w.order = .sc →
          exec (.strel w) s = .next (pendWord r g .storeSc 0 w))
        ∧ (releaseReady s1 g w.scope (wordMask s1 g w) = false → exec (.strel w) s = .next (pendWord s1 g .release 0 w)))

/-- R141, R142: LDQ.dec decodes 64 elements of the page's format to f32 and STQ.enc encodes 64: of a plain format, of an MX
format with the two scale bytes of its blocks, of NQ4 with its record's super-scale and the block's scale byte. The
companion area is accessed with the permission of the page itself; that LDQ.dec accesses a whole NQ4 record is the model's
choice (log 68). -/
def Obligations.DecodedAccesses : Prop :=
  ∀ (w : WordF) (s : State), ready w false s = true →
    let s1 := begun s w.wait
    let g := s.cur
    let sg := w.mod.getLsbD 1
    let sat := w.mod.getLsbD 2
    let m : Rnd := if sg then .rz else .rne
    let lsrcs := [w.srcA, w.srcB]
    let ssrcs := [w.srcA, w.srcB, w.srcC]
    let la := src s w lsrcs 0 + src s w lsrcs 1
    let sa := src s w ssrcs 0 + src s w ssrcs 1
    let vs := (elemsOf 32 (whole s1 g ssrcs 2)).map (decodeF ffF32)
    (sourcesOk s1 g lsrcs (dstPush w.dst) = true →
      ∀ f c, fmtAccess s1 (reqOf s1 g false) la (fun f => 1 ≤ f && f ≤ 10 && (!sg || f = 8 || f = 9)) = .ok (f, c) →
      let code (j : Nat) := ofBytes (c.bytes s1 g) / 2 ^ (fmtBits f * j) % 2 ^ fmtBits f
      (isMxCode f = false → f ≠ 10 →
        exec (.ldqDec w) s = .next (commits w s (pushVec (wordServed s1 g [c]) g w.dst (vecOf 32 ((List.range 64).map (fun j =>
          (rn32 (codeVal f sg (code j))).1)))) lsrcs none))
      ∧ (isMxCode f = true → ∀ k0 k1, companion s1 g false (scaleAddrs c.parts f la.toNat).1 1 = .ok k0 →
        companion s1 g false (scaleAddrs c.parts f la.toNat).2 1 = .ok k1 →
        exec (.ldqDec w) s = .next (commits w s (pushVec (wordServed s1 g [c, k0, k1]) g w.dst (vecOf 32 ((List.range 64).map (fun j =>
          (rn32 (mxVal (codeFloat f) (ofBytes ((if j < 32 then k0 else k1).bytes s1 g)) (code j))).1)))) lsrcs none))
      ∧ (f = 10 → ∀ r sup k, companion s1 g false (companionAt (leafFor c.parts la.toNat) f la.toNat) 264 = .ok r →
        nq4Record s1 (r.bytes s1 g) la.toNat = .ok (sup, k) →
        let b := ofBytes (((r.bytes s1 g).drop (8 + k)).take 1)
        exec (.ldqDec w) s = .next (commits w s (pushVec (wordServed s1 g [c, r]) g w.dst (vecOf 32 ((List.range 64).map (fun j =>
          (rn32 (nq4Val b (nq4Scale b sup) (code j))).1)))) lsrcs none)))
    ∧ (sourcesOk s1 g ssrcs [] = true → ∀ f c, fmtAccess s1 (reqOf s1 g true) sa (encOk sat) = .ok (f, c) →
      let put (t : State) (codes : List Nat) : State :=
        bufferUnits t g.core g.bank 4 (keyCells (keysOf c.parts) (toBytes (dec64Len f) (ofElems (fmtBits f) codes)))
      (f = 1 → exec (.stqEnc w) s = .next (commits w s (put (wordServed s1 g [c]) (vs.map (fun v => (rn32 v).1))) ssrcs none))
      ∧ (f = 2 ∨ f = 3 → exec (.stqEnc w) s
          = .next (commits w s (put (wordServed s1 g [c]) (vs.map (fun v => (roundF (codeFloat f) m sat false v).1))) ssrcs none))
      ∧ (isMxCode f = true → ∀ k0 k1, companion s1 g true (scaleAddrs c.parts f sa.toNat).1 1 = .ok k0 →
        companion s1 g true (scaleAddrs c.parts f sa.toNat).2 1 = .ok k1 →
        let x0 := mxEncode (mxType f) (fun _ => m) (vs.take 32)
        let x1 := mxEncode (mxType f) (fun _ => m) (vs.drop 32)
        exec (.stqEnc w) s = .next (commits w s (bufferUnits (put (wordServed s1 g [c, k0, k1]) (x0.2.1 ++ x1.2.1)) g.core g.bank 4
          (keyCells (keysOf k0.parts ++ keysOf k1.parts) (toBytes 1 x0.1 ++ toBytes 1 x1.1))) ssrcs none))
      ∧ (let at_ := companionAt (leafFor c.parts sa.toNat) f sa.toNat
         f = 10 → ∀ r k, companion s1 g false at_ 4 = .ok r → companion s1 g true (at_ + 8 + nq4Block sa.toNat) 1 = .ok k →
         let x := nq4Encode (decodeF ffF32 (ofBytes (r.bytes s1 g))) (fun _ => m) vs
         exec (.stqEnc w) s = .next (commits w s (bufferStore (put (wordServed s1 g [c, r, k]) x.2.1) g.core g.bank
           (keyCells (keysOf k.parts) (toBytes 1 x.1))) ssrcs none)))

/-- R155, R156, R208: PREF completes with the homes of its pages touched; ZERO drains the buffer and zeroes its range in the
view; CLEAN and INVAL complete once no store to their lines is still to reach its home, and wait until then; WAITADDR completes with the value that meets its condition, and
else waits at its line. -/
def Obligations.WaitsAndMaintenance : Prop :=
  ∀ (w : WordF) (s : State), ready w false s = true →
    let s1 := begun s w.wait
    let g := s.cur
    let srcs := [w.srcA, w.srcB, w.srcC]
    (sourcesOk s1 g srcs [] = true →
      (src s w srcs 2 = 0 → exec (.pref w) s = .next (commits w s s1 srcs none))
      ∧ (let a := (src s w srcs 0 + src s w srcs 1).toNat
         let c := Nat.min (src s w srcs 2).toNat 1048576
         c ≠ 0 → exec (.pref w) s = .next (commits w s (foldAll s1 (spanBlocks 4096 258 (a / 128 * 128)
           ((a + c + 127) / 128 * 128 - a / 128 * 128)) (fun t p => prefetchPage t (reqOf s1 g false) p.1 p.2)) srcs none))
      ∧ (∀ l, lineRange s1 g w srcs = .ok l →
        (∀ r, lineAccess s1 g true l.1 l.2 = .ok r →
          exec (.zero w) s = .next (commits w s (let t := drainAll r.1 g.core g.bank
            engineStore t g.core g.bank (bankOrigin t g.core g.bank (streamNo g) false) 4 (r.2.filterMap (fun k => k.map (fun a => (a, (0 : Byte)))))) srcs none))
        ∧ (∀ r, lineAccess s1 g false l.1 l.2 = .ok r → ∀ i ∈ [Instr.clean w, Instr.inval w],
          (lineDirty s1 g r.2 = false → exec i s = .next (commits w s r.1 srcs none))
          ∧ (lineDirty s1 g r.2 = true → exec i s = .next (stallAt s1 g .op 7)))))
    ∧ (let ws := [w.srcA, w.srcB]
      let n := elemLen w.etype
      sourcesOk s1 g ws (dstPush w.dst) = true →
      ∀ r, wordAccess s1 g false (src s w ws 0) n n = .ok r →
      let x := ofBytes (readKeys r.1 (bufferOf r.1 g) (dieOf g.core) r.2)
      let met := waitCond (w.mod.toNat % 8) (EType.width w.etype) x ((src s w ws 1).toNat % 2 ^ EType.width w.etype)
      let line := (src s w ws 0).toNat / 128 * 128
      (met = true → checkScope s1 g w = .ok () → scGate s1 g w = .ok () →
        exec (.waitaddr w) s = .next (commits w s (writeScalar (acqRead r.1 g w r.2) g w.dst (extendLoad w.etype x)) ws none))
      ∧ (met = false → exec (.waitaddr w) s = .next (stallAt (watchLine s1 g line) g .queues 6)
        ∧ (stOf (watchLine s1 g line) g).watching
            = some { line := line, bytes := lineBytes s1 g line, since := s1.cal.cycle }))

/-- R145, R148, R150, R152, R154: a word of a stream engine whose descriptor is in range is accepted where its engine has
room: the operation takes the engine's next number and stands last among the engine's operations. -/
def Obligations.EngineAcceptance : Prop :=
  ∀ (w : WordF) (s : State), ready w false s = true →
    let s1 := begun s w.wait
    let g := s.cur
    let e := engNo g w.mod.toNat
    let eng := (bankOf s1 g).eng
    let q (o : Operand) : Fin 16 := (Operand.queue? o).getD 0
    let d (o : Operand) (i : Nat) := descReg s1 g o i
    let accepts (i : Instr) (o : EngOp) : Prop :=
      ∃ t, exec i s = .next (commits w s t [] none)
        ∧ (bankOf t g).eng.ops.get e = eng.ops.get e ++ [{ o with num := eng.issued.get (engTl e) + 1 }]
        ∧ (bankOf t g).eng.issued.get (engTl e) = eng.issued.get (engTl e) + 1
    (eng.ops.get e).length < 4 →
    (checkBind s1 g e (q w.dst) true = .ok () → ∀ o,
      (checkDesc s1 g w.srcA 3 = .ok () → affineOp .strm w.etype (q w.dst) false (d w.srcA) = some o → accepts (.strm w) o)
      ∧ (checkDesc s1 g w.srcA 5 = .ok () → affineOp .strm w.etype (q w.dst) true (d w.srcA) = some o → accepts (.strmx w) o))
    ∧ (checkBind s1 g e (q w.srcB) false = .ok () → ∀ o,
      (checkDesc s1 g w.srcA 3 = .ok () → affineOp .drn w.etype (q w.srcB) false (d w.srcA) = some o → accepts (.drn w) o)
      ∧ (checkDesc s1 g w.srcA 5 = .ok () → affineOp .drn w.etype (q w.srcB) true (d w.srcA) = some o → accepts (.drnx w) o))
    ∧ (checkDesc s1 g w.srcA 4 = .ok () → ∀ r v kx, getRing s1 g.core g.bank (ringNo w.dst) = some r →
      extReg (d w.srcA 3) = some (v, kx) →
      ((d w.srcA 0).toNat % 1024 = 0 → (d w.srcA 1).toNat < 2 ^ 32 → (d w.srcA 2).toNat % 1024 = 0 →
        (r.kind = .d → d w.srcA 3 = 0) →
        accepts (.rfill w) { form := .rfill, num := 0, ring := (ringNo w.dst).val, base := d w.srcA 0
                             c0 := (d w.srcA 1).toNat, s0 := d w.srcA 2, v := v, kx := kx, c1 := 1 })
      ∧ (checkBind s1 g e (q w.srcB) false = .ok () → r.kind = .a → (d w.srcA 1).toNat % 16 = 0 →
        (d w.srcA 2).toNat < 2 ^ 32 → v = 0 →
        accepts (.rfillg w) { form := .rfillg, num := 0, q := (q w.srcB).val, ring := (ringNo w.dst).val
                              base := d w.srcA 0, s0 := d w.srcA 1, c0 := (d w.srcA 2).toNat, v := 128, kx := kx, c1 := 1 }))
    ∧ (checkDesc s1 g w.srcB 3 = .ok () → ∀ r, getRing s1 g.core g.bank (ringNo w.srcA) = some r →
      (d w.srcB 0).toNat % 1024 = 0 → (d w.srcB 1).toNat < 2 ^ 32 → (d w.srcB 2).toNat % 1024 = 0 →
      accepts (.rdrain w) { form := .rdrain, num := 0, ring := (ringNo w.srcA).val, base := d w.srcB 0
                            c0 := (d w.srcB 1).toNat, s0 := d w.srcB 2, c1 := 1 })

/-- R149, R153: RINIT makes the ring that its registers describe, empty, once nothing accepted names it; RDROP drops panels
from the head, and waits while they are not there. A ring that is not initialised raises RING. -/
def Obligations.RingWords : Prop :=
  ∀ (w : WordF) (s : State), ready w false s = true →
    let s1 := begun s w.wait
    let g := s.cur
    let eng := (bankOf s1 g).eng
    (checkDesc s1 g w.srcA 2 = .ok () → ∀ r, ringDesc (descReg s1 g w.srcA 0) (descReg s1 g w.srcA 1) = .ok r →
      (g.bank = .active ∨ spadAllReserved r.base (r.slots * r.slotBytes) = true) →
      opNames eng (ringNo w.dst) = false → recNames eng (ringNo w.dst) = false →
      exec (.rinit w) s = .next (commits w s (setRing s1 g.core g.bank (ringNo w.dst) r) [] none)
      ∧ r.held = 0)
    ∧ (sourcesOk s1 g [w.srcB] [] = true →
      let n := ringNo w.srcA
      let b := (src s w [w.srcB] 0).toNat
      (∀ r, eng.rings.get n = some r → b ≤ r.slots →
        (recNames eng n = false → b ≤ r.held →
          exec (.rdrop w) s = .next (commits w s (setRing s1 g.core g.bank n (r.popN b)) [w.srcB] none))
        ∧ (r.held < b → exec (.rdrop w) s = .next (stallAt s1 g .op 7)))
      ∧ (eng.rings.get n = none →
        exec (.rdrop w) s = .next (wordFault s1 g (ringFault n (w64 n.val)) false false)))

/-- R203 to R205: each atomic form whose access passes its checks sends its request with its operation: the register form
waits for the result, the posted form commits, and the queue form is accepted by its engine and commits. -/
def Obligations.Atomics : Prop :=
  ∀ (w : WordF) (s : State), ready w false s = true →
    let s1 := begun s w.wait
    let g := s.cur
    ∀ p ∈ [(Instr.aadd w, AOp.add), (.afadd w, .fadd), (.amin w, .min), (.amax w, .max), (.aand w, .and), (.aor w, .or),
      (.axor w, .xor), (.aswp w, .swp), (.acas w, .cas), (.aincw w, .incw)],
    let op := p.2
    let srcs := atomicSources w op
    let va := scal s1 g w srcs 0
    let sends (t : State) (l : Leaf) (num : Word) : State :=
      let t := { t with nextId := t.nextId + 1 }
      pushAtomic t (atomicReq t g w op l va (t.nextId - 1) num)
    sourcesOk s1 g srcs [] = true → (op = .cas → checkDesc s1 g w.srcB 2 = .ok ()) → checkScope s1 g w = .ok () →
    ∀ r, atomicAccess s1 g va (elemLen w.etype) = .ok r →
      (atomicForm w = .reg → exec p.1 s = .next (pendWord (sends r.1 r.2 0) g .atomic r.1.nextId w))
      ∧ (atomicForm w = .posted → exec p.1 s = .next (commits w s (sends r.1 r.2 0) srcs none))
      ∧ (∀ k q t, atomicForm w = .queue k → Operand.queue? w.dst = some q → checkBind s1 g (engNo g k.val) q true = .ok () →
        acceptEng r.1 g (engNo g k.val) { form := .qatomic, num := 0, q := q.val, c0 := 1, c1 := 1 } = .ok t →
        exec p.1 s = .next (commits w s
          (sends t r.2 ((bankOf r.1 g).eng.issued.get (engTl (engNo g k.val)) + 1)) srcs none))

/-- R157 to R160, R349: SENDH and REDSP whose checks pass drain the store buffer and send their payload to the core that takes it,
and the word waits for the acknowledgement. -/
def Obligations.Deliveries : Prop :=
  ∀ (w : WordF) (s : State), ready w false s = true →
    let s1 := begun s w.wait
    let g := s.cur
    let task := taskOf s1 g
    let sends (c : CoreId) (off : Nat) (v : Vec) (red : Option (Nat × Nat × Bool × EType)) (h : Word) : State :=
      let d := dieOf (deliveryCore s1 task.ctx c)
      let t := drainAll (touch s1 task.ctx d) g.core g.bank
      pendWord (postRequest (modMs { t with nextId := t.nextId + 1 } (fun m => { m with sends := m.sends ++ [{
        id := t.nextId, agent := g, task := task, target := c, off := off, data := v, red := red, h := h
        at_ := if d = agentDie g then some d else none }] })) g task.ctx t.nextId d) g .send t.nextId w
    (let srcs := [w.srcA, w.srcB, w.srcC]
     let h := src s w srcs 1
     sourcesOk s1 g srcs [] = true → sendWaits s1 task.ctx (src s w srcs 0) = .ok () →
     ∀ c d, targetCore s1 (deliveryCore s1 task.ctx) (src s w srcs 0) false = .ok c →
     checkReach s1 (agentDie g) (dieOf (deliveryCore s1 task.ctx c)) = .ok () →
     deliveryTo s1 task.ctx c (src s w srcs 0) = .ok d → h.toNat % 16 = 0 → h.toNat < 2 ^ 52 →
     0x340000 ≤ d.2 → d.2 < 0x380000 → spadAllowed s1 d.1 .active d.2 256 = true →
     exec (.sendh w) s = .next (sends c d.2 (whole s1 g srcs 2) none h))
    ∧ (let srcs := [w.srcA, w.srcB]
     let n := nbNo w.srcC
     sourcesOk s1 g srcs [] = true → sendWaits s1 task.ctx (src s w srcs 0) = .ok () →
     ∀ c d, targetCore s1 (deliveryCore s1 task.ctx) (src s w srcs 0) false = .ok c →
     checkReach s1 (agentDie g) (dieOf (deliveryCore s1 task.ctx c)) = .ok () →
     deliveryTo s1 task.ctx c (src s w srcs 0) = .ok d → spadAllowed s1 d.1 .active d.2 256 = true →
     nbAllowed s1 d.1 .active n.val = true →
     exec (.redsp w) s = .next (sends c d.2 (whole s1 g srcs 1)
       (some (n.val, w.mod.toNat % 4, w.mod.getLsbD 2, w.etype)) 0))

/-- R225 to R230: CPY, CPYH, MIGR and PGZERO whose descriptors are in range are accepted where their engine takes them; PIN and
UNPIN set and clear the pin of their pages; TLBINV of a context that may use it drops the range from the dies of its scope, and
raises PRIV for any other. -/
def Obligations.PageWords : Prop :=
  ∀ (w : WordF) (s : State), ready w false s = true →
    let s1 := begun s w.wait
    let g := s.cur
    let d (i : Nat) := descReg s1 g w.srcA i
    let up := w.mod.toNat = 0
    (checkDesc s1 g w.srcA 3 = .ok () → (d 0).toNat % 128 = 0 → (d 1).toNat % 128 = 0 → (d 2).toNat % 128 = 0 →
      (d 2).toNat ≤ 2 ^ 40 → ∀ t, acceptCopy s1 g w (d 0) (d 1) (d 2).toNat none = .ok t →
      exec (.cpy w) s = .next (commits w s t [] none))
    ∧ (checkDesc s1 g w.srcA 4 = .ok () → (d 0).toNat % 128 = 0 → (d 1).toNat < 4096 → (d 1).toNat ≠ 0 →
      (d 2).toNat % 128 = 0 → bits (d 3) 62 40 = 0 → bits (d 3) 39 0 % 128 = 0 →
      ∀ h, findHandle s1 (taskOf s1 g).ctx (BitVec.ofNat 12 (d 1).toNat) = some h →
      (d 2).toNat + bits (d 3) 39 0 ≤ h.len →
      ∀ t, acceptCopy s1 g w (d 0) 0 (bits (d 3) 39 0) (some (BitVec.ofNat 12 (d 1).toNat, (d 2).toNat, bit (d 3) 63)) = .ok t →
      exec (.cpyh w) s = .next (commits w s t [] none))
    ∧ ((d 0).toNat % 65536 = 0 → 1 ≤ (d 1).toNat → (d 1).toNat ≤ 65536 →
      ∀ u, checkStatus s1 g (d 2) (d 1).toNat = .ok u →
      (checkDesc s1 g w.srcA 4 = .ok () → bits (d 3) 63 5 = 0 →
        (if up then bit (d 3) 4 = true ∨ (bits (d 3) 3 0 < 8 ∧ presentNo s1 (bits (d 3) 3 0) = true)
         else bit (d 3) 4 = false ∧ (bits (d 3) 3 0 = 8 ∨ bits (d 3) 3 0 = 9)) →
        ∀ t, acceptMig u g w false (d 0) (d 1).toNat (d 2) (if up then 2 else 3) (bit (d 3) 4) (bits (d 3) 3 0) = .ok t →
        exec (.migr w) s = .next (commits w s t [] none))
      ∧ (checkDesc s1 g w.srcA 3 = .ok () → ∀ t, acceptMig u g w true (d 0) (d 1).toNat (d 2) 0 false 0 = .ok t →
        exec (.pgzero w) s = .next (commits w s t [] none)))
    ∧ (let srcs := [w.srcA, w.srcB]
      let a := src s w srcs 0
      let len := (src s w srcs 1).toNat
      let q := reqOf s1 g false
      sourcesOk s1 g srcs [] = true → a.toNat % 65536 = 0 → a.toNat + len ≤ 2 ^ 52 → a.toNat < 2 ^ 52 → len % 65536 = 0 →
      len ≤ 2 ^ 32 →
      let pages := spanPages 65536 a.toNat len
      let need := pages.map (·.1)
      ∀ xs ps us, forPages (fun (p : Nat × Nat) => checkXlate s1 q need p.1 p.2) pages = .ok xs →
      forPages (checkPerm s1 q) xs = .ok ps → forPages (checkData s1 q need) ps = .ok us →
      (ps.any (pinWaits s1 q.ctx) = false →
        exec (.pin w) s = .next (commits w s (foldAll s1 ps (pinPage true q.ctx)) srcs none))
      ∧ exec (.unpin w) s = .next (commits w s (foldAll s1 ps (pinPage false q.ctx)) srcs none))
    ∧ ((getCtx s1 (taskOf s1 g).ctx).attr.getLsbD 1 = true → checkDesc s1 g w.srcA 3 = .ok () →
      (w.mod.getLsbD 0 = false → (d 0).toNat % 65536 = 0 ∧ 1 ≤ (d 1).toNat ∧ (d 1).toNat ≤ 65536) →
      bits (d 2) 63 6 = 0 → checkScope s1 g w = .ok () → lostDie s1 w.scope (wordMask s1 g w) = none →
      exec (.tlbinv w) s = .next (commits w s (foldAll s1 (scopeDies s1 w.scope (dieOf g.core) (wordMask s1 g w)) (fun t e =>
        invalidateDie t (Fin.ofNat 64 (bits (d 2) 5 0)) (if w.mod.getLsbD 0 then 0 else (d 0).toNat)
          (if w.mod.getLsbD 0 then 2 ^ 52 else (d 0).toNat + 65536 * (d 1).toNat) e)) [] none))
    ∧ ((getCtx s1 (taskOf s1 g).ctx).attr.getLsbD 1 = false →
      exec (.tlbinv w) s = .next (wordFault s1 g (flt .priv 0 0x147) false false))

/-- R360, R361: COLL and DIGEST whose descriptor is in range, on the die that the communicator names, are accepted by the die's
collective engine; a handle that the context does not have makes ALIGN at its register, and .max or .min with b32 ILLOP. -/
def Obligations.CollectiveWords : Prop :=
  ∀ (w : WordF) (s : State), ready w false s = true →
    let s1 := begun s w.wait
    let g := s.cur
    let r (i : Nat) := descReg s1 g w.srcA i
    let h : BitVec 8 := (r 3).setWidth 8
    let comm := findComm s1 (taskOf s1 g).ctx h
    checkDesc s1 g w.srcA 4 = .ok () →
    (let op := w.mod.toNat % 8
     let n := bits (r 2) 31 0
     (r 0).toNat % 256 = 0 → (r 1).toNat % 256 = 0 → 1 ≤ n → n < 2 ^ 31 → bits (r 2) 33 32 ≠ 3 → bits (r 2) 63 34 = 0 →
     (op = 1 → bits (r 2) 33 32 ≠ 0 → exec (.coll w) s = .next (wordFault s1 g (wordIllop (.coll w)) false false))
     ∧ ((op = 1 → bits (r 2) 33 32 = 0) → comm = none → exec (.coll w) s = .next (wordFault s1 g (descFault w 3) false false))
     ∧ (∀ c t, (op = 1 → bits (r 2) 33 32 = 0) → comm = some c → bits (r 3) 63 8 = 0 →
        buffersOk op (r 0) (r 1) (collSizes op c.p n (EType.width w.etype)) = true → commDie c (dieOf g.core) = true →
        acceptColl s1 g w (newColl g op w.etype (r 0) (r 1) n (bits (r 2) 33 32) h) true = .ok t →
        exec (.coll w) s = .next (commits w s t [] none)))
    ∧ ((r 1).toNat ≤ 2 ^ 40 → (r 2).toNat % 8 = 0 →
      (w.mod.getLsbD 0 = true → ∀ c t, comm = some c → bits (r 3) 63 8 = 0 → commDie c (dieOf g.core) = true →
        acceptColl s1 g w (newColl g 3 w.etype (r 0) (r 2) (r 1).toNat 0 h) true = .ok t →
        exec (.digest w) s = .next (commits w s t [] none))
      ∧ (w.mod.getLsbD 0 = false → r 3 = 0 →
        ∀ t, acceptColl s1 g w (newColl g 4 w.etype (r 0) (r 2) (r 1).toNat 0 0) false = .ok t →
        exec (.digest w) s = .next (commits w s t [] none)))

/-- R117: the element-wise integer forms complete with each element as R117's table says, in the arithmetic of the
element's width. -/
def Obligations.VectorIntegerForms : Prop :=
  ∀ p ∈ vectorInt, ∀ (w : WordF) (s : State),
    let srcs := ([w.srcA, w.srcB, w.srcC]).take p.2.1
    vectorReady w srcs (dstPush w.dst) true s = true →
    exec (p.1 w) s = .next (elementsLeave w srcs (fun _ e =>
      let n := EType.width w.etype
      let r := p.2.2 (EType.signed w.etype) n (BitVec.ofNat n (e 0)) (BitVec.ofNat n (e 1)) (BitVec.ofNat n (e 2))
      (r.1.toNat, if r.2 then fSATF else 0)) s)

/-- R119 to R122: the floating-point forms complete with each element the exact result rounded once by the word's mode, the
picked operand, or the class. -/
def Obligations.VectorFloatForms : Prop :=
  ∀ (w : WordF) (s : State),
    let s1 := begun s w.wait
    let g := s.cur
    let ff := fmtOf w.etype
    let d (e : Nat → Nat) (k : Nat) := decodeF ff (e k)
    let mode := w.mod.toNat % 4
    (∀ p ∈ vectorRounded, let srcs := ([w.srcA, w.srcB, w.srcC]).take p.2.1
      roundReady w srcs (dstPush w.dst) s = true →
      exec (p.1 w) s = .next (elementsLeave w srcs (fun i e =>
        let x := p.2.2 (d e 0) (d e 1) (if 2 < p.2.1 then d e 2 else decodeF ff 0)
        let r := roundF ff (xRnd s1 g mode i) false false x.1
        (r.1, x.2 ||| r.2)) s))
    ∧ (∀ p ∈ vectorExact, let srcs := ([w.srcA, w.srcB]).take p.2.1
      vectorReady w srcs (dstPush w.dst) true s = true →
      exec (p.1 w) s = .next (elementsLeave w srcs (fun _ e =>
        ((roundF ff .rne false false (p.2.2 w (d e 0) (if 1 < p.2.1 then d e 1 else decodeF ff 0))).1, 0)) s))
    ∧ (∀ p ∈ vectorFun, roundReady w [w.srcA] (dstPush w.dst) s = true →
      exec (p.1 w) s = .next (elementsLeave w [w.srcA] (fun i e =>
        let x := p.2 (decodeF ffF32 (e 0))
        let r := roundF ffF32 (xRnd s1 g mode i) false x.2.1 x.1
        (r.1, x.2.2 ||| r.2)) s))
    ∧ (vectorReady w [w.srcA] (dstPush w.dst) true s = true →
      exec (.fclass w) s = .next (elementsLeave w [w.srcA] (fun _ e => (2 ^ classOf ff (e 0), 0)) s))
    ∧ (∀ n, vectorReady w [] [] true s = true → srMarked (bankOf s1 g).sregs w.mod.toNat = some n →
      ∀ i ∈ vectorRounded.map (fun p => p.1 w) ++ vectorFun.map (fun p => p.1 w),
        exec i s = .next (wordFault s1 g (eccRegs n) false false))

/-- R123, R124: compares and mask forms complete with their masks under the word's predicate; MPOPC and MFIRST count; VSEL
picks by the mask of srcC. -/
def Obligations.VectorMaskForms : Prop :=
  ∀ (w : WordF) (s : State),
    let s1 := begun s w.wait
    let g := s.cur
    let n := EType.width w.etype
    let sg := EType.signed w.etype
    let two := [w.srcA, w.srcB]
    let one := [w.srcA]
    let m (srcs : List Operand) (i : Nat) := maskSource s1 g srcs i
    let x (i : Nat) := intOf sg n (elemAt (vecSource s1 g w.etype two 0) n i)
    let y (i : Nat) := intOf sg n (elemAt (vecSource s1 g w.etype two 1) n i)
    let u (i : Nat) := decodeF ffF32 (elemAt (vecSource s1 g w.etype two 0) n i)
    let v (i : Nat) := decodeF ffF32 (elemAt (vecSource s1 g w.etype two 1) n i)
    let code := w.mod.toNat % 8
    (vectorReady w two [] true s = true →
      exec (.vcmp w) s = .next (commits w s (putMask s1 g w n (maskOf n (fun i =>
        cmpCond code (x i = y i) (x i < y i) (y i < x i) false))) two none)
      ∧ exec (.fcmp w) s = .next (commits w s (putMask s1 g w n (maskOf n (fun i =>
        cmpCond code (eqV (u i) (v i)) (!eqV (u i) (v i) && ltV (u i) (v i)) (!eqV (u i) (v i) && ltV (v i) (u i))
          ((u i).isNan || (v i).isNan)))) two none)
      ∧ exec (.mand w) s = .next (commits w s (putMask s1 g w 32 (m two 0 &&& m two 1)) two none)
      ∧ exec (.mor w) s = .next (commits w s (putMask s1 g w 32 (m two 0 ||| m two 1)) two none)
      ∧ exec (.mxor w) s = .next (commits w s (putMask s1 g w 32 (m two 0 ^^^ m two 1)) two none))
    ∧ (vectorReady w one [] true s = true →
      exec (.mnot w) s = .next (commits w s (putMask s1 g w 32 (~~~m one 0)) one none)
      ∧ exec (.mset w) s = .next (commits w s (putMask s1 g w 32 (src s w one 0)) one none))
    ∧ (vectorReady w one (dstPush w.dst) true s = true →
      exec (.mpopc w) s = .next (commits w s (putVec s1 g w 32
        (BitVec.ofNat 2048 ((List.range 64).countP (fun i => (m one 0).getLsbD i)))) one none)
      ∧ exec (.mfirst w) s = .next (commits w s (putVec s1 g w 32
        (BitVec.ofNat 2048 (((List.range 64).find? (fun i => (m one 0).getLsbD i)).getD 64))) one none))
    ∧ (let srcs := [w.srcA, w.srcB, w.srcC]
       vectorReady w srcs (dstPush w.dst) true s = true →
       let e (k : Nat) (i : Nat) := let b := elemAt (vecSource s1 g w.etype srcs k) n i
         if w.etype = .e3m2 then b % 64 else b
       exec (.vsel w) s = .next (commits w s (putVec s1 g w n (vecOf n ((List.range (2048 / n)).map (fun i =>
         if selects n (m srcs 2) i then e 0 i else e 1 i)))) srcs none))

/-- R118, R125, R126: VDOT4, CVT, PACK and UNPACK complete with their elements and flags under the word's predicate. -/
def Obligations.VectorConversions : Prop :=
  ∀ (w : WordF) (s : State),
    let s1 := begun s w.wait
    let g := s.cur
    let v (srcs : List Operand) (i : Nat) := vecSource s1 g w.etype srcs i
    let mode := w.mod.toNat % 4
    let sat := w.mod.getLsbD 2
    (let srcs := [w.srcA, w.srcB, w.srcC]
     vectorReady w srcs (dstPush w.dst) true s = true →
     exec (.vdot4 w) s = .next (commits w s (putElems s1 g w 32 ((List.range 64).map (fun i =>
       let x := toSigned 32 (elemAt (dotC s1 g srcs) 32 i) + ((List.range 4).map (fun k =>
         intOf (EType.signed w.etype) 8 (elemAt (v srcs 0) 8 (4 * i + k))
           * intOf (w.mod.getLsbD 0) 8 (elemAt (v srcs 1) 8 (4 * i + k)))).sum
       if w.mod.getLsbD 1 then satRes true 32 x else wrap 32 x))) srcs none))
    ∧ (roundReady w [w.srcA] (dstPush w.dst) s = true →
      let d := (cvtDst w.srcB).getD .e8m0
      let part (p : Nat) := convertPart s1 g w.etype d mode sat p (v [w.srcA] 0)
      exec (.cvt w) s = .next (commits w s (putPart s1 g w (CvtDst.width d) (part (fieldOf w.srcC)).1 (part (fieldOf w.srcC)).2)
        [w.srcA] none)
      ∧ exec (.unpack w) s = .next (commits w s (putPart s1 g w (CvtDst.width d)
        (part (if w.mod.getLsbD 3 then 1 else 0)).1 (part (if w.mod.getLsbD 3 then 1 else 0)).2) [w.srcA] none))
    ∧ (let srcs := [w.srcA, w.srcB]
       let d := (cvtDst w.srcC).getD .e8m0
       let n := 2048 / EType.width w.etype
       roundReady w srcs (dstPush w.dst) s = true →
       exec (.pack w) s = .next (commits w s (putPart s1 g w (CvtDst.width d) 0 ((List.range 2).flatMap (fun k =>
         (List.range n).map (fun i => convert w.etype d (xRnd s1 g mode (k * n + i)) sat
           (elemAt (v srcs k) (EType.width w.etype) i))))) srcs none))

/-- R127, R128: QENC encodes 64 f32 elements as two MX blocks or one NQ4 block, with the scale bytes in bytes 254 and 255;
QDEC decodes them. Log 59 gives the model's reading of a literal source. -/
def Obligations.VectorBlocks : Prop :=
  ∀ (w : WordF) (s : State),
    let s1 := begun s w.wait
    let g := s.cur
    let rnd := xRnd s1 g (w.mod.toNat % 4)
    (w.etype ≠ .nq4 → roundReady w [w.srcA] (dstPush w.dst) s = true →
      let vs := (elemsOf 32 (vecSource s1 g .f32 [w.srcA] 0)).map (decodeF ffF32)
      let a := mxEncode w.etype rnd (vs.take 32)
      let b := mxEncode w.etype (fun j => rnd (32 + j)) (vs.drop 32)
      let v := vecSource s1 g w.etype [w.srcA] 0
      exec (.qenc w) s = .next (commits w s (putVec (setFp s1 g (a.2.2 ||| b.2.2)) g w 32
        (blockVec (EType.width w.etype) (a.2.1 ++ b.2.1) a.1 b.1)) [w.srcA] none)
      ∧ exec (.qdec w) s = .next (commits w s (putElems s1 g w 32 ((List.range 64).map (fun j =>
        let x := elemAt v 8 (if j < 32 then 254 else 255)
        let r := rn32 (mxVal (fmtOf w.etype) x (elemAt v (EType.width w.etype) j))
        (r.1, r.2 ||| flagIf (x = 0xFF) fSCNAN)))) [w.srcA] none))
    ∧ (w.etype = .nq4 → let srcs := [w.srcA, w.srcB]
      roundReady w srcs (dstPush w.dst) s = true →
      let sup := decodeF ffF32 ((src s w srcs 1).toNat % 2 ^ 32)
      let e := nq4Encode sup rnd ((elemsOf 32 (vecSource s1 g .f32 srcs 0)).map (decodeF ffF32))
      let v := vecSource s1 g w.etype srcs 0
      exec (.qenc w) s = .next (commits w s (putVec (setFp s1 g e.2.2) g w 32 (blockVec 4 e.2.1 e.1 0)) srcs none)
      ∧ exec (.qdec w) s = .next (commits w s (putElems s1 g w 32 ((List.range 64).map (fun j =>
        rn32 (nq4Val (elemAt v 8 254) (nq4Scale (elemAt v 8 254) sup) (elemAt v 4 j))))) srcs none))

/-- R129, R132, R133: the permutes and moves complete with element i taken from where their table says; an
e3m2 element has its two top bits ignored when read and zero when written (R111). Log 57 and log 58 give the model's readings
for VEXT and VSHUF. -/
def Obligations.VectorPermutes : Prop :=
  ∀ (w : WordF) (s : State),
    let s1 := begun s w.wait
    let g := s.cur
    let n := EType.width w.etype
    let c := 2048 / n
    let all := [w.srcA, w.srcB, w.srcC]
    let trim (v : Nat) := if w.etype = .e3m2 then v % 64 else v
    let at_ (k : Nat) (i : Nat) := trim (elemAt (vecSource s1 g w.etype all k) n i)
    let sc (k : Nat) := (src s w all k).toNat
    let out (srcs : List Operand) (f : Nat → Nat) : State := commits w s (putVec s1 g w n (vecOf n ((List.range c).map f))) srcs none
    (vectorReady w (all.take 1) (dstPush w.dst) true s = true →
      exec (.vmov w) s = .next (out (all.take 1) (at_ 0)) ∧ exec (.vlit w) s = .next (out (all.take 1) (at_ 0))
      ∧ exec (.viota w) s = .next (out (all.take 1) (fun i =>
        ((List.range i).filter (selects n (maskSource s1 g all 0))).length)))
    ∧ (vectorReady w (all.take 2) (dstPush w.dst) true s = true →
      exec (.vbcast w) s = .next (out (all.take 2) (fun _ => at_ 0 (sc 1 % c)))
      ∧ exec (.vshuf w) s = .next (out (all.take 2) (fun i => at_ 0 (elemAt (vecSource s1 g w.etype all 1) n i % c)))
      ∧ exec (.vrot w) s = .next (out (all.take 2) (fun i => at_ 0 ((i + c - sc 1 % c) % c)))
      ∧ exec (.vcmprs w) s = .next (commits w s (putVec s1 g w n (vecOf n
        (((List.range c).filter (selects n (maskSource s1 g all 1))).map (at_ 0)))) (all.take 2) none)
      ∧ exec (.vexpnd w) s = .next (out (all.take 2) (fun i => if selects n (maskSource s1 g all 1) i then
        at_ 0 ((List.range i).filter (selects n (maskSource s1 g all 1))).length else 0))
      ∧ exec (.vext w) s = .next (commits w s (putVec s1 g w 32 ((if EType.signed w.etype
        then sext64 n (at_ 0 (sc 1 % c)) else zext64 n (at_ 0 (sc 1 % c))).setWidth 2048)) (all.take 2) none))
    ∧ (vectorReady w all (dstPush w.dst) true s = true →
      exec (.vins w) s = .next (out all (fun i => if i = sc 2 % c then trim (sc 1 % 2 ^ n) else at_ 0 i))
      ∧ (w.mod.getLsbD 0 = true → exec (.vslide w) s = .next (out all (fun i =>
        if Nat.min (sc 1) c ≤ i then at_ 0 (i - Nat.min (sc 1) c) else at_ 2 (c + i - Nat.min (sc 1) c))))
      ∧ (w.mod.getLsbD 0 = false → exec (.vslide w) s = .next (out all (fun i =>
        if i + Nat.min (sc 1) c < c then at_ 0 (i + Nat.min (sc 1) c) else at_ 2 (i + Nat.min (sc 1) c - c)))))

/-- R130, R131: reductions leave the result of the selected elements in element 0 and zero elsewhere; VSCAN leaves each
running sum. -/
def Obligations.VectorReductions : Prop :=
  ∀ (w : WordF) (s : State),
    let s1 := begun s w.wait
    let g := s.cur
    let n := EType.width w.etype
    let srcs := [w.srcA, w.srcB]
    let a := vecSource s1 g w.etype srcs 0
    let m := maskSource s1 g srcs 1
    let first (r : Nat × Flagset) : State :=
      commits w s (putElems s1 g w n (r :: List.replicate (2048 / n - 1) (0, 0))) srcs none
    let rnd (i : Nat) := xRnd s1 g (w.mod.toNat % 4) i
    roundReady w srcs (dstPush w.dst) s = true →
    exec (.vredadd w) s = .next (first (sumElems w.etype (rnd 0) (selectedElems n m a (2048 / n))))
    ∧ exec (.vredmax w) s = .next (first (extremum w.etype true (selectedElems n m a (2048 / n)), 0))
    ∧ exec (.vredmin w) s = .next (first (extremum w.etype false (selectedElems n m a (2048 / n)), 0))
    ∧ exec (.vscan w) s = .next (commits w s (putElems s1 g w n ((List.range (2048 / n)).map (fun i =>
        sumElems w.etype (rnd i) (selectedElems n m a (if w.mod.getLsbD 2 then i else i + 1))))) srcs none)

/-- R332 to R341: PKSET writes the unit's registers; PKRAND writes 64 draws; PKTOPK and PKMERGE offer candidates to the current
list; PKDRAW draws from it. -/
def Obligations.PlectrumWords : Prop :=
  ∀ (w : WordF) (s : State),
    let s1 := begun s w.wait
    let g := s.cur
    let one := [w.srcA]
    let two := [w.srcA, w.srcB]
    let a := src s w one 0
    let b := BitVec.ofNat 32 (a.toNat % 2 ^ 32)
    let pk := (bankOf s1 g).pk
    let put (f : Plectrum → Plectrum) : State := modBankOf s1 g (fun k => { k with pk := f k.pk })
    (vectorReady w one [] false s = true →
      (w.mod.toNat = 0 → exec (.pkset w) s = .next (commits w s (put (fun p => { p with seed := a })) one none))
      ∧ (w.mod.toNat = 1 → exec (.pkset w) s = .next (commits w s (put (fun p => { p with seq := b })) one none))
      ∧ (w.mod.toNat = 2 → exec (.pkset w) s = .next (commits w s (put (fun p => { p with pos := b })) one none))
      ∧ (w.mod.toNat = 3 → exec (.pkset w) s = .next (commits w s (setFp (put (fun p => { p with
          temp := BitVec.ofNat 32 (tempOf (a.toNat % 2 ^ 32)).1 })) g (tempOf (a.toNat % 2 ^ 32)).2) one none))
      ∧ (w.mod.toNat = 4 → ∀ t, setTopk s1 g a.toNat = .ok t → exec (.pkset w) s = .next (commits w s t one none))
      ∧ (w.mod.toNat = 5 → exec (.pkset w) s = .next (commits w s (setFp (put (fun p => { p with
          p := BitVec.ofNat 32 (toppOf (a.toNat % 2 ^ 32)).1 })) g (toppOf (a.toNat % 2 ^ 32)).2) one none))
      ∧ (w.mod.toNat = 6 → ∀ t, setList s1 g a = .ok t → exec (.pkset w) s = .next (commits w s t one none))
      ∧ (∀ off cs l, checkList s1 g a = .ok off → listEntries s1 g off = .ok cs → currentList s1 g = .ok l →
        let r := offerAll pk.k l.2 cs
        exec (.pkmerge w) s = .next (commits w s (setFp (putList s1 g l.1 r.1) g (flagIf r.2 fNV)) one none)))
    ∧ (vectorReady w one (dstPush w.dst) false s = true →
      exec (.pkrand w) s = .next (commits w s (writeVec s1 g w.dst (BitVec.allOnes 2048) (vecOf 32 ((List.range 64).map (fun j =>
        if w.mod.getLsbD 0 then (rn32 (pkU pk (a.toNat + j))).1 else pkWord pk (a.toNat + j))))) one none)
      ∧ (∀ l, currentList s1 g = .ok l →
        let r := pkDraw pk l.2 a.toNat
        exec (.pkdraw w) s = .next (commits w s (setFp (writeScalar s1 g w.dst
          (w64 (r.1 + r.2.1 * 2 ^ 32 + r.2.2.1 * 2 ^ 48))) g (flagIf r.2.2.2 fNV)) one none)))
    ∧ (vectorReady w two [] false s = true → ∀ l, currentList s1 g = .ok l →
      let v := vecSource s1 g .f32 two 0
      let f := bits (src s w two 1) 23 0
      let c := Nat.min (bits (src s w two 1) 38 32) 64
      let r := offerAll pk.k l.2 (((List.range c).filter (fun j => f + j < 2 ^ 24)).map (fun j => (elemAt v 32 j, f + j)))
      exec (.pktopk w) s = .next (commits w s (setFp (putList s1 g l.1 r.1) g (flagIf r.2 fNV)) two none))

/-- R168, R169: a matrix record that passes the checks of its acceptance takes the next number of tl.m and enters the
sequencer, and X goes on after its four words; with four records accepted X waits. -/
def Obligations.MatrixRecords : Prop :=
  ∀ (r : RecF) (s : State), readyRec r s = true →
    let s1 := begun s r.wait
    let g := s.cur
    ∀ p ∈ [(Instr.mma r, MForm.mma), (.mmas r, .mmas), (.mhad r, .mhad), (.mclr r, .mclr), (.mlda r, .mlda), (.msta r, .msta),
      (.mscl r, .mscl), (.madda r, .madda), (.mxp r, .mxp)],
    ((bankOf s1 g).eng.recs.length < 4 → checkRecord s1 g p.2 r = .ok () →
      exec p.1 s = .next (commitWord (acceptRec s1 g p.2 r) g (recTokens r) [] none 4)
      ∧ (bankOf (acceptRec s1 g p.2 r) g).eng.issued.get 0 = (bankOf s1 g).eng.issued.get 0 + 1)
    ∧ (4 ≤ (bankOf s1 g).eng.recs.length → exec p.1 s = .next (stallAt s1 g .op 7))

/-- R33, R84, R85, R208, R370: a stalled stream resumes when its word would go on; a watched line that has changed wakes its
WAITADDR; a stalled stream takes the deferred fault at its word; a stream of a freezing bank that has stalled for 64 cycles
stops; a word past step 8 completes with its answer. -/
def Obligations.StreamEvents : Prop :=
  ∀ (g : Agent) (s : State),
    let x := stOf s g
    (∀ t, mayResume x = true → x.suspended = false → (bankOf s g).task.isSome = true → struck s g.core g.bank = false →
      wordNow s g = some t →
      exec (.wordResume g) s = .next (modStOf s g (fun y => { y with run := .running })))
    ∧ (∀ w, x.watching = some w → isStalled x = true → x.suspended = false →
      lineHit s g = true ∨ slotEndAfter s w.since ≤ s.cal.cycle →
      exec (.waitaddrWake g) s = .next (modStOf s g (fun y => { y with run := .running, watching := none, stalledFor := 0 })))
    ∧ (∀ d ds, x.deferred = d :: ds → isStalled x = true → x.suspended = false → x.pending = none →
      exec (.deferredFault g) s = .next (takeDeferred s g d ds))
    ∧ (∀ z, (getAux s g.core g.bank).freeze = some z → z.done = false → isStalled x = true → x.pending = none →
      x.suspended = false → 64 ≤ x.stalledFor →
      exec (.streamStop g) s = .next (freezeIfStill (modStOf s g stopHere) g.core g.bank))
    ∧ (∀ p, x.pending = some p → p.failed = none → issueNow s g.core = true → s.cal.relock = 0 →
      (∀ v, p.kind = .atomic → lostDie s p.word.scope (wordMask s g p.word) = none → p.result = some v →
        atomicSeen s g p = true →
        exec (.responseReturn g) s = .next (completeWord (writeScalar (atomicAcquire s g p) g p.word.dst v) g p.word))
      ∧ (∀ d, p.kind = .atomic → lostDie s p.word.scope (wordMask s g p.word) = some d →
        ∃ t, exec (.responseReturn g) s = .next (wordFault t g (flt .dielost 0 (w64 d.val)) false false))
      ∧ (p.kind = .send ∨ p.kind = .gbar → p.result.isSome = true →
        exec (.responseReturn g) s = .next (completeWord s g p.word)))
    ∧ (∀ p f, x.pending = some p → p.failed = some f → issueNow s g.core = true → s.cal.relock = 0 →
      exec (.responseReturn g) s = .next (wordFault s g f false false))

/-- R158, R159, R189 to R193, R204, R205, R297, R349: a buffered store enters its die's view; a write takes its place at its home
and then enters the views that may apply it; an atomic that has reached its home is performed there, with the new value of R205's
table written and the old one its result; a payload and a contribution arrive; an arrival at a group barrier is counted. -/
def Obligations.MemoryPathEvents : Prop :=
  ∀ (s : State) (n : Nat),
    (∀ c b w ws, (getAux s c b).sb = w :: ws →
      exec (.storeBufferDrain c b) s
        = .next (enterAs (modAux s c b (fun a => { a with sb := ws })) (dieOf c) (acquiredNow s c b)
            (bankOrigin s c b (storeNo c b) false) w.cells))
    ∧ (∀ w, s.ms.unplaced.find? (fun v => v.id == n) = some w →
      writeServes s w = true → canPlace s (before s.ms.unplaced (fun v => v.id == n)) w = true →
      exec (.writeApply n none) s = .next (placeWrite s w))
    ∧ (∀ w d, s.ms.writes.find? (fun v => v.id == n) = some w →
      writeServes s w = true → canApply s d (before s.ms.writes (fun v => v.id == n)) w = true →
      exec (.writeApply n (some d)) s = .next (applyWrite s d w))
    ∧ (∀ r, s.ms.atomics.find? (fun y => y.id == n && !y.faulted) = some r → r.fault = none → r.redo ≠ .translate →
      r.arrived = true → r.result = none → homeServes s r = true → atomicDue s r = true →
      (∀ f, homeFault s r = some f → exec (.atomicAtHome n) s = .next (answerAtomic s { r with fault := some f }))
      ∧ (let k := EType.width r.etype
         homeFault s r = none → k = 8 * elemLen r.etype → r.b.toNat < 2 ^ k → r.c.toNat < 2 ^ k →
         let old := BitVec.ofNat k (ofBytes (r.keys.map (homeByte s.ms)))
         let new := atomicTable (EType.signed r.etype) r.op old (r.b.setWidth k) (r.c.setWidth k)
         let t := enterAtomic s r.home (some r.task) r.after r.origin (cellsAt r.pa (toBytes (elemLen r.etype) new.toNat))
         exec (.atomicAtHome n) s = .next (closeIfDone
           (if r.form = .posted then dropAtomic t r.id
            else answerAtomic t { r with result := some (extendLoad r.etype old.toNat), wrote := s.nextId }) r.kinst r.node)))
    ∧ (∀ r d c, arrivedSend s n false = some (r, d) → arrivalCore s r = some c → dieRefuses s r = none →
      arrivalDie s r = d → runsCtx s c r.task.ctx = true ∨ (forwardOf s r.task.ctx r.target).isSome = true →
      sendDue s r = true → sendRoom s r c = true →
      exec (.sendhArrival n) s = .next (deliverSendh s r c))
    ∧ (∀ r d c k op ord t, arrivedSend s n true = some (r, d) → arrivalCore s r = some c → dieRefuses s r = none →
      r.red = some (k, op, ord, t) → arrivalDie s r = d → redGuard s r c k = false → sendDue s r = true →
      redRefused s r c (Fin.ofNat 32 k) op ord t = none →
      exec (.redspArrival n) s = .next (deliverRedsp s r c (Fin.ofNat 32 k) op ord t))
    ∧ (∀ r, s.ms.gbars.find? (fun y => y.id == n && y.arrived && y.answer.isNone) = some r →
      releaseBefore s r.agent .device 0 r.id = true →
      (r.task.member = false →
        exec (.gbarCount n) s = .next (answerGbar s r (some (flt .barrier 0 (w64 (64 + r.g.val))))))
      ∧ (∀ i b', r.task.member = true → getInst s r.task.kinst r.task.node = some i →
        let b := (getCaux s r.task.ctx).gb.get r.g
        gbArrive b (r.task.kinst, r.task.node) i.g ((rankRec s r.task r.g).any (fun k => k.last == b.phase)) = some b' →
        exec (.gbarCount n) s = .next (modCaux (noteRank (answerGbar s r none) r.task r.g b.phase) r.task.ctx
          (fun a => { a with gb := vset a.gb r.g b' }))))

/-- R96, R99, R246, R248, R254: a free active bank takes the first entry of its core's queues; a P0 entry begins a swap, which
suspends the active bank and, 64 cycles later, starts the entry in the shadow bank; with no P0 entry left the swap back
resumes the active bank; an entry that waits for a place in a queue takes it, else a tile queue with room takes an entry of a
pool; a continuation whose condition holds becomes ready, and waits as READY while its queue is full. -/
def Obligations.DispatchEvents : Prop :=
  ∀ (c : CoreId) (s : State),
    (∀ k, coreServes s c = true → (getBank s c .active).task = none → (getCore s c).swap = .none →
      listedNow s c .active = false → nextCand s c false = some k →
      exec (.taskDispatch c) s = .next (enterBank (passP3 (takeCand s c k.order) c) c .active k.what))
    ∧ (∀ k, coreServes s c = true → (getBank s c .shadow).task = none → (getCore s c).swap = .none →
      listedNow s c .shadow = false → nextCand s c true = some k →
      ∃ t, exec (.shadowSwap c) s = .next t ∧ (getCore t c).urgen = true
        ∧ (getCore t c).swap = .toShadow (s.cal.cycle + 64) k.what)
    ∧ (∀ due e t, (getCore s c).swap = .toShadow due e → due ≤ s.cal.cycle → entersLive s e = true →
      entersTask s e = some t → mayEnter s t e = true → spoiled s e = none →
      exec (.shadowBankStart c) s = .next (enterShadow (modCore s c (fun k => { k with swap := .urgent })) c e))
    ∧ (∀ due e, (getCore s c).swap = .toShadow due e → due ≤ s.cal.cycle → entersLive s e = false →
      exec (.shadowBankStart c) s = .next (modCore s c (fun k => { k with swap := .toActive (s.cal.cycle + 64) })))
    ∧ (∀ due, (getCore s c).swap = .toActive due → due ≤ s.cal.cycle → coreServes s c = true → nextCand s c true = none →
      ∃ t, exec (.activeBankResume c) s = .next t ∧ (getCore t c).urgen = false ∧ (getCore t c).swap = .none)
    ∧ (∀ q, s.disp.waits.find? (fun w => waitCore s w == some c) = none → (getCore s c).work.tile.length < 8 →
      argMin (fun (q : QTask) => q.task.prio.val * (s.disp.order + 1) + q.order) (fillCands s c) = some q →
      exec (.tileQueueFill c) s = .next (fillTile s c q)
        ∧ (getCore (fillTile s c q) c).work.tile = (getCore s c).work.tile ++ [{ q with arrived := s.disp.order }])
    ∧ (∀ w, s.disp.waits.find? (fun w => waitCore s w == some c) = some w →
      exec (.tileQueueFill c) s
        = .next (enterWait (modDisp s (fun d => { d with waits := dropFirst (fun w => waitCore s w == some c) d.waits })) c w))
    ∧ (∀ x n k, (getCaux s x).conts.find? (fun k => k.slot == n) = some k → k.queued = false →
      k.ready = true ∨ contHolds s k = true →
      (∀ d, contCore s k = some d →
        ∃ t, exec (.contReady x n) s = .next t ∧ (getCore t d).work.ready = (getCore s d).work.ready ++
          [{ what := .slot x n, pinned := k.pinned, prio := k.task.prio, order := s.disp.order }])
      ∧ (contCore s k = none → k.ready = false →
        ∃ t, exec (.contReady x n) s = .next t ∧ (getCaux t x).conts = (getCaux s x).conts.map (fun y =>
          if y.slot = n then { y with ready := true, queued := false } else y)))

/-- R239, R242, R244, R266, R267, R289, R318: a bank that must park is imaged; an image whose turn it is resumes in its core, and
one that cannot be read whole is lost; a held
launch whose AFTER has fired is admitted when its image can be read, and retires with the image's fault when not; a gang
group takes its cores, and their banks one by one; under grade 3 the started instances of E2 and E3 are shed. -/
def Obligations.ParkAndLaunchEvents : Prop :=
  ∀ (s : State),
    (∀ c b, parkable s c b = true → (b = .active → imageDue s c .shadow = false) →
      allBanks.any (fun t => (dieOf t.1).val < (dieOf c).val && parkable s t.1 t.2) = false →
      exec (.parkImage c b) s = .next (parkBank (modBank s c b (fun k => k.onStreams parkStream)) c b))
    ∧ (∀ x n i t, (getCaux s x).images.find? (fun i => i.slot == n) = some i → i.bank.task = some t →
      imageReady s x i = true →
      (∀ c, i.fresh = true ∨ imageWhole s x i = true → i.gang = false → imageFirst s i = true → imageCore s i = some c →
        exec (.imageResume x n true) s
          = .next (if i.shadow then beginSwap s c (.image x n) else resumeImage s x i c .active))
      ∧ (∀ readable, i.fresh = false → (readable && imageWhole s x i) = false →
        exec (.imageResume x n readable) s = .next (loseImage s x i t)))
    ∧ (∀ x k ks, s.disp.kerns.filter (fun k => k.ctx == x && k.st == .held) = k :: ks →
      (k :: ks).find? (fun k => afterOf s k == .dead) = none → admits s x = true → afterOf s k = .go →
      (∀ g, readGraph s x k.image.toNat = .ok g → exec (.kernelAdmit x) s = .next (admitKernel s k g))
      ∧ (∀ c, readGraph s x k.image.toNat = .error (.bad c) → exec (.kernelAdmit x) s = .next (retireHeld s k c)))
    ∧ (∀ x k, (s.disp.kerns.filter (fun k => k.ctx == x && k.st == .held)).find? (fun k => afterOf s k == .dead) = some k →
      exec (.kernelAdmit x) s = .next (retireHeld s k .cancelled))
    ∧ (let ps := (allInsts s).filter (fun p => (pendingSince p.2.2.2).isSome && gangOpen s p.1 p.2.1 p.2.2.2)
      let short (p : Kernel × Nat × Node × NodeInst) : Bool :=
        (everCores s p.2.2.1.affinity).length < gangSize s p.1 p.2.1 p.2.2.2
      (∀ p, ps.find? short = some p → exec .gangReserve s = .next (cancelGang s p.1 p.2.1))
      ∧ (∀ p, ps.find? short = none → (allInsts s).any (fun p => (reserved p.2.2.2).isSome) = false →
        argMin (fun (p : Kernel × Nat × Node × NodeInst) =>
          p.2.2.1.prio.val * (s.disp.order + 1) + (pendingSince p.2.2.2).getD 0)
          (ps.filter (fun p => dispatches s p.1.ctx && classAllowed s p.2.2.1.eclass
            && gangSize s p.1 p.2.1 p.2.2.2 ≤ (gangList s p.1 p.2.1 p.2.2.1.affinity).length
            && gangTurn s p.1 p.2.1 p.2.2.1.affinity)) = some p →
        exec .gangReserve s = .next (modInst s p.1.kinst p.2.1 (fun i => { i with
          gang := .reserving ((pendingSince i).getD 0)
            ((gangList s p.1 p.2.1 p.2.2.1.affinity).take (gangSize s p.1 p.2.1 p.2.2.2)) }))))
    ∧ (∀ c p cores, (allInsts s).find? (fun p => ((reserved p.2.2.2).getD []).contains c) = some p →
      reserved p.2.2.2 = some cores → canHold s c (prioBank p.2.2.1) = true →
      let b := prioBank p.2.2.1
      let t := modAux s c b (fun a => { a with hold := some (p.1.kinst, p.2.1) })
      (cores.all (fun d => heldNow t d b) = false → exec (.gangBankHold c) s = .next t)
      ∧ (cores.all (fun d => heldNow t d b) = true → gangFit t p.1 p.2.1 p.2.2.1 p.2.2.2 = true →
        exec (.gangBankHold c) s = .next (placeGang t p.1 p.2.1 b cores)))
    ∧ (let ps := (allInsts s).filter shedDue
      3 ≤ s.bud.grade → ps ≠ [] →
      exec .shedEnd s = .next (foldAll (foldAll s (detStruck s ps) (fun s p => detBreak s p.1 p.2)) ps
        (fun s p => cancelNode s p.1.kinst p.2.1 true)))

namespace Sys2Proof.Claims

open Sys2Proof.Machine

/-- The dispatcher serves a ring, and the record at its HEAD is c: its SEQ is the one expected, its OP is `op`, its FLAGS
and STATVA are in range, its context x is one that the ring may name, and its body passes the command's check (R257,
R258). -/
def recordAt (s : State) (r : Fin 16) (op : Nat) (body : RingRecord → Bool) (c : RingRecord) (x : CtxId) : Prop :=
  let g := getRing16 s r
  ringServed s g = true ∧ g.count ≠ 0 ∧ g.count ≤ g.n ∧ headRecord s g = c ∧ c.seq = g.head.toNat ∧ c.op = op
    ∧ c.flags < 2 ∧ c.statva % 16 = 0 ∧ ctxNo c.ctx = some x ∧ g.allow.getLsbD c.ctx = true ∧ body c = true

end Sys2Proof.Claims

open Sys2Proof Sys2Proof.Machine Sys2Proof.Claims

/-- R145, R147, R148, R170 to R172, R182, R204, R226, R360 to R362: the engines. An operation with no vector left completes; a
stream operation moves one vector between its queue and memory; a queue atomic's result enters its queue; a matrix step and the
pops that follow it; one piece of a copy; a collective operation reads what its rank gives and sends it to the other ranks,
writes its result once every rank's data is there and agrees, as does a digest, and closes once those writes are performed; one
whose step is lost or aborted faults, and a discarded one ends. -/
def Obligations.EngineEvents : Prop :=
  ∀ (s : State),
    (∀ c b k o os, (getBank s c b).eng.ops.get k = o :: os → o.faulted = false → enginesRun s = true →
      issueNow s c = true → (getBank s c b).task.isSome = true →
      let q : Fin 16 := Fin.ofNat 16 o.q
      (o.form ≠ .qatomic → o.total ≤ o.next → exec (.streamEngineStep c b k) s = .next (finishEng s c b k))
      ∧ (∀ s1 ks, o.form = .strm → o.next < o.total → queueRoom (getBank s c b) q (now s) ≠ 0 →
        access s (engReq s c b false) (affineAddr o o.next) (rawLen o.etype) (rawAlign o.etype) = .ok (s1, ks) →
        exec (.streamEngineStep c b k) s = .next (bumpEng (modBank s1 c b (fun x =>
          pushQ x q (now s1) [{ val := rawVec o.etype (readKeys s1 [] (dieOf c) ks) }])) c b k o))
      ∧ (∀ s1 ks e es, o.form = .drn → o.next < o.total → ((getBank s c b).q.get q).seen (now s) ≠ 0 →
        ((getBank s c b).q.get q).items = e :: es → e.bad = false →
        access s (engReq s c b true) (affineAddr o o.next) (rawLen o.etype) (rawAlign o.etype) = .ok (s1, ks) →
        let s2 := engineStore s1 c b (bankOrigin s1 c b (engineNo c b k.val) true) (unitLen o.etype)
          (keyCells ks (rawBytes o.etype e.val))
        exec (.streamEngineStep c b k) s = .next (bumpEng (modBank s2 c b (fun x => popQ x q (now s2) 1)) c b k o))
      ∧ (∀ t f, engStep s c b k o = .error (.fault t f) →
        exec (.streamEngineStep c b k) s = .next (faultEng t c b k o f)))
    ∧ (∀ c b k o os r v, (getBank s c b).eng.ops.get (Fin.castLE (by omega) k) = o :: os → o.form = .qatomic → inSlot s = false →
      issueNow s c = true →
      s.ms.atomics.find? (fun r => r.agent.core == c && r.agent.bank == b && r.form == .queue k && r.num == o.num && r.back)
        = some r →
      r.result = some v → performedAt s r.wrote (dieOf c) = true → queueRoom (getBank s c b) (Fin.ofNat 16 o.q) (now s) ≠ 0 →
      exec (.queueAtomicResult c b k) s = .next (finishEng (modBank (dropAtomic s r.id) c b (fun x =>
        pushQ x (Fin.ofNat 16 o.q) (now s) [{ val := v.setWidth 2048 }])) c b (Fin.castLE (by omega) k)))
    ∧ (∀ c b m ms, stepDue s c b = true → (b = .active → stepDue s c .shadow = false) →
      (getBank s c b).eng.recs = m :: ms →
      let q : Seq := { core := c, bank := b }
      let t := modAux s c b (fun x => { x with datapathBad := false })
      (∀ u n, (getAux s c b).datapathBad = false → matStep t q m = .ok (u, n) →
        exec (.matrixStep c b) s = .next (afterStep u q n))
      ∧ ((getAux s c b).datapathBad = true → exec (.matrixStep c b) s = .next (faultRec t q m (flt .eccu 0 8))))
    ∧ (∀ c b m ms, (getBank s c b).eng.recs = m :: ms → pushDue s c b m = true →
      exec (.matrixStep c b) s = .next (pushOut s { core := c, bank := b } m))
    ∧ (∀ c b m ms p ps r, (getBank s c b).eng.recs = m :: ms → m.pops = p :: ps → m.faulted = false → issueNow s c = true →
      getRing s c b (popRing m p) = some r → r.held ≠ 0 →
      exec (.matrixPop c b) s
        = .next (finishRec (setRing s c b (popRing m p) r.pop) { core := c, bank := b } { m with pops := ps }))
    ∧ (∀ d k o os hpa, ((getDie s d).cp.get k).ops = o :: os →
      (o.discarded = true ∨ o.len ≤ o.done → opFlying s o.id = false → exec (.copyPiece d k hpa) s = .next (finishCopy s d k))
      ∧ (∀ s1 from_ s2 to_, o.discarded = false → o.done < o.len → o.faulted = false → enginesRun s = true → o.host = none →
        access s (copyReq d o false) (o.src + BitVec.ofNat 64 o.done) (pieceLen o o.dst.toNat) 1 = .ok (s1, from_) →
        access s1 (copyReq d o true) (o.dst + BitVec.ofNat 64 o.done) (pieceLen o o.dst.toNat) 1 = .ok (s2, to_) →
        exec (.copyPiece d k hpa) s = .next (pieceDone (dieStore s2 d (copyOrigin d k o) 4 (keyCells to_ (readKeys s2 [] d from_))) d k o
          (pieceLen o o.dst.toNat))))
    ∧ (∀ d k o, (getDie s d).coOps.find? (fun o => o.ctx == k.ctx && o.handle == k.handle && !o.finished) = some o →
      (∀ peers, o.discarded = true → opFlying s o.id = false →
        exec (.collectiveStep d k peers) s = .next (finishColl (abortStep s d o) d o))
      ∧ (∀ c, o.discarded = false → o.faulted = false → enginesRun s = true →
        (if o.op = 4 then some noComm else findComm s k.ctx k.handle) = some c →
        (∀ peers f, stepLost s o c peers = some f → exec (.collectiveStep d k peers) s = .next (faultColl s d o.anew f))
        ∧ (o.op ≠ 4 → o.lost = none →
          exec (.collectiveStep d k .aborted) s = .next (faultColl s d o.anew (flt .cancelled 0 (w64 o.step))))
        ∧ (∀ ops bytes digests fallbacks mismatches, let data := PeerData.data ops bytes digests fallbacks mismatches
          stepLost s o c data = none →
          (∀ s1 own, o.own = none → readPieces s (collReq d o false) 0 (rangePieces o.s.toNat (collIn c o)) = .ok (s1, own) →
            exec (.collectiveStep d k data) s = .next (foldAll (setColl s1 d { o with own := some own })
              (if o.op = 4 then [] else c.others) (giveRank d o c)))
          ∧ (∀ own i, o.own = some own → o.result = none → o.op ≠ 4 → dataFits c o ops bytes digests = true →
            allGave s c o ops bytes = true → differs (withOwn ops c.rank (opWord o)) = some i →
            exec (.collectiveStep d k data) s
              = .next (faultColl s d o.anew { flt .barrier 0 (w64 o.step) with aux := Config.differingField i }))
          ∧ (∀ own s2 o', o.own = some own → o.result = none →
            (o.op ≠ 4 → dataFits c o ops bytes digests = true ∧ allGave s c o ops bytes = true
              ∧ differs (withOwn ops c.rank (opWord o)) = none) →
            let out := if o.op = 4 then toBytes 8 (crc64 own).toNat else collOut c o own bytes digests
            let ps := rangePieces o.d.toNat out.length
            writePieces (foldAll s (if o.op = 4 then [] else fallbacks) (fun t p => countPort t 3 p)) d
              { o with result := some out } (out.drop ((ps.take o.piece).map (·.2)).sum) (ps.drop o.piece) = (s2, o', none) →
            exec (.collectiveStep d k data) s = .next (setColl s2 d o'))
          ∧ (∀ own out, o.own = some own → o.result = some out → (rangePieces o.d.toNat out.length).length ≤ o.piece →
            opFlying s o.id = false → (o.op < 3 → (getCtx s o.ctx).attr.getLsbD 0 = true → digests.length = c.p) →
            exec (.collectiveStep d k data) s = .next (closeColl s d o c out digests mismatches)))))

/-- R12, R213, R216 to R219, R221, R222, R228: the page fabric's steps. PGZERO and MIGR treat one page, with its status, and
end after the last; a move commits once its source holds still, and is abandoned where software has rewritten the entry; a
walk fills both TLBs; a repair ends with the page's bytes or POISONED; a host access flips a page of that attribute; an
invalidation changes no state; the Capo evicts. -/
def Obligations.PageEvents : Prop :=
  ∀ (s : State),
    (∀ d o os, (getDie s d).mgOps = o :: os → o.waiting = false → o.ws = false → o.count ≤ o.next ∨ o.discarded = true →
      statusFlying s o.ctx = false → exec (.migratorPage d) s = .next (closeIfDone (finishMigr s d) o.kinst o.node))
    ∧ (∀ d o os l, (getDie s d).mgOps = o :: os → o.waiting = false → o.ws = false → o.capo = true → o.next < o.count →
      o.discarded = false → enginesRun s = true → homeLeaf s o.ctx (o.first + 65536 * o.next) = .leaf l → leafBad l = false →
      let e := l.entry
      (ePSN e = true ∨ eMV e ≠ 0 ∨ ePIN e = true ∨ eTIER e = o.tier →
        exec (.migratorPage d) s = .next (migrDone s d o.id o.next 3))
      ∧ (∀ u, ePSN e = false → eMV e = 0 → ePIN e = false → 1 < eTIER e → eTIER e < 4 → eTIER e ≠ o.tier → l.large = false →
        startMove s .capo o.ctx l (decide (eTIER e < o.tier)) o.tier o.hsh (if o.hsh then 0 else o.home) = .begun u →
        exec (.migratorPage d) s = .next (modDie u d (fun k => { k with
          mgOps := k.mgOps.map (fun p => if p.id = o.id then { p with waiting := true } else p) }))))
    ∧ (∀ d o os l, (getDie s d).mgOps = o :: os → o.waiting = false → o.ws = false → o.capo = false → o.next < o.count →
      o.discarded = false → enginesRun s = true → homeLeaf s o.ctx (o.first + 65536 * o.next) = .leaf l → leafBad l = false →
      let e := l.entry
      (o.zero = true → (eWR e = false ∨ eSHR e = 1 →
          exec (.migratorPage d) s = .next (migrDone s d o.id o.next 3))
        ∧ (eWR e = true → eSHR e = 0 → eTIER e ≠ 1 → eMV e = 0 → frameBusy s e = false → l.large = false →
          (ePIN e = true → exec (.migratorPage d) s
            = .next (migrDone (updateLeaf (if eTIER e = 0 then s else zeroFrame s e) o.ctx l (eBit e 7 false)) d o.id o.next 0))
          ∧ (ePIN e = false → eTIER e = 0 → ePSN e = false →
            exec (.migratorPage d) s = .next (migrDone s d o.id o.next 1))
          ∧ (ePIN e = false → eTIER e ≠ 0 → (ePSN e = true → frameElsewhere s o.ctx l = false) → exec (.migratorPage d) s
            = .next (migrDone (freePteFrame (updateLeaf s o.ctx l
                (eSet (eSet (eBit e 7 false) 11 3 0) 36 28 (eTIER e))) o.ctx e) d o.id o.next 0))))
      ∧ (o.zero = false → (eRD e = false ∨ eSHR e = 1 →
          exec (.migratorPage d) s = .next (migrDone s d o.id o.next 3))
        ∧ (eRD e = true → eSHR e = 0 → ePSN e = false → eMV e = 0 →
          (eTIER e = 0 → exec (.migratorPage d) s = .next (migrDone s d o.id o.next 1))
          ∧ (eTIER e ≠ 0 → ePIN e = true → exec (.migratorPage d) s = .next (migrDone s d o.id o.next 3))
          ∧ (ePIN e = false → eTIER e = 2 ∨ eTIER e = 3 → ¬(eTIER e = o.tier ∧ eHSH e = o.hsh ∧ (o.hsh = true ∨ eHOME e = o.home)) →
            l.large = false → ∀ u f, takeFrame s o.ctx o.tier o.hsh (if o.hsh then 0 else o.home) = some (u, f) →
            exec (.migratorPage d) s
              = .next (modDie (beginMove u (.migr d o.id o.next) o.ctx l (o.tier = 3 && eTIER e = 2) o.tier o.hsh
                  (if o.hsh then 0 else o.home) f false) d (fun k => { k with
                    mgOps := k.mgOps.map (fun p => if p.id = o.id then { p with waiting := true } else p) }))))))
    ∧ (∀ n m, s.ms.moves.find? (fun m => m.id == n && !m.repair) = some m →
      let e := homePte s.ms m.at_
      (eBit e 5 false ≠ eBit m.entry 5 false → exec (.moveCommit n) s = .next (abandonMove s m 5))
      ∧ (eBit e 5 false = eBit m.entry 5 false → eTIER e = 1 ∨ m.tier = 1 → wsStillOpen s m = false →
        exec (.moveCommit n) s = .next (abandonMove s m 5))
      ∧ (eBit e 5 false = eBit m.entry 5 false → (eTIER e = 1 ∨ m.tier = 1 → wsStillOpen s m = true) → enginesRun s = true →
        entryBusy s m.at_ = false → frameBusy s e = false → moveReaches s m e = true →
        (s.ms.latent.contains (eFRAME e) = false → exec (.moveCommit n) s = .next (commitMove s m))
        ∧ (1 ≤ eTIER e → eTIER e ≤ 3 → s.ms.latent.contains (eFRAME e) = true →
          exec (.moveCommit n) s = .next (meetError s (eFRAME e)))))
    ∧ (∀ c x va v, (getDie s (dieOf c)).st = .up →
      bankCtx (getBank s c .active) = some x ∨ bankCtx (getBank s c .shadow) = some x →
      let es := walkEntries (tableFails s (dieOf c)) (readPte s.ms (dieOf c)) x va.toNat 3 1 (getCtx s x).root.toNat
      exec (.pageWalk c x va v) s = .next (modCore (modDie s (dieOf c) (fun k => { k with tlb := fillTlb (tlbRoom s (.tlb (dieOf c))) (v.getD 0) k.tlb es }))
        c (fun k => { k with tlb := fillTlb (tlbRoom s (.coreTlb c)) (v.getD 0) k.tlb es })))
    ∧ (∀ n m, s.ms.moves.find? (fun m => m.id == n && m.repair) = some m →
      (∀ ps, ps.length = 16 → (backing s m).isSome = true →
        exec (.refetchComplete n (some ps)) s = .next (repairDone s m (refetchCells s ps)))
      ∧ (∀ ps, backing s m = none → exec (.refetchComplete n ps) s = .next (repairFailed s m))
      ∧ exec (.refetchComplete n none) s = .next (repairFailed s m)
      ∧ (m.since + 64 ≤ period s → exec (.repairTimeout n) s = .next (repairFailed s m)))
    ∧ (∀ x va l, homeLeaf s x va.toNat = .leaf l → leafBad l = false →
      (eSHR l.entry = 2 → eTIER l.entry = 2 ∨ eTIER l.entry = 3 → eMV l.entry = 0 → ePSN l.entry = false →
        s.disp.linkDown = false →
        exec (.hostFlipAccess x va) s = .next (if ePIN l.entry then s else
          beginMove s .host x l true 4 false 0 (Config.hostFrame x.val l.base % 2 ^ 28) true))
      ∧ (∀ t home, (t = .hbm ∨ t = .lpddr) → homeOk (Tier.num t) false home.val = true →
        presentNo s home.val = true → migRoom s 8 = true →
        exec (.capoEvict x va t home) s = .next (enterMig s 8 { capoOp s x va.toNat with tier := Tier.num t, home := home.val })))
    ∧ (∀ x (h : BitVec 12), (getCaux s x).handles.any (fun k => k.n == h) = true → exec (.atsInvalidate x h) s = .next s)

/-- R22, R23, R25, R376, R377, R381 to R384, R387: soft errors, the loss and the return of a die, module resets, targeted
self-tests and the first steps of boot. -/
def Obligations.FaultAndResetEvents : Prop :=
  ∀ (s : State),
    (∀ e, coded e.at_ = true →
      let t := { s with care := { s.care with
        tests := s.care.tests ++ [(testOf s e.at_, s.cal.cycle)]
        corrected := if e.corrected || refetched e.at_ then s.care.corrected + 1 else s.care.corrected } }
      exec (.eccError e) s = .next (if e.corrected then t else uncorrected t e.at_))
    ∧ (∀ d, losable s d = true → exec (.dieFault d) s = .next (if d = 8 then moduleReset s 5 else loseDie s d))
    ∧ (∀ d, (getDie s d).st = .resetting →
      (∃ t, exec (.dieResetDone d true) s = .next t ∧ (getDie t d).st = .up)
      ∧ ∃ t, exec (.dieResetDone d false) s = .next t ∧ (getDie t d).st = .absent ∧ t.boot.forward.getLsbD d.val = false)
    ∧ exec .powerOnReset s = .next (moduleReset s 0)
    ∧ (∀ v, exec (.modreset v) s = .next (if v = 1 then moduleReset s 1 else s))
    ∧ (s.boot.stat = 1 → (getDie s 9).st = .up → 4 ≤ s.boot.missed → s.boot.standby = true → exec .heartbeatTimeout s = .next (moduleReset s 5))
    ∧ (∀ e, (testDue s e && serveWindow s) = true ∨ (overrunning s e && s.care.tests.any (fun t => t.1 == e)) = true →
      let t := { s with care := { s.care with
        tests := s.care.tests.filter (fun t => t.1 != e)
        tested := (e, slotFirst s) :: s.care.tested.filter (fun t => t.2 == slotFirst s) } }
      exec (.targetedSelftest e true) s = .next t
      ∧ exec (.targetedSelftest e false) s
        = .next (retireStructure { t with care := { t.care with lasting := t.care.lasting ++ [e] } } e))
    ∧ (∀ res : Vector DieTest 10, s.boot.stat = 0 → s.boot.step = 1 → (res.get 8).result = 0 →
      (bootSlot s = none → exec (.bootSelftestDone res) s = .next (bootFails s 2 1))
      ∧ (∀ n, bootSlot s = some n → allDies.all (fun d => !(d.val < 8 && present (bootDies s res n) d)) = true →
        exec (.bootSelftestDone res) s = .next (bootFails (bootDies s res n) 3 2))
      ∧ (∀ n, bootSlot s = some n → allDies.all (fun d => !(d.val < 8 && present (bootDies s res n) d)) = false →
        exec (.bootSelftestDone res) s = .next (bootAdvance (bootDies s res n))))

/-- R11, R24, R324, R344 to R352, R366: the links. A link sends an idle flit, the next flit of a replay, or the next packets in a
new flit, which takes the next number and is kept until it is acknowledged; the flit that arrives is taken if its CRC passes and
discarded if not; 4,096 cycles without an ACK begin a replay of the whole buffer, and 1 ms takes the link down; training and an
extended slot's retraining; with the host link down every running ring stops. -/
def Obligations.LinkEvents : Prop :=
  ∀ (s : State) (l : LinkId),
    let k := getLink s l
    (linkMoves s l = true →
      exec (.flitSend l 0) s = .next (sendIdle s l)
      ∧ (∀ n, n ≠ 0 → k.replay ≠ [] → exec (.flitSend l n) s = .next (sendReplay s l))
      ∧ (∀ n, n ≠ 0 → n ≤ 15 → k.replay = [] → k.buffer.length < bufferSize l → n ≤ (sendable s l).length →
        ∃ t, exec (.flitSend l n) s = .next t ∧ (getLink t l).txNext = k.txNext + 1
          ∧ (getLink t l).buffer = k.buffer ++ [{ seq := k.txNext, ack := k.rxNext - 1, nak := if k.nakDue then some k.rxNext else none
                                                  pays := (sendable s l).take n }])
      ∧ (∀ f err f' u, nextFlit s l f = some (f', u) →
        (∀ r, arrives f' err = some r → exec (.flitReceive l f err) s = .next (takeFlit u l r))
        ∧ (arrives f' err = none → exec (.flitReceive l f err) s = .next (badFlit u l f' err))))
    ∧ (k.st.carries = true → k.buffer ≠ [] →
      (Nat.max k.lastAck k.lastReplay + 4096 ≤ s.cal.cycle →
        exec (.replayTimeout l) s = .next (modEnds (modLink s l (fun k => { k with
          lastReplay := s.cal.cycle, replay := k.buffer.map (·.seq) })) l (fun k => countLink k 1)))
      ∧ (k.ackAge + 36000000 ≤ s.cal.age → exec (.linkAckTimeout l) s = .next (linkFails s l)))
    ∧ (k.st = .training → ∀ g0 g1, exec (.linkTrainDone l g0 g1) s = .next (bootAdvance (trained s l g0 g1)))
    ∧ (∀ e results, extOf s (period s) = some e → s.cal.retrained ≠ e + 1 → serveWindow s = true →
      exec (.extendedSlotRetrain results) s = .next (foldAll { s with cal := { s.cal with retrained := e + 1 } }
        (dieLinks ++ fabLinks) (fun s l =>
          let g := ((results.find? (fun r => r.1 == l)).map (·.2)).getD (true, true)
          retrain s l g.1 g.2)))
    ∧ (s.disp.linkDown = false →
      ∃ t, exec .hostLinkDown s = .next t ∧ t.disp.linkDown = true
        ∧ ∀ r : Fin 16, (t.disp.rings.get r).st ≠ 1)

/-- R231 to R235, R257 to R259, R388: the host's rings. A record of each of the six commands is taken, and its command has
its effect; a ring's TAIL is read again; the steps that end a quiesce and begin a load; a ring starts and stops. -/
def Obligations.RingCommands : Prop :=
  ∀ (s : State) (r : Fin 16) (x : CtxId),
    let s1 := advanceHead s r
    (∀ c, recordAt s r 0x01 launchOk c x → exec (.launch r) s = .next (launchBody r s1 c x))
    ∧ (∀ c, recordAt s r 0x10 openOk c x →
      exec (.ctxopen r) s = .next (if (getCtx s1 x).st ≠ .free then answer s1 r c 1 0 else answer (openContext s1 c x) r c 0 0))
    ∧ (∀ c, recordAt s r 0x11 zeroBody c x →
      exec (.ctxready r) s
        = .next (if (getCtx s1 x).st ≠ .loading then answer s1 r c 1 0 else answer (setCtxSt s1 x .ready) r c 0 0))
    ∧ (∀ c, recordAt s r 0x12 (wsloadOk s) c x →
      ((getCtx s1 x).st = .loading →
        ∃ w, w.first = c.field 16 8 ∧ w.count = c.field 24 4 ∧ w.home = c.field 28 1 ∧ w.status = w64 (c.field 32 8)
          ∧ exec (.wsload r) s = .next (modCaux s1 x (fun a => { a with ws := a.ws ++ [w] })))
      ∧ ((getCtx s1 x).st = .free → exec (.wsload r) s = .next (answer s1 r c 1 0)))
    ∧ (∀ c, recordAt s r 0x13 zeroBody c x → (getCtx s1 x).st ≠ .free → (getCtx s1 x).st ≠ .quiesced →
      exec (.ctxquiesce r) s = .next (modCaux (quiesce s1 x) x (fun a => { a with
        quiesce := some (r, BitVec.ofNat 32 c.seq, w64 c.statva, c.flags % 2 = 1) })))
    ∧ (∀ c, recordAt s r 0x14 zeroBody c x → (getCtx s1 x).st = .quiesced → (getCaux s1 x).quiesce = none →
      s.ms.atomics.any (fun q => q.ctx == x) = false →
      exec (.ctxrelease r) s = .next (answer (releaseContext s1 x) r c 0 0))
    ∧ (ringServed s (getRing16 s r) = true → hostFlying s = false →
      let t : BitVec 32 := BitVec.ofNat 32 (ofBytes (viewBytes s.ms 8 (hostKey (getRing16 s r).rb.toNat) 4))
      let u := modRing16 s r (fun g => { g with tail := t })
      exec (.ringTailRead r) s
        = .next (if (getRing16 s r).n < (t - (getRing16 s r).head).toNat then stopRing u r else u))
    ∧ (∀ n q va irq, (getCaux s x).quiesce = some (n, q, va, irq) → dieOpsLeft s x = false →
      exec (.quiesceComplete x) s
        = .next (writeStatus (modCaux s x (fun a => { a with quiesce := none })) n q va irq 0 0))
    ∧ (∀ w ws, (getCaux s x).ws = w :: ws → w.cancelled = false → w.running = false → wsOpen s x = true →
      migRoom s (Fin.ofNat 10 w.home) = true →
      w.status = 0 → exec (.wsloadBegin x) s = .next (beginWs s x w ws))
    ∧ (s.disp.linkDown = false → s.boot.stat = 1 → ringOk (getRing16 s r) = true →
      (recordsOut s r = false → ∃ t, exec (.ringStart r) s = .next t ∧ (t.disp.rings.get r).st = 1
        ∧ (t.disp.rings.get r).head = (getRing16 s r).headset)
      ∧ (recordsOut s r = true → exec (.ringStart r) s = .next (modRing16 s r (fun g => { g with starting := true })))
      ∧ (∃ t, exec (.ringDisable r) s = .next t ∧ (t.disp.rings.get r).st = 0))

/-- R19, R308, R309, R319, R322 to R329: the calendar. Each step of a period runs once, where its window lies. -/
def Obligations.CalendarEvents : Prop :=
  ∀ (s : State),
    let p := period s
    (s.cal.boundary < p → ∃ t, exec .periodBoundary s = .next t ∧ t.cal.boundary = p
      ∧ t.bud.auto = autoMove s p ∧ t.bud.grade = Nat.max (gradeNow s) (autoGrade t.bud.auto)
      ∧ t.bud.rung = (if t.bud.grade = 0 then 0 else Nat.max 1 (autoRung t.bud.auto))
      ∧ t.bud.cur.power = powerNow s ∧ t.bud.closed.length = s.bud.closed.length + 1 ∧ t.bud.error = s.bud.error)
    ∧ (inDrain s = true → s.cal.drain ≤ p → exec .drainWindowStart s = .next { s with cal := { s.cal with drain := p + 1 } })
    ∧ (∀ n, s.cal.nextLevel.find? (fun n => n.2 = p) = some n → phase s < 1024 →
      ∃ t, exec .levelChange s = .next t ∧ t.cal.level = n.1 ∧ t.cal.relock + phase s ≤ 1024)
    ∧ (inSlot s = true → 1024 ≤ phase s → phase s < 3584 → s.cal.refreshed ≤ p →
      exec .refresh s = .next { s with cal := { s.cal with refreshed := p + 1 } })
    ∧ (∀ m, inSlot s = true → 3584 ≤ phase s → phase s < 3840 → p ≠ 0 → s.cal.swept ≤ p → meterOk s m = true →
      ∃ t, exec (.sensorSweep m) s = .next t ∧ t.cal.swept = p + 1
        ∧ (let w := t.bud.window.take 64
           t.bud.error = measuredAverage w - targetAverage w)
        ∧ t.bud.total = s.bud.total + m.total)
    ∧ (∀ e k, slotEnded s = some (e, k) →
      exec .slotEnd s = .next (foldAll { s with cal := { s.cal with slotEnd := e + 1 } } (unfinished s e k)
        (fun t i => beginOverrun t i k)))
    ∧ (∀ n o, s.care.overruns.find? (fun o => o.1 == n) = some o → overrunEnded s o.2 = true →
      exec (.overrunComplete n) s
        = .next { s with care := { s.care with overruns := s.care.overruns.filter (fun q => q.1 != n) } })

/-- R16, R307, R314 to R317: a core takes the cap of the rung in force; a pending curve becomes current and a current one
ends, each with its record in the budget log; facility time is lost and found; an idle compute die is gated under park and
ungated for a task of E0. -/
def Obligations.BudgetAndIslandEvents : Prop :=
  ∀ (s : State),
    (∀ c, capDue s c = true → (dieCycle s (dieOf c)).toNat % 8 = 0 →
      allCores.any (fun k => k.val < c.val && capDue s k) = false →
      exec (.cadenceCapApply c) s = .next (modCtl s c (fun k => { k with cap := rungCap s.bud.rung })))
    ∧ (∀ c, s.bud.pending = some c → s.cal.time.isSome = true → c.start ≤ facilityNs s →
      ∃ t, exec .curveActivate s = .next t ∧ t.bud.current = some c ∧ t.bud.pending = none)
    ∧ (∀ c, s.bud.current = some c → s.cal.time.isSome = true → c.end_ ≤ facilityNs s → pendingDue s = false →
      ∃ t, exec .curveExpire s = .next t ∧ t.bud.current = none)
    ∧ (s.cal.time.isSome = true → ∃ t, exec .ieee1588TimeLost s = .next t ∧ t.cal.time = none)
    ∧ (∀ n, s.cal.time = none → ∃ t, exec (.ieee1588TimeGained n) s = .next t ∧ t.cal.time = some (36 * n))
    ∧ (∀ d, gatable s d = true → allDies.any (fun e => e.val < d.val && (gatable s e || gatesLater s e)) = false →
      exec (.islandGate d) s = .next (gangsBack (foldAll (modDie s d (fun k => { k with st := .gated }))
        (allCores.filter (fun c => dieOf c == d)) losePower) (fun c => dieOf c == d)))
    ∧ (∀ d, (getDie s d).st = .gated → neededE0 s d = true →
      exec (.islandUngate d) s = .next (modDie s d (fun k => { k with st := .ungating })))
    ∧ (∀ d, (getDie s d).st = .gated → s.bud.grade < 2 →
      allDies.all (fun e => (getDie s e).st != .ungating && !(e.val < d.val && (getDie s e).st == .gated)) = true →
      exec (.islandUngate d) s = .next (modDie s d (fun k => { k with st := .ungating })))
    ∧ (∀ d, (getDie s d).st = .ungating → exec (.ungateComplete d) s = .next (modDie s d (fun k => { k with st := .up })))

/-- R306, R365, R375, R379, R380, R383, R385, R387 to R391: the host's registers and its CXL accesses. Before READY a
write has no effect; from READY on a mailbox's GO runs its command. -/
def Obligations.HostRegisterEvents : Prop :=
  ∀ (s : State), s.disp.linkDown = false →
    (s.boot.stat ≠ 1 →
      exec .curveSubmit s = .next s ∧ exec .attestRequest s = .next s ∧ exec .commRegister s = .next s
      ∧ (∀ w, exec (.dbgReleaseThaw w) s = .next s ∧ exec (.dbgReleaseCancel w) s = .next s))
    ∧ (s.boot.stat = 1 →
      (let m := s.boot.curve
       let bs := if m.len.toNat ≤ 8192 then (m.buf ++ List.replicate 8192 0).take (Nat.min m.len.toNat 8192) else []
       m.busy = false → ∃ t, exec .curveSubmit s = .next t ∧ t.boot.curve.status = curveCode s bs
        ∧ (curveCode s bs = 0 → t.bud.topSeq = some (readCurve bs).seq))
      ∧ (s.boot.attest.busy = false → 32768 ≤ s.boot.leaf → exec .attestRequest s
        = .next { s with boot := { s.boot with attest := { s.boot.attest with status := 3, busy := true } } })
      ∧ (s.boot.attest.busy = false → s.boot.leaf < 32768 → ∃ t, exec .attestRequest s = .next t
        ∧ t.boot.leaf = s.boot.leaf + 1 ∧ t.boot.attest.status = 0 ∧ t.boot.attest.buf.length = 3020)
      ∧ (s.boot.comm.busy = false → readComm s s.boot.comm.arg.toNat = none →
        ∃ t, exec .commRegister s = .next t ∧ t.boot.comm.status = 1)
      ∧ (s.boot.comm.busy = false → ∀ x c, readComm s s.boot.comm.arg.toNat = some (x, c) → commBusy s x c.handle = true →
        ∃ t, exec .commRegister s = .next t ∧ t.boot.comm.status = 2)
      ∧ (s.boot.curve.busy = true → exec .curveSubmit s = .next s) ∧ (s.boot.attest.busy = true → exec .attestRequest s = .next s)
      ∧ (s.boot.comm.busy = true → exec .commRegister s = .next s)
      ∧ (s.boot.comm.busy = false → ∀ x c, readComm s s.boot.comm.arg.toNat = some (x, c) → commBusy s x c.handle = false →
        ∃ t, exec .commRegister s = .next t ∧ t.boot.comm.status = 0 ∧ c ∈ (getCaux t x).comms)
      ∧ (∀ x v, bits v 3 2 ≠ 1 → bits v 3 2 ≠ 2 →
        exec (.dbgHold x v) s = .next (modCaux s x (fun a => { a with dbgHold := v.getLsbD 0 })))
      ∧ (∀ w, exec (.dbgReleaseThaw w) s = .next (modCaux
          (foldAll s (heldTasks s w.ctx) (fun s f => decideFrozen s w.ctx f false)) w.ctx
          (fun a => { a with dbgHold := w.hold }))
        ∧ exec (.dbgReleaseCancel w) s = .next (modCaux (foldAll s (heldTasks s w.ctx) (fun s f =>
          if nodeClosed s f.2.1.kinst f.2.1.node then s else cancelNode s f.2.1.kinst f.2.1.node false)) w.ctx
          (fun a => { a with dbgHold := w.hold })))
      ∧ (∀ v, (s.boot.comm.busy = false → exec (.regWrite 0xC008 v) s
          = .next { s with boot := { s.boot with comm := { s.boot.comm with arg := v } } })
        ∧ (s.boot.comm.busy = true → exec (.regWrite 0xC008 v) s = .next s))
      ∧ (∀ v, v.getLsbD 32 = false →
        (s.boot.curve.busy = false → exec (.regWrite 0x6000 v) s
          = .next { s with boot := { s.boot with curve := { s.boot.curve with len := v.setWidth 32 } } })
        ∧ (s.boot.attest.busy = false → exec (.regWrite 0xA000 v) s
          = .next { s with boot := { s.boot with attest := { s.boot.attest with len := v.setWidth 32 } } })
        ∧ (s.boot.comm.busy = false → exec (.regWrite 0xC000 v) s
          = .next { s with boot := { s.boot with comm := { s.boot.comm with len := v.setWidth 32 } } }))
      ∧ (∀ v, v.getLsbD 32 = true → s.boot.curve.busy = false → exec (.regWrite 0x6000 v) s
        = exec .curveSubmit { s with boot := { s.boot with curve := { s.boot.curve with len := v.setWidth 32 } } })
      ∧ (∀ k v, k < 1024 → s.boot.curve.busy = false → exec (.regWrite (0x8000 + 8 * k) v) s
        = .next { s with boot := { s.boot with curve := { s.boot.curve with
            buf := writeBuf s.boot.curve.buf (8 * k) (toBytes 8 v.toNat) } } })
      ∧ (∀ k v, k < 512 → s.boot.attest.busy = false → exec (.regWrite (0xB000 + 8 * k) v) s
        = .next { s with boot := { s.boot with attest := { s.boot.attest with
            buf := writeBuf s.boot.attest.buf (8 * k) (toBytes 8 v.toNat) } } })
      ∧ (∀ (r : Fin 16) v,
        exec (.regWrite (0x1000 + 32 * r.val) v) s = .next (modRing16 s r (fun g => { g with rb := v }))
        ∧ exec (.regWrite (0x1000 + 32 * r.val + 24) v) s = .next (modRing16 s r (fun g => { g with headset := v.setWidth 32 }))
        ∧ (bits v 47 40 ≠ 1 → bits v 47 40 ≠ 2 → exec (.regWrite (0x1000 + 32 * r.val + 16) v) s
          = .next (modRing16 s r (fun g => { g with allow := w64 (g.allow.toNat % 2 ^ 32 + bits v 31 0 * 2 ^ 32) }))))
      ∧ (∀ (x : CtxId) v, exec (.regWrite (0x5000 + 8 * x.val) v) s = writeDbg s x v)
      ∧ (∀ off v, off % 8 = 0 → 0x80000 ≤ off → exec (.regWrite off v) s = .next (logViolation s 8 0xFE 0xFF 0xFF 2 off))
      ∧ (∀ a, let r := hdmRange s
        (65536 * r.1 ≤ a.pa.toNat ∧ a.pa.toNat + a.len ≤ 65536 * r.1 + 65536 * r.2 →
          exec (.cxlMemAccess a) s = .next (match a.write with
            | none => setHostRead s (some (viewBytes s.ms 9 a.pa.toNat a.len))
            | some bs => enterView s 9 (cellsAt a.pa.toNat (bs.take a.len))))
        ∧ (¬ (65536 * r.1 ≤ a.pa.toNat ∧ a.pa.toNat + a.len ≤ 65536 * r.1 + 65536 * r.2) →
          exec (.cxlMemAccess a) s = .next (setHostRead (logViolation s 8 0xFE 0xFF 0xFF 2 a.pa.toNat) none))))

namespace Sys2Proof.Claims

open Sys2Proof.Machine

/-! ### Frames -/

/-- What a word that evaluates in the stream of g, in a bank k that it leaves as k', does not change: the task, the other
streams, the loop counters but for its destination, the wait table, the barrier views and the counters' numbers of its own
stream, the matrix and plectrum units and the engines, every queue that it neither pops nor pushes and, with no token bits, the
tokens. Of the counters of R109 only the first, the words executed, may change. -/
def bankKeeps (g : Agent) (k k' : Bank) (w : WordF) (srcs : List Operand) (dst : Operand) : Prop :=
  k'.task = k.task ∧ k'.eng = k.eng ∧ k'.pk = k.pk
  ∧ (∀ t, t ≠ g.stream → k'.st t = k.st t ∧ k'.regs t = k.regs t)
  ∧ (k'.regs g.stream).wt = (k.regs g.stream).wt ∧ (k'.regs g.stream).nb = (k.regs g.stream).nb
  ∧ (k'.regs g.stream).last = (k.regs g.stream).last ∧ (k'.regs g.stream).badWt = (k.regs g.stream).badWt
  ∧ (∀ i : Fin 8, i ≠ 0 → (k'.regs g.stream).perf.get i = (k.regs g.stream).perf.get i)
  ∧ (∀ i : Fin 4, (∀ m, dst = .mlc m → Fin.ofNat 4 m.val ≠ i) →
      (k'.regs g.stream).lc.get i = (k.regs g.stream).lc.get i)
  ∧ (∀ q, q ∉ popsOf srcs → (∀ p, dst ≠ .queue q p) → k'.q.get q = k.q.get q)
  ∧ (bitTokens w = { popL := 0, popR := 0, pushL := 0, pushR := 0 } → k'.tk = k.tk)
  ∧ (k'.st g.stream).deferred = (k.st g.stream).deferred ∧ (k'.st g.stream).suspended = (k.st g.stream).suspended

/-- A scalar word changes no scalar register but its destination, and in L and S nothing of X's registers. -/
def scalarRegistersKeep (g : Agent) (k k' : Bank) (dst : Operand) : Prop :=
  k'.sregs = k.sregs
  ∧ (∀ t n, t ≠ .x → (t = g.stream → dst ≠ .reg n) → k'.areg t n = k.areg t n)
  ∧ (∀ n : Fin 32, (g.stream = .x → dst ≠ .reg n) → k'.vec.v.get n = k.vec.v.get n)
  ∧ ((∀ n, dst ≠ .age n) → k'.vec.h = k.vec.h) ∧ k'.vec.m = k.vec.m

/-- A vector word changes no scalar register, no vector register but its destination, no lane of that one that its mask does
not select, no mask, and of the special registers only FPSTAT, in which it clears no flag (R37, R116, R117). -/
def vectorRegistersKeep (k k' : Bank) (w : WordF) : Prop :=
  k'.a = k.a ∧ k'.vec.m = k.vec.m
  ∧ (∀ n, w.dst ≠ .reg n → k'.vec.v.get n = k.vec.v.get n)
  ∧ (∀ n (j : Fin 64) (i : Fin 32), w.dst = .reg n →
      (laneMask k w).getLsbD (if EType.width w.etype = 64 then j.val / 2 * 2 else j.val) = false →
      (k'.vec.v.get n).getLsbD (32 * j.val + i.val) = (k.vec.v.get n).getLsbD (32 * j.val + i.val))
  ∧ ((∀ n, w.dst ≠ .age n) → k'.vec.h = k.vec.h)
  ∧ { k'.sregs with fpstat := k.sregs.fpstat } = k.sregs ∧ k.sregs.fpstat &&& k'.sregs.fpstat = k.sregs.fpstat

/-- A word's effect stays within its bank: every other bank, every byte of memory, of the scratchpads and the accumulators,
and everything else that the state holds is as it was in s. -/
def onlyItsBank (s t : State) (g : Agent) : Prop := t = modBank s g.core g.bank (fun _ => bankOf t g)

/-- The byte that the streams of the bank of g see at a key of memory (R189). -/
def seenByte (s : State) (g : Agent) (a : Nat) : Byte := bankByte s.ms (bufferOf s g) (agentDie g) a

/-- A bank whose stream has missed n pages more in its core's TLB (PERF 6, R109). -/
def withMisses (k : Bank) (g : Agent) (n : Word) : Bank :=
  k.modRegs g.stream (fun r => { r with perf := vmod r.perf 6 (· + n) })

/-- What a memory word in the stream of g changes beside its bank and the store buffer of it: the touched dies of its context x,
which only grow, the period's count of bytes by die and context (R319), and the next free number of a store. -/
def accessEffect (s t : State) (g : Agent) (x : CtxId) : Prop :=
  t = { modAux (modBank s g.core g.bank (fun _ => bankOf t g)) g.core g.bank (fun a => { a with sb := bufferOf t g }) with
        nextId := t.nextId, ctxs := t.ctxs, bud := { s.bud with cur := { s.bud.cur with bytes := t.bud.cur.bytes } } }
  ∧ (∀ y, y ≠ x → getCtx t y = getCtx s y) ∧ { getCtx t x with touched := (getCtx s x).touched } = getCtx s x
  ∧ (getCtx s x).touched &&& (getCtx t x).touched = (getCtx s x).touched

/-- r is what an access of the stream of g leaves of s, and no cache holds entries of two sizes for a page of it: one that does
is recorded in the context's event log (R224, R238). -/
def quietAccess (s r : State) (g : Agent) : Prop :=
  ∃ ps n, r = countMisses (served s (reqOf s g false) ps) g n
    ∧ ∀ p ∈ ps, multiHit (tlbsOf s (agentDie g) (some g.core)) (reqOf s g false).ctx p.va = false

/-- The frame of a word that loads: no byte of memory changes for its bank, and no register but its destination. -/
def loadFrame (s : State) (w : WordF) (i : Instr) (srcs : List Operand) : Prop :=
  let g := s.cur
  ∃ t n, exec i s = .next t ∧ accessEffect s t g (reqOf s g false).ctx ∧ bufferOf t g = bufferOf s g
    ∧ (∀ a, seenByte t g a = seenByte s g a)
    ∧ bankKeeps g (withMisses (bankOf s g) g n) (bankOf t g) w srcs w.dst
    ∧ scalarRegistersKeep g (bankOf s g) (bankOf t g) w.dst

/-- The frame of a word that stores some cells: exactly those bytes change for its bank, and no register. -/
def storeFrame (s : State) (w : WordF) (i : Instr) (srcs : List Operand) (cells : List Host.Cell) : Prop :=
  let g := s.cur
  ∃ t n, exec i s = .next t ∧ accessEffect s t g (reqOf s g false).ctx
    ∧ (∀ a, seenByte t g a = (cellsRead cells a).getD (seenByte s g a))
    ∧ bankKeeps g (withMisses (bankOf s g) g n) (bankOf t g) w srcs (.short 0)
    ∧ scalarRegistersKeep g (bankOf s g) (bankOf t g) (.short 0)

/-- What the host and the Capo find right after module reset. -/
def afterReset (s : State) (cause : Nat) : Prop :=
  hostReadByte s 0 = 0 ∧ hostReadByte s 1 = 1 ∧ hostReadByte s 2 = 0 ∧ hostReadByte s 3 = BitVec.ofNat 8 cause
  ∧ (∀ off, 64 ≤ off → hostReadByte s off = 0)
  ∧ s.cal.level = 3 ∧ s.cal.cycle = 0 ∧ curveInForce s = none

/-- Worked encodings of the spec, each with what the spec says it encodes. -/
def specWords : List (Nat × Instr) :=
  [(0x02180A0000C0000000000001000003E8, .add { par := true, wait := 3, dst := .reg 3, srcA := .reg 1, srcB := .lit 1000 }),
   (0x30050C00081000210000010000000004, .ffma { tag := .x, pbl := true, dst := .age 0, etype := .f32, srcA := .queue 0 false,
                                                 srcB := .reg 4, srcC := .age 1 }),
   (0x80000000000050040000000000000000, .fence { tag := .b, scope := .mask, order := .sc, srcC := .reg 4 }),
   (0x0001140100000000000002FB00000000, .loop { mod := 1, srcA := .short 0xFB }),
   (0x00018401014000000000010C000002FF, .qpop { mod := 1, dst := .reg 5, srcA := .queue 12 false, srcB := .short 0xFF }),
   (0x40040400001001080000000100000200, .stq { tag := .s, etype := .f32, srcC := .queue 8 false, srcA := .reg 1, srcB := .short 0 }),
   (0x0004800000866C000000000600000007, .aadd { order := .acqrel, scope := .device, dst := .reg 2, etype := .s64, srcA := .reg 6,
                                                srcB := .reg 7 }),
   (0x00050002024000000000000400000000, .cpy { mod := 2, dst := .reg 9, srcA := .reg 4 }),
   (0x00032000008000000000000300000004, .spawn { dst := .reg 2, srcA := .reg 3, srcB := .reg 4 }),
   (0x42030400000000000000032300000201, .bararr { tag := .s, par := true, srcA := .nb 3, srcB := .short 1 }),
   (0x20079000420000000000020000000000, .pkdraw { tag := .x, dst := .queue 8 false, srcA := .short 0 }),
   (0x0005140102A400000000000400000000, .coll { mod := 1, dst := .reg 10, etype := .b32, srcA := .reg 4 }),
   (0x00020801000000000000020700000003, .trap { mod := 1, srcA := .short 7, srcB := .reg 3 })]

end Sys2Proof.Claims

open Sys2Proof Sys2Proof.Machine Sys2Proof.Claims

/-- R33, R103: the frame of the scalar forms. Each changes nothing outside its bank, and of its bank only its destination, the
queues that it pops and pushes, its tokens, its stream's position and the count of words executed. -/
def Obligations.ScalarFrame : Prop :=
  ∀ (w : WordF) (s : State), ∀ p ∈ oneSource.map (fun p => (p.1 w, [w.srcA])) ++ twoSources.map (fun p => (p.1 w, [w.srcA, w.srcB]))
      ++ threeSources.map (fun p => (p.1 w, [w.srcA, w.srcB, w.srcC])),
    scalarReady w p.2 s = true →
    ∃ t, exec p.1 s = .next t ∧ onlyItsBank s t s.cur
      ∧ bankKeeps s.cur (bankOf s s.cur) (bankOf t s.cur) w p.2 w.dst
      ∧ scalarRegistersKeep s.cur (bankOf s s.cur) (bankOf t s.cur) w.dst

/-- R33, R37, R117, R119 to R122: the frame of the element-wise integer and floating-point forms, which X executes. -/
def Obligations.VectorFrame : Prop :=
  ∀ (w : WordF) (s : State),
    let srcs (n : Nat) := ([w.srcA, w.srcB, w.srcC]).take n
    let ok (n : Nat) := vectorReady w (srcs n) (dstPush w.dst) true s
    let rounds (n : Nat) := roundReady w (srcs n) (dstPush w.dst) s
    ∀ p ∈ vectorInt.map (fun p => (p.1 w, srcs p.2.1, ok p.2.1)) ++ vectorRounded.map (fun p => (p.1 w, srcs p.2.1, rounds p.2.1))
        ++ vectorExact.map (fun p => (p.1 w, srcs p.2.1, ok p.2.1)) ++ vectorFun.map (fun p => (p.1 w, srcs 1, rounds 1))
        ++ [(Instr.fclass w, srcs 1, ok 1)],
      p.2.2 = true →
      ∃ t, exec p.1 s = .next t ∧ onlyItsBank s t s.cur
        ∧ bankKeeps s.cur (bankOf s s.cur) (bankOf t s.cur) w p.2.1 w.dst
        ∧ vectorRegistersKeep (bankOf s s.cur) (bankOf t s.cur) w

/-- R33, R100, R101, R104 to R106, R108, R303: the frame of the control words, of the words of special registers and counters, and
of the queue words. Each changes nothing outside its bank, and of its bank only its destination (CALL the link, LOOP and LBRK
their counter), the queues that it pops and pushes, its tokens, its stream's position and the count of words executed; SETS
changes only the special register that it names, and SETWT only its entry of the wait table. -/
def Obligations.ControlFrame : Prop :=
  ∀ (w : WordF) (s : State), ready w false s = true →
    let s1 := begun s w.wait
    let g := s.cur
    let k := bankOf s g
    let q := queueNo w.srcA
    let empty := w.mod.getLsbD 0 && queueReader q == g.stream && !boundFor (bankOf s1 g) q g.stream
      && ((bankOf s1 g).q.get q).seen (now s1) == 0
    let one := [w.srcA]
    let lc : Operand := .mlc (Fin.castLE (by omega) (lcNo w))
    let near := inRange (target s w w.srcA)
    let v := (regsOf s1 g).lc.get (lcNo w)
    let may (srcs : List Operand) (o : Operand) := sourcesOk s1 g srcs (dstPush o)
    let lands (a : Word) := a.toNat % 16 == 0 && a.toNat < 2 ^ 52
    let none_ : Operand := .short 0
    (∀ p ∈ [(Instr.nop w, ([] : List Operand), none_, true), (.br w, [], none_, near), (.call w, [], .reg 31, near),
        (.lbrk w, [], lc, near), (.loopSet w, one, lc, may one none_),
        (.loop w, [], lc, !(regsOf s1 g).badLc.getLsbD (lcNo w).val && (v.toNat ≤ 1 || near)),
        (.bc w, one, none_, may one none_
          && (!branchTaken g.stream w.mod (src s w one 0) || inRange (target s w w.srcB))),
        (.ret w, [], none_, may [.reg 31] none_ && lands (src s w [.reg 31] 0)),
        (.bri w, one, none_, may one none_ && lands (src s w one 0)),
        (.waittl w, [w.srcB], none_, may [w.srcB] none_
          && (src s w [w.srcB] 0).toNat ≤ (tlValue s1 g.core g.bank (tlNo w.srcA)).toNat),
        (.gets w, [], w.dst, may [] w.dst && !sregBad (bankOf s1 g).sregs (sregOf w)), (.cyc w, [], w.dst, may [] w.dst),
        (.perf w, [], w.dst, may [] w.dst), (.tlget w, [], w.dst, may [] w.dst), (.tuneq w, [], w.dst, may [] w.dst),
        (.qpush w, one, .queue (queueNo w.dst) false, sourcesOk s1 g one [(queueNo w.dst, w.mod.toNat % 8 + 1)]),
        (.qpop w, one, w.dst, !empty && may one w.dst), (.qpop w, [w.srcB], w.dst, empty && may [w.srcB] w.dst),
        (.qpeek w, [.queue q true], w.dst, !empty && may [.queue q true] w.dst),
        (.qpeek w, [w.srcB], w.dst, empty && may [w.srcB] w.dst),
        (.qlen w, [], w.dst, may [] w.dst && (queueReader q == g.stream || queueWriter q == g.stream))],
      p.2.2.2 = true →
      ∃ t, exec p.1 s = .next t ∧ onlyItsBank s t g ∧ bankKeeps g k (bankOf t g) w p.2.1 p.2.2.1
        ∧ scalarRegistersKeep g k (bankOf t g) p.2.2.1)
    ∧ (may [w.srcB] none_ = true →
      (SReg.writable (sregOf w) = true →
        ∃ t, exec (.sets w) s = .next t ∧ onlyItsBank s t g ∧ bankKeeps g k (bankOf t g) w [w.srcB] none_
          ∧ scalarRegistersKeep g { k with sregs := (bankOf t g).sregs } (bankOf t g) none_
          ∧ ∀ r, r ≠ sregOf w → readSreg t g r = readSreg s g r ∧ sregBad (bankOf t g).sregs r = sregBad k.sregs r)
      ∧ (let n : Fin 8 := Fin.ofNat 8 (w.mod.toNat % 8)
         ∃ t, exec (.setwt w) s = .next t ∧ onlyItsBank s t g
          ∧ bankKeeps g (k.modRegs g.stream (fun r => { r with
              wt := (regsOf t g).wt, badWt := (regsOf t g).badWt })) (bankOf t g) w [w.srcB] none_
          ∧ scalarRegistersKeep g k (bankOf t g) none_
          ∧ ∀ i : Fin 8, i ≠ n → (regsOf t g).wt.get i = (regsOf s g).wt.get i
            ∧ (regsOf t g).badWt.getLsbD i.val = (regsOf s g).badWt.getLsbD i.val))

/-- R23, R109, R136, R139, R140, R143, R144, R189, R207, R319: the frame of the words that load and store, of accesses that log no
MULTIHIT (R224). Each may mark the dies it touches and counts the bytes and the misses of its access. A store then changes
exactly the bytes of its keys, as its bank sees them, and no register; a load changes no byte and no register but its
destination; a store to the scratchpad changes only the bytes it covers. -/
def Obligations.LoadStoreFrame : Prop :=
  ∀ (w : WordF) (s : State), ready w false s = true →
    let s1 := begun s w.wait
    let g := s.cur
    let n := elemLen w.etype
    let t := w.etype
    let two := [w.srcA, w.srcB]
    let all := [w.srcA, w.srcB, w.srcC]
    let a (srcs : List Operand) := src s w srcs 0 + src s w srcs 1
    let at_ (srcs : List Operand) := strideAddrs t (src s w srcs 0) (src s w srcs 1)
    let index (srcs : List Operand) := indexAddrs t (src s w srcs 0) (whole s1 g srcs 1)
    let v := whole s1 g all 2
    (sourcesOk s1 g two (dstPush w.dst) = true → ∀ r, quietAccess s1 r g →
      (∀ ks, wordAccess s1 g false (a two) n n = .ok (r, ks) → loadFrame s w (.ld w) two)
      ∧ (∀ ks, w.mod.getLsbD 2 = false → wordAccess s1 g false (a two) (rawLen t) (rawAlign t) = .ok (r, ks) →
        loadFrame s w (.ldq w) two)
      ∧ (∀ kss, wordAccesses s1 g false n (at_ two) = .ok (r, kss) → loadFrame s w (.ldqs w) two)
      ∧ (∀ kss, indexedAccess s1 g false t (index two) = .ok (r, kss) → loadFrame s w (.gathq w) two))
    ∧ (sourcesOk s1 g all [] = true → ∀ r, quietAccess s1 r g →
      (∀ ks, wordAccess s1 g true (a all) n n = .ok (r, ks) →
        storeFrame s w (.st w) all (keyCells ks (toBytes n (src s w all 2).toNat)))
      ∧ (∀ ks, w.mod.getLsbD 2 = false → wordAccess s1 g true (a all) (rawBytes t v).length (rawAlign t) = .ok (r, ks) →
        storeFrame s w (.stq w) all (keyCells ks (rawBytes t v)))
      ∧ (∀ kss, wordAccesses s1 g true n (at_ all) = .ok (r, kss) → storeFrame s w (.stqs w) all (elemCells t kss v))
      ∧ (∀ kss, indexedAccess s1 g true t (index all) = .ok (r, kss) → storeFrame s w (.scatq w) all (elemCells t kss v)))
    ∧ (sourcesOk s1 g two [] = true → checkScope s1 g w = .ok () → releaseReady s1 g w.scope (wordMask s1 g w) = true →
      w.order ≠ .sc → ∀ r ks, quietAccess s1 r g → wordAccess s1 g true (src s w two 0) n n = .ok (r, ks) →
      storeFrame s w (.strel w) two (keyCells ks (toBytes n (src s w two 1).toNat)))
    ∧ (sourcesOk s1 g all [] = true → w.mod.getLsbD 2 = true →
      spadCheck s1 g.core g.bank (a all) (rawLen t) (rawAlign t) false = .ok () →
      ∃ u, exec (.stq w) s = .next u
        ∧ u = { modCore (modBank s g.core g.bank (fun _ => bankOf u g)) g.core (fun k => { k with
                  spad := (getCore u g.core).spad, badSpad := (getCore u g.core).badSpad, racing := (getCore u g.core).racing })
                with fresh := u.fresh }
        ∧ (∀ x, x < (a all).toNat ∨ (a all).toNat + rawLen t ≤ x →
          Mem.read (getCore u g.core).spad x = Mem.read (getCore s g.core).spad x)
        ∧ bankKeeps g (bankOf s g) (bankOf u g) w all (.short 0) ∧ scalarRegistersKeep g (bankOf s g) (bankOf u g) (.short 0))

/-- R33 step 6, R36: a word of L or S whose predicate is false commits its tokens and does nothing else. -/
def Obligations.FalsePredicate : Prop :=
  ∀ (i : Instr) (op : Nat) (w : WordF) (s : State), wordOf i = some (op, w) → wellFormed i = true →
    w.tag = .l ∨ w.tag = .s → s.cur.stream ≠ .x →
    let t := begun s w.wait
    let toks := tokensOf w.pbl w.pbr w.pal w.par (if op = 0x064 then 1 else if op = 0x065 then 2 else 0) (shortNat w.srcA)
      (w.mod.getLsbD 0)
    mayEvaluate s s.cur = true → (stOf s s.cur).deferred = [] → slipAndWaitPass s w.wait false = true →
    tokensReady (bankOf t s.cur) s.cur.stream s.cal.cycle toks = true → tokensBad (bankOf t s.cur) s.cur.stream toks = false →
    predicateBad (bankOf t s.cur) s.cur.stream w.pidx = false →
    predicate (bankOf t s.cur) s.cur.stream w.pidx w.pneg = false →
    exec i s = .next (commitWord t s.cur toks [] none 1)

/-- R32, R134, R135: a word that does not decode raises ILLOP with its bits. A load or store whose address lies past 2⁵²
raises NOTMAPPED, a misaligned one ALIGN, one with no translation NOTMAPPED, and one without permission PROT, in this order.
Each fault leaves the word where it stands. -/
def Obligations.EarlyFaults : Prop :=
  (∀ (s : State) (g : Agent) (rest : List Turn) (bs : List Byte) (e : DecodeError), s.agenda = .word g :: rest →
    let u := { s with agenda := rest, cur := g }
    let t := textServed u g
    mayEvaluate u g = true → (stOf u g).latch = none → (stOf t g).thaw = false → fetchBytes t g ((stOf t g).pc.setWidth 64) 16 = .ok bs →
    fateOf g.stream (ofBytes bs / 2 ^ 125 % 8) = .execute → ofBytes bs / 2 ^ 125 % 8 ≠ 3 → decode bs = .error e →
    step s = .next (wordFault t g { flt .illop 0 (w64 (ofBytes bs / 2 ^ 64 % 2 ^ 64)) (w64 (ofBytes bs % 2 ^ 64)) with
      unit := if ofBytes bs / 2 ^ 125 % 8 = 4 then 3 else 0 } false false))
  ∧ (∀ (w : WordF) (s : State) (st : Bool), ready w false s = true →
    let s1 := begun s w.wait
    let g := s.cur
    let srcs := if st then [w.srcA, w.srcB, w.srcC] else [w.srcA, w.srcB]
    let i := if st then Instr.st w else Instr.ld w
    let n := elemLen w.etype
    let a := src s w srcs 0 + src s w srcs 1
    sourcesOk s1 g srcs (if st then [] else dstPush w.dst) = true →
    let raised (f : FaultInfo) : Prop := exec i s = .next (wordFault s1 g f false false)
    (2 ^ 52 ≤ a.toNat → raised (flt .notmapped a))
    ∧ (a.toNat < 2 ^ 52 → 2 ^ 52 < a.toNat + n → raised (flt .notmapped (w64 (2 ^ 52))))
    ∧ (a.toNat + n ≤ 2 ^ 52 →
      (a.toNat % n ≠ 0 → raised (flt .align a (w64 n)))
      ∧ (a.toNat % n = 0 →
        let x := translate s1 (agentDie g) (some g.core) ((bankCtx (bankOf s1 g)).getD 0) a.toNat
        (x = .none → raised (flt .notmapped a))
        ∧ (∀ l, x = .leaf l → malformedAt l.entry l.large = none →
          ¬(eTIER l.entry = 4 ∧ eSHR l.entry = 2) →
          (st = false → eRD l.entry = false → raised (flt .prot a 1))
          ∧ (st = true → eWR l.entry = false → raised (flt .prot a 1))
          ∧ (st = true → eWR l.entry = true → eTIER l.entry = 1 → raised (flt .prot a 2))))))

/-- R31: each tag's fate in each stream; a word that a stream skips advances it whatever its other bits hold, and a word
with a reserved tag raises ILLOP in every stream. -/
def Obligations.TagFates : Prop :=
  (∀ t tag, tag < 8 → fateOf t tag =
    (match tag with
     | 0 => if t = .l then .execute else .skip
     | 1 => if t = .x then .execute else .skip
     | 2 => if t = .s then .execute else .skip
     | 3 => if t = .x then .execute else .skip
     | 4 => .execute
     | _ => .reserved))
  ∧ (∀ (s : State) (g : Agent) (rest : List Turn) (bs : List Byte), s.agenda = .word g :: rest →
    let u := { s with agenda := rest, cur := g }
    let t := textServed u g
    mayEvaluate u g = true → (stOf u g).latch = none → fetchBytes t g ((stOf t g).pc.setWidth 64) 16 = .ok bs →
    (fateOf g.stream (ofBytes bs / 2 ^ 125 % 8) = .skip → step s = .next (skipWord t g))
    ∧ (fateOf g.stream (ofBytes bs / 2 ^ 125 % 8) = .reserved → (stOf t g).thaw = false →
      step s = .next (wordFault t g (flt .illop 0 (w64 (ofBytes bs / 2 ^ 64 % 2 ^ 64)) (w64 (ofBytes bs % 2 ^ 64))) false false)))

/-- R90: a queue entry holds 2,048 bits without a type. A scalar that L or S pushes fills bits [63:0], the others zero; X
reads an entry as a vector of 32-bit lanes; L and S read bits [63:0], whoever wrote it. -/
def Obligations.QueueEntries : Prop :=
  ∀ (s : State) (g : Agent) (q : Fin 16),
    (∀ v p, g.stream ≠ .x →
      ∃ e : Entry, ((bankOf (writeScalar s g (.queue q p) v) g).q.get q).items = ((bankOf s g).q.get q).items ++ [e]
        ∧ e.val.extractLsb' 0 64 = v ∧ e.val.extractLsb' 64 1984 = 0)
    ∧ (∀ (w : WordF) (e : Entry) es p, ((bankOf s g).q.get q).items = e :: es →
      (g.stream = .x → vecSource s g w.etype [.queue q p] 0 = e.val
        ∧ ∀ j : Fin 64, elemAt (vecSource s g w.etype [.queue q p] 0) 32 j.val = (e.val.extractLsb' (32 * j.val) 32).toNat)
      ∧ (g.stream ≠ .x → scal s g w [.queue q p] 0 = e.val.extractLsb' 0 64))

/-- R328: a wait of value 42 that began on cycle c ends on the first cycle after the first slot that begins at or after c,
4,096 cycles after its start, or 262,144 for an extended slot; it acquires nothing. No extended slot lies in the model's
view of the calendar before the one that `e` names. -/
def Obligations.SlotWait : Prop :=
  ∀ (s : State) (g : Agent) (c : Nat),
    let p := (c + 65535) / 65536
    let holds := waitHolds s g { value := 42, start := c, entry := {} }
    (extOf s p = none → holds = decide (65536 * p + 4096 ≤ s.cal.cycle))
    ∧ (extOf s p = some p → holds = decide (65536 * p + 262144 ≤ s.cal.cycle))
    ∧ (∀ e, extOf s p = some e → e ≠ p → extOf s (e + 4) = none → holds = decide (65536 * (e + 4) + 4096 ≤ s.cal.cycle))
    ∧ (begun s 42).ms = s.ms ∧ (begun s 42).dies = s.dies

/-! ### Reset, the step and the encodings -/

/-- R26, R307, R381, R383, R384, R387: after module reset, whatever the state before, boot stands at its first step, BOOTING,
with the cause of the reset; the clock is at F3 and calendar period 0 begins; the floor curve applies; every register but BOOT
reads zero to the host; and the leaf counter stands. The model's reset state is one of these. -/
def Obligations.ResetState : Prop :=
  afterReset State.reset 0
  ∧ ∀ s : State,
    (∃ t, exec .powerOnReset s = .next t ∧ afterReset t 0 ∧ t.boot.leaf = s.boot.leaf)
    ∧ (∃ t, exec (.modreset 1) s = .next t ∧ afterReset t 1 ∧ t.boot.leaf = s.boot.leaf)
    ∧ (s.boot.stat = 1 → (getDie s 9).st = .up → 4 ≤ s.boot.missed → s.boot.standby = true →
      ∃ t, exec .heartbeatTimeout s = .next t ∧ afterReset t 5 ∧ t.boot.leaf = s.boot.leaf)
    ∧ (∀ v, v ≠ 1 → exec (.modreset v) s = .next s)

/-- The invariants of the model hold at reset: every memory is in canonical form, and the leaf counter of R386 is within its
bound. -/
def Obligations.InvariantsAtReset : Prop := memOk State.reset ∧ leavesOk State.reset

/-- Log 1, the form that the model gives its memories (no rule of the spec): a step from a state in which every memory is in
canonical form, that of the module, those of the cores and those of the park images, leaves every one in that form. -/
def Obligations.MemoryStaysCanonical : Prop :=
  ∀ s t : State, memOk s → step s = .next t → memOk t

/-- R386: no step takes the leaf counter past the 32,768 leaves of the identity key, and none takes it back, so that no leaf
signs twice. -/
def Obligations.LeavesSignOnce : Prop :=
  ∀ s t : State, leavesOk s → step s = .next t → leavesOk t ∧ s.boot.leaf ≤ t.boot.leaf

/-- R29, R31, R33, R46: a turn of a stream runs the instruction that the bytes at its PC decode to: step is exec of it, with the
turn taken off the agenda, the stream marked as the one that evaluates and the homes of the text touched (R23). A turn of an
event runs the event. The word is marked as one that steps 1 and 2 have passed: while it stalls it is not fetched again
(R84), and the step runs it as it was decoded. -/
def Obligations.StepRunsDecoded : Prop :=
  ∀ (s : State) (rest : List Turn),
    (∀ g bs i more, s.agenda = .word g :: rest →
      let u := { s with agenda := rest, cur := g }
      let t := textServed u g
      let pc := (stOf t g).pc.setWidth 64
      let t' := modStOf t g (fun x => { x with latch := some i })
      mayEvaluate u g = true → (stOf u g).latch = none → fetchBytes t g pc 16 = .ok bs →
      fateOf g.stream (ofBytes bs / 2 ^ 125 % 8) = .execute →
      (ofBytes bs / 2 ^ 125 % 8 ≠ 3 → decode bs = .ok (i, more) → step s = exec i t')
      ∧ (∀ bs', ofBytes bs / 2 ^ 125 % 8 = 3 → fetchBytes t g (pc + 16) 48 = .ok bs' → decode (bs ++ bs') = .ok (i, more) →
        step s = exec i t'))
    ∧ (∀ g i, s.agenda = .word g :: rest →
      let u := { s with agenda := rest, cur := g }
      mayEvaluate u g = true → (stOf u g).latch = some i → step s = exec i u)
    ∧ (∀ i, s.agenda = .event i :: rest → step s = exec i { s with agenda := rest })

/-- R42, R46, R110, R116 and the tables of worked encodings: the decoder reads the words that the spec writes out as the
instructions that it writes beside them. -/
def Obligations.SpecWordsDecode : Prop :=
  (∀ p ∈ specWords, decodeTableWord 128 p.1 = some p.2)
  ∧ decodeTableWord 512 (0x60000000440011000000000000000003 + 0x60A02480000000000000000000000000 * 2 ^ 128
      + 0x60000000000000000000000000000000 * 2 ^ 256 + 0x60000000000000000000000000000000 * 2 ^ 384)
    = some (.mma { fmtA := .e4m3, fmtB := .e4m3, fmtO := .f32, accum := true, t0 := 3, ringB := 1, ringD := 2
                   popA := true, popB := true, popD := true })

/-- R30, R39, R43, R46, R49: decoding the encoding of any well-formed word or record gives it back, with every operand, and
leaves what follows it. -/
def Obligations.DecodeEncode : Prop :=
  ∀ (i : Instr) (more : List Byte), wellFormed i = true → encode i ≠ [] → decode (encodeBytes i ++ more) = .ok (i, more)
end

