-- ==== Sys2Proof/Laws/State.lean ====
section
/-! SUPPORT. What each update of the state leaves and what it reads back as: one lemma for each field and update. -/

namespace Sys2Proof.Machine

/-! ### Vectors -/

@[simp] theorem vset_get_self {α : Type} {n : Nat} (v : Vector α n) (i : Fin n) (x : α) : (vset v i x).get i = x := by
  simp [vset, Vector.get_eq_getElem]

theorem vset_get {α : Type} {n : Nat} (v : Vector α n) (i j : Fin n) (x : α) :
    (vset v i x).get j = if i = j then x else v.get j := by
  simp only [vset, Vector.get_eq_getElem, Vector.getElem_set, Fin.ext_iff]

@[simp] theorem vmod_get_self {α : Type} {n : Nat} (v : Vector α n) (i : Fin n) (f : α → α) :
    (vmod v i f).get i = f (v.get i) := by simp [vmod]

theorem vmod_get {α : Type} {n : Nat} (v : Vector α n) (i j : Fin n) (f : α → α) :
    (vmod v i f).get j = if i = j then f (v.get j) else v.get j := by
  rw [vmod, vset_get]
  split
  · next h => rw [h]
  · rfl

/-! ### Fields that an update leaves -/

@[simp] theorem setCore_ctl (s : State) (c : CoreId) (k : Core) : (setCore s c k).ctl = s.ctl := rfl
@[simp] theorem setCore_dies (s : State) (c : CoreId) (k : Core) : (setCore s c k).dies = s.dies := rfl
@[simp] theorem setCore_dlinks (s : State) (c : CoreId) (k : Core) : (setCore s c k).dlinks = s.dlinks := rfl
@[simp] theorem setCore_fabs (s : State) (c : CoreId) (k : Core) : (setCore s c k).fabs = s.fabs := rfl
@[simp] theorem setCore_ctxs (s : State) (c : CoreId) (k : Core) : (setCore s c k).ctxs = s.ctxs := rfl
@[simp] theorem setCore_caux (s : State) (c : CoreId) (k : Core) : (setCore s c k).caux = s.caux := rfl
@[simp] theorem setCore_ms (s : State) (c : CoreId) (k : Core) : (setCore s c k).ms = s.ms := rfl
@[simp] theorem setCore_disp (s : State) (c : CoreId) (k : Core) : (setCore s c k).disp = s.disp := rfl
@[simp] theorem setCore_bud (s : State) (c : CoreId) (k : Core) : (setCore s c k).bud = s.bud := rfl
@[simp] theorem setCore_cal (s : State) (c : CoreId) (k : Core) : (setCore s c k).cal = s.cal := rfl
@[simp] theorem setCore_care (s : State) (c : CoreId) (k : Core) : (setCore s c k).care = s.care := rfl
@[simp] theorem setCore_boot (s : State) (c : CoreId) (k : Core) : (setCore s c k).boot = s.boot := rfl
@[simp] theorem setCore_cur (s : State) (c : CoreId) (k : Core) : (setCore s c k).cur = s.cur := rfl
@[simp] theorem setCore_agenda (s : State) (c : CoreId) (k : Core) : (setCore s c k).agenda = s.agenda := rfl
@[simp] theorem setCore_turn (s : State) (c : CoreId) (k : Core) : (setCore s c k).turn = s.turn := rfl
@[simp] theorem setCore_nextId (s : State) (c : CoreId) (k : Core) : (setCore s c k).nextId = s.nextId := rfl
@[simp] theorem setCore_fresh (s : State) (c : CoreId) (k : Core) : (setCore s c k).fresh = s.fresh := rfl

@[simp] theorem modCore_ctl (s : State) (c : CoreId) (f : Core → Core) : (modCore s c f).ctl = s.ctl := rfl
@[simp] theorem modCore_dies (s : State) (c : CoreId) (f : Core → Core) : (modCore s c f).dies = s.dies := rfl
@[simp] theorem modCore_dlinks (s : State) (c : CoreId) (f : Core → Core) : (modCore s c f).dlinks = s.dlinks := rfl
@[simp] theorem modCore_fabs (s : State) (c : CoreId) (f : Core → Core) : (modCore s c f).fabs = s.fabs := rfl
@[simp] theorem modCore_ctxs (s : State) (c : CoreId) (f : Core → Core) : (modCore s c f).ctxs = s.ctxs := rfl
@[simp] theorem modCore_caux (s : State) (c : CoreId) (f : Core → Core) : (modCore s c f).caux = s.caux := rfl
@[simp] theorem modCore_ms (s : State) (c : CoreId) (f : Core → Core) : (modCore s c f).ms = s.ms := rfl
@[simp] theorem modCore_disp (s : State) (c : CoreId) (f : Core → Core) : (modCore s c f).disp = s.disp := rfl
@[simp] theorem modCore_bud (s : State) (c : CoreId) (f : Core → Core) : (modCore s c f).bud = s.bud := rfl
@[simp] theorem modCore_cal (s : State) (c : CoreId) (f : Core → Core) : (modCore s c f).cal = s.cal := rfl
@[simp] theorem modCore_care (s : State) (c : CoreId) (f : Core → Core) : (modCore s c f).care = s.care := rfl
@[simp] theorem modCore_boot (s : State) (c : CoreId) (f : Core → Core) : (modCore s c f).boot = s.boot := rfl
@[simp] theorem modCore_cur (s : State) (c : CoreId) (f : Core → Core) : (modCore s c f).cur = s.cur := rfl
@[simp] theorem modCore_agenda (s : State) (c : CoreId) (f : Core → Core) : (modCore s c f).agenda = s.agenda := rfl
@[simp] theorem modCore_turn (s : State) (c : CoreId) (f : Core → Core) : (modCore s c f).turn = s.turn := rfl
@[simp] theorem modCore_nextId (s : State) (c : CoreId) (f : Core → Core) : (modCore s c f).nextId = s.nextId := rfl
@[simp] theorem modCore_fresh (s : State) (c : CoreId) (f : Core → Core) : (modCore s c f).fresh = s.fresh := rfl

@[simp] theorem setBank_ctl (s : State) (c : CoreId) (b : BankId) (k : Bank) : (setBank s c b k).ctl = s.ctl := rfl
@[simp] theorem setBank_dies (s : State) (c : CoreId) (b : BankId) (k : Bank) : (setBank s c b k).dies = s.dies := rfl
@[simp] theorem setBank_dlinks (s : State) (c : CoreId) (b : BankId) (k : Bank) : (setBank s c b k).dlinks = s.dlinks := rfl
@[simp] theorem setBank_fabs (s : State) (c : CoreId) (b : BankId) (k : Bank) : (setBank s c b k).fabs = s.fabs := rfl
@[simp] theorem setBank_ctxs (s : State) (c : CoreId) (b : BankId) (k : Bank) : (setBank s c b k).ctxs = s.ctxs := rfl
@[simp] theorem setBank_caux (s : State) (c : CoreId) (b : BankId) (k : Bank) : (setBank s c b k).caux = s.caux := rfl
@[simp] theorem setBank_ms (s : State) (c : CoreId) (b : BankId) (k : Bank) : (setBank s c b k).ms = s.ms := rfl
@[simp] theorem setBank_disp (s : State) (c : CoreId) (b : BankId) (k : Bank) : (setBank s c b k).disp = s.disp := rfl
@[simp] theorem setBank_bud (s : State) (c : CoreId) (b : BankId) (k : Bank) : (setBank s c b k).bud = s.bud := rfl
@[simp] theorem setBank_cal (s : State) (c : CoreId) (b : BankId) (k : Bank) : (setBank s c b k).cal = s.cal := rfl
@[simp] theorem setBank_care (s : State) (c : CoreId) (b : BankId) (k : Bank) : (setBank s c b k).care = s.care := rfl
@[simp] theorem setBank_boot (s : State) (c : CoreId) (b : BankId) (k : Bank) : (setBank s c b k).boot = s.boot := rfl
@[simp] theorem setBank_cur (s : State) (c : CoreId) (b : BankId) (k : Bank) : (setBank s c b k).cur = s.cur := rfl
@[simp] theorem setBank_agenda (s : State) (c : CoreId) (b : BankId) (k : Bank) : (setBank s c b k).agenda = s.agenda := rfl
@[simp] theorem setBank_turn (s : State) (c : CoreId) (b : BankId) (k : Bank) : (setBank s c b k).turn = s.turn := rfl
@[simp] theorem setBank_nextId (s : State) (c : CoreId) (b : BankId) (k : Bank) : (setBank s c b k).nextId = s.nextId := rfl
@[simp] theorem setBank_fresh (s : State) (c : CoreId) (b : BankId) (k : Bank) : (setBank s c b k).fresh = s.fresh := rfl

@[simp] theorem modBank_ctl (s : State) (c : CoreId) (b : BankId) (f : Bank → Bank) : (modBank s c b f).ctl = s.ctl := rfl
@[simp] theorem modBank_dies (s : State) (c : CoreId) (b : BankId) (f : Bank → Bank) : (modBank s c b f).dies = s.dies := rfl
@[simp] theorem modBank_dlinks (s : State) (c : CoreId) (b : BankId) (f : Bank → Bank) : (modBank s c b f).dlinks = s.dlinks := rfl
@[simp] theorem modBank_fabs (s : State) (c : CoreId) (b : BankId) (f : Bank → Bank) : (modBank s c b f).fabs = s.fabs := rfl
@[simp] theorem modBank_ctxs (s : State) (c : CoreId) (b : BankId) (f : Bank → Bank) : (modBank s c b f).ctxs = s.ctxs := rfl
@[simp] theorem modBank_caux (s : State) (c : CoreId) (b : BankId) (f : Bank → Bank) : (modBank s c b f).caux = s.caux := rfl
@[simp] theorem modBank_ms (s : State) (c : CoreId) (b : BankId) (f : Bank → Bank) : (modBank s c b f).ms = s.ms := rfl
@[simp] theorem modBank_disp (s : State) (c : CoreId) (b : BankId) (f : Bank → Bank) : (modBank s c b f).disp = s.disp := rfl
@[simp] theorem modBank_bud (s : State) (c : CoreId) (b : BankId) (f : Bank → Bank) : (modBank s c b f).bud = s.bud := rfl
@[simp] theorem modBank_cal (s : State) (c : CoreId) (b : BankId) (f : Bank → Bank) : (modBank s c b f).cal = s.cal := rfl
@[simp] theorem modBank_care (s : State) (c : CoreId) (b : BankId) (f : Bank → Bank) : (modBank s c b f).care = s.care := rfl
@[simp] theorem modBank_boot (s : State) (c : CoreId) (b : BankId) (f : Bank → Bank) : (modBank s c b f).boot = s.boot := rfl
@[simp] theorem modBank_cur (s : State) (c : CoreId) (b : BankId) (f : Bank → Bank) : (modBank s c b f).cur = s.cur := rfl
@[simp] theorem modBank_agenda (s : State) (c : CoreId) (b : BankId) (f : Bank → Bank) : (modBank s c b f).agenda = s.agenda := rfl
@[simp] theorem modBank_turn (s : State) (c : CoreId) (b : BankId) (f : Bank → Bank) : (modBank s c b f).turn = s.turn := rfl
@[simp] theorem modBank_nextId (s : State) (c : CoreId) (b : BankId) (f : Bank → Bank) : (modBank s c b f).nextId = s.nextId := rfl
@[simp] theorem modBank_fresh (s : State) (c : CoreId) (b : BankId) (f : Bank → Bank) : (modBank s c b f).fresh = s.fresh := rfl

@[simp] theorem modAux_ctl (s : State) (c : CoreId) (b : BankId) (f : BankAux → BankAux) : (modAux s c b f).ctl = s.ctl := rfl
@[simp] theorem modAux_dies (s : State) (c : CoreId) (b : BankId) (f : BankAux → BankAux) : (modAux s c b f).dies = s.dies := rfl
@[simp] theorem modAux_dlinks (s : State) (c : CoreId) (b : BankId) (f : BankAux → BankAux) : (modAux s c b f).dlinks = s.dlinks := rfl
@[simp] theorem modAux_fabs (s : State) (c : CoreId) (b : BankId) (f : BankAux → BankAux) : (modAux s c b f).fabs = s.fabs := rfl
@[simp] theorem modAux_ctxs (s : State) (c : CoreId) (b : BankId) (f : BankAux → BankAux) : (modAux s c b f).ctxs = s.ctxs := rfl
@[simp] theorem modAux_caux (s : State) (c : CoreId) (b : BankId) (f : BankAux → BankAux) : (modAux s c b f).caux = s.caux := rfl
@[simp] theorem modAux_ms (s : State) (c : CoreId) (b : BankId) (f : BankAux → BankAux) : (modAux s c b f).ms = s.ms := rfl
@[simp] theorem modAux_disp (s : State) (c : CoreId) (b : BankId) (f : BankAux → BankAux) : (modAux s c b f).disp = s.disp := rfl
@[simp] theorem modAux_bud (s : State) (c : CoreId) (b : BankId) (f : BankAux → BankAux) : (modAux s c b f).bud = s.bud := rfl
@[simp] theorem modAux_cal (s : State) (c : CoreId) (b : BankId) (f : BankAux → BankAux) : (modAux s c b f).cal = s.cal := rfl
@[simp] theorem modAux_care (s : State) (c : CoreId) (b : BankId) (f : BankAux → BankAux) : (modAux s c b f).care = s.care := rfl
@[simp] theorem modAux_boot (s : State) (c : CoreId) (b : BankId) (f : BankAux → BankAux) : (modAux s c b f).boot = s.boot := rfl
@[simp] theorem modAux_cur (s : State) (c : CoreId) (b : BankId) (f : BankAux → BankAux) : (modAux s c b f).cur = s.cur := rfl
@[simp] theorem modAux_agenda (s : State) (c : CoreId) (b : BankId) (f : BankAux → BankAux) : (modAux s c b f).agenda = s.agenda := rfl
@[simp] theorem modAux_turn (s : State) (c : CoreId) (b : BankId) (f : BankAux → BankAux) : (modAux s c b f).turn = s.turn := rfl
@[simp] theorem modAux_nextId (s : State) (c : CoreId) (b : BankId) (f : BankAux → BankAux) : (modAux s c b f).nextId = s.nextId := rfl
@[simp] theorem modAux_fresh (s : State) (c : CoreId) (b : BankId) (f : BankAux → BankAux) : (modAux s c b f).fresh = s.fresh := rfl

@[simp] theorem modBankOf_ctl (s : State) (g : Agent) (f : Bank → Bank) : (modBankOf s g f).ctl = s.ctl := rfl
@[simp] theorem modBankOf_dies (s : State) (g : Agent) (f : Bank → Bank) : (modBankOf s g f).dies = s.dies := rfl
@[simp] theorem modBankOf_dlinks (s : State) (g : Agent) (f : Bank → Bank) : (modBankOf s g f).dlinks = s.dlinks := rfl
@[simp] theorem modBankOf_fabs (s : State) (g : Agent) (f : Bank → Bank) : (modBankOf s g f).fabs = s.fabs := rfl
@[simp] theorem modBankOf_ctxs (s : State) (g : Agent) (f : Bank → Bank) : (modBankOf s g f).ctxs = s.ctxs := rfl
@[simp] theorem modBankOf_caux (s : State) (g : Agent) (f : Bank → Bank) : (modBankOf s g f).caux = s.caux := rfl
@[simp] theorem modBankOf_ms (s : State) (g : Agent) (f : Bank → Bank) : (modBankOf s g f).ms = s.ms := rfl
@[simp] theorem modBankOf_disp (s : State) (g : Agent) (f : Bank → Bank) : (modBankOf s g f).disp = s.disp := rfl
@[simp] theorem modBankOf_bud (s : State) (g : Agent) (f : Bank → Bank) : (modBankOf s g f).bud = s.bud := rfl
@[simp] theorem modBankOf_cal (s : State) (g : Agent) (f : Bank → Bank) : (modBankOf s g f).cal = s.cal := rfl
@[simp] theorem modBankOf_care (s : State) (g : Agent) (f : Bank → Bank) : (modBankOf s g f).care = s.care := rfl
@[simp] theorem modBankOf_boot (s : State) (g : Agent) (f : Bank → Bank) : (modBankOf s g f).boot = s.boot := rfl
@[simp] theorem modBankOf_cur (s : State) (g : Agent) (f : Bank → Bank) : (modBankOf s g f).cur = s.cur := rfl
@[simp] theorem modBankOf_agenda (s : State) (g : Agent) (f : Bank → Bank) : (modBankOf s g f).agenda = s.agenda := rfl
@[simp] theorem modBankOf_turn (s : State) (g : Agent) (f : Bank → Bank) : (modBankOf s g f).turn = s.turn := rfl
@[simp] theorem modBankOf_nextId (s : State) (g : Agent) (f : Bank → Bank) : (modBankOf s g f).nextId = s.nextId := rfl
@[simp] theorem modBankOf_fresh (s : State) (g : Agent) (f : Bank → Bank) : (modBankOf s g f).fresh = s.fresh := rfl

@[simp] theorem modStOf_ctl (s : State) (g : Agent) (f : StreamSt → StreamSt) : (modStOf s g f).ctl = s.ctl := rfl
@[simp] theorem modStOf_dies (s : State) (g : Agent) (f : StreamSt → StreamSt) : (modStOf s g f).dies = s.dies := rfl
@[simp] theorem modStOf_dlinks (s : State) (g : Agent) (f : StreamSt → StreamSt) : (modStOf s g f).dlinks = s.dlinks := rfl
@[simp] theorem modStOf_fabs (s : State) (g : Agent) (f : StreamSt → StreamSt) : (modStOf s g f).fabs = s.fabs := rfl
@[simp] theorem modStOf_ctxs (s : State) (g : Agent) (f : StreamSt → StreamSt) : (modStOf s g f).ctxs = s.ctxs := rfl
@[simp] theorem modStOf_caux (s : State) (g : Agent) (f : StreamSt → StreamSt) : (modStOf s g f).caux = s.caux := rfl
@[simp] theorem modStOf_ms (s : State) (g : Agent) (f : StreamSt → StreamSt) : (modStOf s g f).ms = s.ms := rfl
@[simp] theorem modStOf_disp (s : State) (g : Agent) (f : StreamSt → StreamSt) : (modStOf s g f).disp = s.disp := rfl
@[simp] theorem modStOf_bud (s : State) (g : Agent) (f : StreamSt → StreamSt) : (modStOf s g f).bud = s.bud := rfl
@[simp] theorem modStOf_cal (s : State) (g : Agent) (f : StreamSt → StreamSt) : (modStOf s g f).cal = s.cal := rfl
@[simp] theorem modStOf_care (s : State) (g : Agent) (f : StreamSt → StreamSt) : (modStOf s g f).care = s.care := rfl
@[simp] theorem modStOf_boot (s : State) (g : Agent) (f : StreamSt → StreamSt) : (modStOf s g f).boot = s.boot := rfl
@[simp] theorem modStOf_cur (s : State) (g : Agent) (f : StreamSt → StreamSt) : (modStOf s g f).cur = s.cur := rfl
@[simp] theorem modStOf_agenda (s : State) (g : Agent) (f : StreamSt → StreamSt) : (modStOf s g f).agenda = s.agenda := rfl
@[simp] theorem modStOf_turn (s : State) (g : Agent) (f : StreamSt → StreamSt) : (modStOf s g f).turn = s.turn := rfl
@[simp] theorem modStOf_nextId (s : State) (g : Agent) (f : StreamSt → StreamSt) : (modStOf s g f).nextId = s.nextId := rfl
@[simp] theorem modStOf_fresh (s : State) (g : Agent) (f : StreamSt → StreamSt) : (modStOf s g f).fresh = s.fresh := rfl

@[simp] theorem modRegsOf_ctl (s : State) (g : Agent) (f : StreamRegs → StreamRegs) : (modRegsOf s g f).ctl = s.ctl := rfl
@[simp] theorem modRegsOf_dies (s : State) (g : Agent) (f : StreamRegs → StreamRegs) : (modRegsOf s g f).dies = s.dies := rfl
@[simp] theorem modRegsOf_dlinks (s : State) (g : Agent) (f : StreamRegs → StreamRegs) : (modRegsOf s g f).dlinks = s.dlinks := rfl
@[simp] theorem modRegsOf_fabs (s : State) (g : Agent) (f : StreamRegs → StreamRegs) : (modRegsOf s g f).fabs = s.fabs := rfl
@[simp] theorem modRegsOf_ctxs (s : State) (g : Agent) (f : StreamRegs → StreamRegs) : (modRegsOf s g f).ctxs = s.ctxs := rfl
@[simp] theorem modRegsOf_caux (s : State) (g : Agent) (f : StreamRegs → StreamRegs) : (modRegsOf s g f).caux = s.caux := rfl
@[simp] theorem modRegsOf_ms (s : State) (g : Agent) (f : StreamRegs → StreamRegs) : (modRegsOf s g f).ms = s.ms := rfl
@[simp] theorem modRegsOf_disp (s : State) (g : Agent) (f : StreamRegs → StreamRegs) : (modRegsOf s g f).disp = s.disp := rfl
@[simp] theorem modRegsOf_bud (s : State) (g : Agent) (f : StreamRegs → StreamRegs) : (modRegsOf s g f).bud = s.bud := rfl
@[simp] theorem modRegsOf_cal (s : State) (g : Agent) (f : StreamRegs → StreamRegs) : (modRegsOf s g f).cal = s.cal := rfl
@[simp] theorem modRegsOf_care (s : State) (g : Agent) (f : StreamRegs → StreamRegs) : (modRegsOf s g f).care = s.care := rfl
@[simp] theorem modRegsOf_boot (s : State) (g : Agent) (f : StreamRegs → StreamRegs) : (modRegsOf s g f).boot = s.boot := rfl
@[simp] theorem modRegsOf_cur (s : State) (g : Agent) (f : StreamRegs → StreamRegs) : (modRegsOf s g f).cur = s.cur := rfl
@[simp] theorem modRegsOf_agenda (s : State) (g : Agent) (f : StreamRegs → StreamRegs) : (modRegsOf s g f).agenda = s.agenda := rfl
@[simp] theorem modRegsOf_turn (s : State) (g : Agent) (f : StreamRegs → StreamRegs) : (modRegsOf s g f).turn = s.turn := rfl
@[simp] theorem modRegsOf_nextId (s : State) (g : Agent) (f : StreamRegs → StreamRegs) : (modRegsOf s g f).nextId = s.nextId := rfl
@[simp] theorem modRegsOf_fresh (s : State) (g : Agent) (f : StreamRegs → StreamRegs) : (modRegsOf s g f).fresh = s.fresh := rfl

@[simp] theorem modDie_cores (s : State) (d : DieId) (f : Die → Die) : (modDie s d f).cores = s.cores := rfl
@[simp] theorem modDie_ctl (s : State) (d : DieId) (f : Die → Die) : (modDie s d f).ctl = s.ctl := rfl
@[simp] theorem modDie_dlinks (s : State) (d : DieId) (f : Die → Die) : (modDie s d f).dlinks = s.dlinks := rfl
@[simp] theorem modDie_fabs (s : State) (d : DieId) (f : Die → Die) : (modDie s d f).fabs = s.fabs := rfl
@[simp] theorem modDie_ctxs (s : State) (d : DieId) (f : Die → Die) : (modDie s d f).ctxs = s.ctxs := rfl
@[simp] theorem modDie_caux (s : State) (d : DieId) (f : Die → Die) : (modDie s d f).caux = s.caux := rfl
@[simp] theorem modDie_ms (s : State) (d : DieId) (f : Die → Die) : (modDie s d f).ms = s.ms := rfl
@[simp] theorem modDie_disp (s : State) (d : DieId) (f : Die → Die) : (modDie s d f).disp = s.disp := rfl
@[simp] theorem modDie_bud (s : State) (d : DieId) (f : Die → Die) : (modDie s d f).bud = s.bud := rfl
@[simp] theorem modDie_cal (s : State) (d : DieId) (f : Die → Die) : (modDie s d f).cal = s.cal := rfl
@[simp] theorem modDie_care (s : State) (d : DieId) (f : Die → Die) : (modDie s d f).care = s.care := rfl
@[simp] theorem modDie_boot (s : State) (d : DieId) (f : Die → Die) : (modDie s d f).boot = s.boot := rfl
@[simp] theorem modDie_cur (s : State) (d : DieId) (f : Die → Die) : (modDie s d f).cur = s.cur := rfl
@[simp] theorem modDie_agenda (s : State) (d : DieId) (f : Die → Die) : (modDie s d f).agenda = s.agenda := rfl
@[simp] theorem modDie_turn (s : State) (d : DieId) (f : Die → Die) : (modDie s d f).turn = s.turn := rfl
@[simp] theorem modDie_nextId (s : State) (d : DieId) (f : Die → Die) : (modDie s d f).nextId = s.nextId := rfl
@[simp] theorem modDie_fresh (s : State) (d : DieId) (f : Die → Die) : (modDie s d f).fresh = s.fresh := rfl

@[simp] theorem modCtx_cores (s : State) (x : CtxId) (f : Ctx → Ctx) : (modCtx s x f).cores = s.cores := rfl
@[simp] theorem modCtx_ctl (s : State) (x : CtxId) (f : Ctx → Ctx) : (modCtx s x f).ctl = s.ctl := rfl
@[simp] theorem modCtx_dies (s : State) (x : CtxId) (f : Ctx → Ctx) : (modCtx s x f).dies = s.dies := rfl
@[simp] theorem modCtx_dlinks (s : State) (x : CtxId) (f : Ctx → Ctx) : (modCtx s x f).dlinks = s.dlinks := rfl
@[simp] theorem modCtx_fabs (s : State) (x : CtxId) (f : Ctx → Ctx) : (modCtx s x f).fabs = s.fabs := rfl
@[simp] theorem modCtx_caux (s : State) (x : CtxId) (f : Ctx → Ctx) : (modCtx s x f).caux = s.caux := rfl
@[simp] theorem modCtx_ms (s : State) (x : CtxId) (f : Ctx → Ctx) : (modCtx s x f).ms = s.ms := rfl
@[simp] theorem modCtx_disp (s : State) (x : CtxId) (f : Ctx → Ctx) : (modCtx s x f).disp = s.disp := rfl
@[simp] theorem modCtx_bud (s : State) (x : CtxId) (f : Ctx → Ctx) : (modCtx s x f).bud = s.bud := rfl
@[simp] theorem modCtx_cal (s : State) (x : CtxId) (f : Ctx → Ctx) : (modCtx s x f).cal = s.cal := rfl
@[simp] theorem modCtx_care (s : State) (x : CtxId) (f : Ctx → Ctx) : (modCtx s x f).care = s.care := rfl
@[simp] theorem modCtx_boot (s : State) (x : CtxId) (f : Ctx → Ctx) : (modCtx s x f).boot = s.boot := rfl
@[simp] theorem modCtx_cur (s : State) (x : CtxId) (f : Ctx → Ctx) : (modCtx s x f).cur = s.cur := rfl
@[simp] theorem modCtx_agenda (s : State) (x : CtxId) (f : Ctx → Ctx) : (modCtx s x f).agenda = s.agenda := rfl
@[simp] theorem modCtx_turn (s : State) (x : CtxId) (f : Ctx → Ctx) : (modCtx s x f).turn = s.turn := rfl
@[simp] theorem modCtx_nextId (s : State) (x : CtxId) (f : Ctx → Ctx) : (modCtx s x f).nextId = s.nextId := rfl
@[simp] theorem modCtx_fresh (s : State) (x : CtxId) (f : Ctx → Ctx) : (modCtx s x f).fresh = s.fresh := rfl

@[simp] theorem modCaux_cores (s : State) (x : CtxId) (f : CtxAux → CtxAux) : (modCaux s x f).cores = s.cores := rfl
@[simp] theorem modCaux_ctl (s : State) (x : CtxId) (f : CtxAux → CtxAux) : (modCaux s x f).ctl = s.ctl := rfl
@[simp] theorem modCaux_dies (s : State) (x : CtxId) (f : CtxAux → CtxAux) : (modCaux s x f).dies = s.dies := rfl
@[simp] theorem modCaux_dlinks (s : State) (x : CtxId) (f : CtxAux → CtxAux) : (modCaux s x f).dlinks = s.dlinks := rfl
@[simp] theorem modCaux_fabs (s : State) (x : CtxId) (f : CtxAux → CtxAux) : (modCaux s x f).fabs = s.fabs := rfl
@[simp] theorem modCaux_ctxs (s : State) (x : CtxId) (f : CtxAux → CtxAux) : (modCaux s x f).ctxs = s.ctxs := rfl
@[simp] theorem modCaux_ms (s : State) (x : CtxId) (f : CtxAux → CtxAux) : (modCaux s x f).ms = s.ms := rfl
@[simp] theorem modCaux_disp (s : State) (x : CtxId) (f : CtxAux → CtxAux) : (modCaux s x f).disp = s.disp := rfl
@[simp] theorem modCaux_bud (s : State) (x : CtxId) (f : CtxAux → CtxAux) : (modCaux s x f).bud = s.bud := rfl
@[simp] theorem modCaux_cal (s : State) (x : CtxId) (f : CtxAux → CtxAux) : (modCaux s x f).cal = s.cal := rfl
@[simp] theorem modCaux_care (s : State) (x : CtxId) (f : CtxAux → CtxAux) : (modCaux s x f).care = s.care := rfl
@[simp] theorem modCaux_boot (s : State) (x : CtxId) (f : CtxAux → CtxAux) : (modCaux s x f).boot = s.boot := rfl
@[simp] theorem modCaux_cur (s : State) (x : CtxId) (f : CtxAux → CtxAux) : (modCaux s x f).cur = s.cur := rfl
@[simp] theorem modCaux_agenda (s : State) (x : CtxId) (f : CtxAux → CtxAux) : (modCaux s x f).agenda = s.agenda := rfl
@[simp] theorem modCaux_turn (s : State) (x : CtxId) (f : CtxAux → CtxAux) : (modCaux s x f).turn = s.turn := rfl
@[simp] theorem modCaux_nextId (s : State) (x : CtxId) (f : CtxAux → CtxAux) : (modCaux s x f).nextId = s.nextId := rfl
@[simp] theorem modCaux_fresh (s : State) (x : CtxId) (f : CtxAux → CtxAux) : (modCaux s x f).fresh = s.fresh := rfl

@[simp] theorem modMs_cores (s : State) (f : MemSys → MemSys) : (modMs s f).cores = s.cores := rfl
@[simp] theorem modMs_ctl (s : State) (f : MemSys → MemSys) : (modMs s f).ctl = s.ctl := rfl
@[simp] theorem modMs_dies (s : State) (f : MemSys → MemSys) : (modMs s f).dies = s.dies := rfl
@[simp] theorem modMs_dlinks (s : State) (f : MemSys → MemSys) : (modMs s f).dlinks = s.dlinks := rfl
@[simp] theorem modMs_fabs (s : State) (f : MemSys → MemSys) : (modMs s f).fabs = s.fabs := rfl
@[simp] theorem modMs_ctxs (s : State) (f : MemSys → MemSys) : (modMs s f).ctxs = s.ctxs := rfl
@[simp] theorem modMs_caux (s : State) (f : MemSys → MemSys) : (modMs s f).caux = s.caux := rfl
@[simp] theorem modMs_disp (s : State) (f : MemSys → MemSys) : (modMs s f).disp = s.disp := rfl
@[simp] theorem modMs_bud (s : State) (f : MemSys → MemSys) : (modMs s f).bud = s.bud := rfl
@[simp] theorem modMs_cal (s : State) (f : MemSys → MemSys) : (modMs s f).cal = s.cal := rfl
@[simp] theorem modMs_care (s : State) (f : MemSys → MemSys) : (modMs s f).care = s.care := rfl
@[simp] theorem modMs_boot (s : State) (f : MemSys → MemSys) : (modMs s f).boot = s.boot := rfl
@[simp] theorem modMs_cur (s : State) (f : MemSys → MemSys) : (modMs s f).cur = s.cur := rfl
@[simp] theorem modMs_agenda (s : State) (f : MemSys → MemSys) : (modMs s f).agenda = s.agenda := rfl
@[simp] theorem modMs_turn (s : State) (f : MemSys → MemSys) : (modMs s f).turn = s.turn := rfl
@[simp] theorem modMs_nextId (s : State) (f : MemSys → MemSys) : (modMs s f).nextId = s.nextId := rfl
@[simp] theorem modMs_fresh (s : State) (f : MemSys → MemSys) : (modMs s f).fresh = s.fresh := rfl

@[simp] theorem modDisp_cores (s : State) (f : Dispatcher → Dispatcher) : (modDisp s f).cores = s.cores := rfl
@[simp] theorem modDisp_ctl (s : State) (f : Dispatcher → Dispatcher) : (modDisp s f).ctl = s.ctl := rfl
@[simp] theorem modDisp_dies (s : State) (f : Dispatcher → Dispatcher) : (modDisp s f).dies = s.dies := rfl
@[simp] theorem modDisp_dlinks (s : State) (f : Dispatcher → Dispatcher) : (modDisp s f).dlinks = s.dlinks := rfl
@[simp] theorem modDisp_fabs (s : State) (f : Dispatcher → Dispatcher) : (modDisp s f).fabs = s.fabs := rfl
@[simp] theorem modDisp_ctxs (s : State) (f : Dispatcher → Dispatcher) : (modDisp s f).ctxs = s.ctxs := rfl
@[simp] theorem modDisp_caux (s : State) (f : Dispatcher → Dispatcher) : (modDisp s f).caux = s.caux := rfl
@[simp] theorem modDisp_ms (s : State) (f : Dispatcher → Dispatcher) : (modDisp s f).ms = s.ms := rfl
@[simp] theorem modDisp_bud (s : State) (f : Dispatcher → Dispatcher) : (modDisp s f).bud = s.bud := rfl
@[simp] theorem modDisp_cal (s : State) (f : Dispatcher → Dispatcher) : (modDisp s f).cal = s.cal := rfl
@[simp] theorem modDisp_care (s : State) (f : Dispatcher → Dispatcher) : (modDisp s f).care = s.care := rfl
@[simp] theorem modDisp_boot (s : State) (f : Dispatcher → Dispatcher) : (modDisp s f).boot = s.boot := rfl
@[simp] theorem modDisp_cur (s : State) (f : Dispatcher → Dispatcher) : (modDisp s f).cur = s.cur := rfl
@[simp] theorem modDisp_agenda (s : State) (f : Dispatcher → Dispatcher) : (modDisp s f).agenda = s.agenda := rfl
@[simp] theorem modDisp_turn (s : State) (f : Dispatcher → Dispatcher) : (modDisp s f).turn = s.turn := rfl
@[simp] theorem modDisp_nextId (s : State) (f : Dispatcher → Dispatcher) : (modDisp s f).nextId = s.nextId := rfl
@[simp] theorem modDisp_fresh (s : State) (f : Dispatcher → Dispatcher) : (modDisp s f).fresh = s.fresh := rfl

@[simp] theorem modCtl_cores (s : State) (c : CoreId) (f : CoreCtl → CoreCtl) : (modCtl s c f).cores = s.cores := rfl
@[simp] theorem modCtl_dies (s : State) (c : CoreId) (f : CoreCtl → CoreCtl) : (modCtl s c f).dies = s.dies := rfl
@[simp] theorem modCtl_dlinks (s : State) (c : CoreId) (f : CoreCtl → CoreCtl) : (modCtl s c f).dlinks = s.dlinks := rfl
@[simp] theorem modCtl_fabs (s : State) (c : CoreId) (f : CoreCtl → CoreCtl) : (modCtl s c f).fabs = s.fabs := rfl
@[simp] theorem modCtl_ctxs (s : State) (c : CoreId) (f : CoreCtl → CoreCtl) : (modCtl s c f).ctxs = s.ctxs := rfl
@[simp] theorem modCtl_caux (s : State) (c : CoreId) (f : CoreCtl → CoreCtl) : (modCtl s c f).caux = s.caux := rfl
@[simp] theorem modCtl_ms (s : State) (c : CoreId) (f : CoreCtl → CoreCtl) : (modCtl s c f).ms = s.ms := rfl
@[simp] theorem modCtl_disp (s : State) (c : CoreId) (f : CoreCtl → CoreCtl) : (modCtl s c f).disp = s.disp := rfl
@[simp] theorem modCtl_bud (s : State) (c : CoreId) (f : CoreCtl → CoreCtl) : (modCtl s c f).bud = s.bud := rfl
@[simp] theorem modCtl_cal (s : State) (c : CoreId) (f : CoreCtl → CoreCtl) : (modCtl s c f).cal = s.cal := rfl
@[simp] theorem modCtl_care (s : State) (c : CoreId) (f : CoreCtl → CoreCtl) : (modCtl s c f).care = s.care := rfl
@[simp] theorem modCtl_boot (s : State) (c : CoreId) (f : CoreCtl → CoreCtl) : (modCtl s c f).boot = s.boot := rfl
@[simp] theorem modCtl_cur (s : State) (c : CoreId) (f : CoreCtl → CoreCtl) : (modCtl s c f).cur = s.cur := rfl
@[simp] theorem modCtl_agenda (s : State) (c : CoreId) (f : CoreCtl → CoreCtl) : (modCtl s c f).agenda = s.agenda := rfl
@[simp] theorem modCtl_turn (s : State) (c : CoreId) (f : CoreCtl → CoreCtl) : (modCtl s c f).turn = s.turn := rfl
@[simp] theorem modCtl_nextId (s : State) (c : CoreId) (f : CoreCtl → CoreCtl) : (modCtl s c f).nextId = s.nextId := rfl
@[simp] theorem modCtl_fresh (s : State) (c : CoreId) (f : CoreCtl → CoreCtl) : (modCtl s c f).fresh = s.fresh := rfl

@[simp] theorem touch_cores (s : State) (x : CtxId) (d : DieId) : (touch s x d).cores = s.cores := rfl
@[simp] theorem touch_ctl (s : State) (x : CtxId) (d : DieId) : (touch s x d).ctl = s.ctl := rfl
@[simp] theorem touch_dies (s : State) (x : CtxId) (d : DieId) : (touch s x d).dies = s.dies := rfl
@[simp] theorem touch_dlinks (s : State) (x : CtxId) (d : DieId) : (touch s x d).dlinks = s.dlinks := rfl
@[simp] theorem touch_fabs (s : State) (x : CtxId) (d : DieId) : (touch s x d).fabs = s.fabs := rfl
@[simp] theorem touch_caux (s : State) (x : CtxId) (d : DieId) : (touch s x d).caux = s.caux := rfl
@[simp] theorem touch_ms (s : State) (x : CtxId) (d : DieId) : (touch s x d).ms = s.ms := rfl
@[simp] theorem touch_disp (s : State) (x : CtxId) (d : DieId) : (touch s x d).disp = s.disp := rfl
@[simp] theorem touch_bud (s : State) (x : CtxId) (d : DieId) : (touch s x d).bud = s.bud := rfl
@[simp] theorem touch_cal (s : State) (x : CtxId) (d : DieId) : (touch s x d).cal = s.cal := rfl
@[simp] theorem touch_care (s : State) (x : CtxId) (d : DieId) : (touch s x d).care = s.care := rfl
@[simp] theorem touch_boot (s : State) (x : CtxId) (d : DieId) : (touch s x d).boot = s.boot := rfl
@[simp] theorem touch_cur (s : State) (x : CtxId) (d : DieId) : (touch s x d).cur = s.cur := rfl
@[simp] theorem touch_agenda (s : State) (x : CtxId) (d : DieId) : (touch s x d).agenda = s.agenda := rfl
@[simp] theorem touch_turn (s : State) (x : CtxId) (d : DieId) : (touch s x d).turn = s.turn := rfl
@[simp] theorem touch_nextId (s : State) (x : CtxId) (d : DieId) : (touch s x d).nextId = s.nextId := rfl
@[simp] theorem touch_fresh (s : State) (x : CtxId) (d : DieId) : (touch s x d).fresh = s.fresh := rfl

/-! ### Reading back -/

@[simp] theorem getCore_setCore (s : State) (c : CoreId) (k : Core) : getCore (setCore s c k) c = k := by
  simp [getCore, setCore]

theorem getCore_setCore_ne (s : State) (c d : CoreId) (k : Core) (h : c ≠ d) : getCore (setCore s c k) d = getCore s d := by
  simp [getCore, setCore, vset_get, h]

@[simp] theorem getCore_modCore (s : State) (c : CoreId) (f : Core → Core) : getCore (modCore s c f) c = f (getCore s c) := by
  simp [modCore]

theorem getCore_modCore_ne (s : State) (c d : CoreId) (f : Core → Core) (h : c ≠ d) :
    getCore (modCore s c f) d = getCore s d := getCore_setCore_ne s c d _ h

@[simp] theorem bank_setBank (k : Core) (b : BankId) (x : Bank) : (k.setBank b x).bank b = x := by cases b <;> rfl

theorem bank_setBank_ne (k : Core) (b c : BankId) (x : Bank) (h : b ≠ c) : (k.setBank b x).bank c = k.bank c := by
  cases b <;> cases c <;> first | rfl | exact absurd rfl h

@[simp] theorem aux_setBank (k : Core) (b c : BankId) (x : Bank) : (k.setBank b x).aux c = k.aux c := by
  cases b <;> cases c <;> rfl

@[simp] theorem aux_setAux (k : Core) (b : BankId) (x : BankAux) : (k.setAux b x).aux b = x := by cases b <;> rfl

theorem aux_setAux_ne (k : Core) (b c : BankId) (x : BankAux) (h : b ≠ c) : (k.setAux b x).aux c = k.aux c := by
  cases b <;> cases c <;> first | rfl | exact absurd rfl h

@[simp] theorem bank_setAux (k : Core) (b c : BankId) (x : BankAux) : (k.setAux b x).bank c = k.bank c := by
  cases b <;> cases c <;> rfl

@[simp] theorem setBank_spad' (k : Core) (b : BankId) (x : Bank) : (k.setBank b x).spad = k.spad := by cases b <;> rfl
@[simp] theorem setAux_spad' (k : Core) (b : BankId) (x : BankAux) : (k.setAux b x).spad = k.spad := by cases b <;> rfl
@[simp] theorem setBank_acc' (k : Core) (b : BankId) (x : Bank) : (k.setBank b x).acc = k.acc := by cases b <;> rfl
@[simp] theorem setAux_acc' (k : Core) (b : BankId) (x : BankAux) : (k.setAux b x).acc = k.acc := by cases b <;> rfl
@[simp] theorem setBank_badSpad' (k : Core) (b : BankId) (x : Bank) : (k.setBank b x).badSpad = k.badSpad := by cases b <;> rfl
@[simp] theorem setAux_badSpad' (k : Core) (b : BankId) (x : BankAux) : (k.setAux b x).badSpad = k.badSpad := by cases b <;> rfl
@[simp] theorem setBank_badAcc' (k : Core) (b : BankId) (x : Bank) : (k.setBank b x).badAcc = k.badAcc := by cases b <;> rfl
@[simp] theorem setAux_badAcc' (k : Core) (b : BankId) (x : BankAux) : (k.setAux b x).badAcc = k.badAcc := by cases b <;> rfl
@[simp] theorem setBank_nb' (k : Core) (b : BankId) (x : Bank) : (k.setBank b x).nb = k.nb := by cases b <;> rfl
@[simp] theorem setAux_nb' (k : Core) (b : BankId) (x : BankAux) : (k.setAux b x).nb = k.nb := by cases b <;> rfl
@[simp] theorem setBank_work' (k : Core) (b : BankId) (x : Bank) : (k.setBank b x).work = k.work := by cases b <;> rfl
@[simp] theorem setAux_work' (k : Core) (b : BankId) (x : BankAux) : (k.setAux b x).work = k.work := by cases b <;> rfl
@[simp] theorem setBank_urgen' (k : Core) (b : BankId) (x : Bank) : (k.setBank b x).urgen = k.urgen := by cases b <;> rfl
@[simp] theorem setAux_urgen' (k : Core) (b : BankId) (x : BankAux) : (k.setAux b x).urgen = k.urgen := by cases b <;> rfl
@[simp] theorem setBank_accres' (k : Core) (b : BankId) (x : Bank) : (k.setBank b x).accres = k.accres := by cases b <;> rfl
@[simp] theorem setAux_accres' (k : Core) (b : BankId) (x : BankAux) : (k.setAux b x).accres = k.accres := by cases b <;> rfl
@[simp] theorem setBank_swap' (k : Core) (b : BankId) (x : Bank) : (k.setBank b x).swap = k.swap := by cases b <;> rfl
@[simp] theorem setAux_swap' (k : Core) (b : BankId) (x : BankAux) : (k.setAux b x).swap = k.swap := by cases b <;> rfl
@[simp] theorem setBank_tlb' (k : Core) (b : BankId) (x : Bank) : (k.setBank b x).tlb = k.tlb := by cases b <;> rfl
@[simp] theorem setAux_tlb' (k : Core) (b : BankId) (x : BankAux) : (k.setAux b x).tlb = k.tlb := by cases b <;> rfl

@[simp] theorem getBank_modBank (s : State) (c : CoreId) (b : BankId) (f : Bank → Bank) :
    getBank (modBank s c b f) c b = f (getBank s c b) := by simp [getBank, modBank, setBank]

theorem getBank_modBank_bank (s : State) (c : CoreId) (a b : BankId) (f : Bank → Bank) (h : b ≠ a) :
    getBank (modBank s c b f) c a = getBank s c a := by
  simp [getBank, modBank, setBank, bank_setBank_ne _ _ _ _ h]

theorem getBank_modBank_core (s : State) (c d : CoreId) (a b : BankId) (f : Bank → Bank) (h : c ≠ d) :
    getBank (modBank s c b f) d a = getBank s d a := by
  simp [getBank, modBank, setBank, getCore_modCore_ne _ _ _ _ h]

@[simp] theorem getAux_modBank (s : State) (c d : CoreId) (a b : BankId) (f : Bank → Bank) :
    getAux (modBank s c b f) d a = getAux s d a := by
  by_cases h : c = d
  · subst h; simp [getAux, modBank, setBank]
  · simp [getAux, modBank, setBank, getCore_modCore_ne _ _ _ _ h]

@[simp] theorem getAux_modAux (s : State) (c : CoreId) (b : BankId) (f : BankAux → BankAux) :
    getAux (modAux s c b f) c b = f (getAux s c b) := by simp [getAux, modAux]

@[simp] theorem getBank_modAux (s : State) (c d : CoreId) (a b : BankId) (f : BankAux → BankAux) :
    getBank (modAux s c b f) d a = getBank s d a := by
  by_cases h : c = d
  · subst h; simp [getBank, modAux]
  · simp [getBank, modAux, getCore_modCore_ne _ _ _ _ h]

@[simp] theorem getDie_modDie (s : State) (d : DieId) (f : Die → Die) : getDie (modDie s d f) d = f (getDie s d) := by
  simp [getDie, modDie]

theorem getDie_modDie_ne (s : State) (d e : DieId) (f : Die → Die) (h : d ≠ e) :
    getDie (modDie s d f) e = getDie s e := by simp [getDie, modDie, vmod_get, h]

@[simp] theorem getCtx_modCtx (s : State) (x : CtxId) (f : Ctx → Ctx) : getCtx (modCtx s x f) x = f (getCtx s x) := by
  simp [getCtx, modCtx]

theorem getCtx_modCtx_ne (s : State) (x y : CtxId) (f : Ctx → Ctx) (h : x ≠ y) :
    getCtx (modCtx s x f) y = getCtx s y := by simp [getCtx, modCtx, vmod_get, h]

@[simp] theorem getCaux_modCaux (s : State) (x : CtxId) (f : CtxAux → CtxAux) :
    getCaux (modCaux s x f) x = f (getCaux s x) := by simp [getCaux, modCaux]

@[simp] theorem st_setSt (k : Bank) (t : Stream) (x : StreamSt) : (k.setSt t x).st t = x := by cases t <;> rfl

@[simp] theorem st_modSt (k : Bank) (t : Stream) (f : StreamSt → StreamSt) : (k.modSt t f).st t = f (k.st t) := by
  simp [Bank.modSt]

@[simp] theorem regs_setRegs (k : Bank) (t : Stream) (x : StreamRegs) : (k.setRegs t x).regs t = x := by cases t <;> rfl

@[simp] theorem regs_setSt (k : Bank) (t u : Stream) (x : StreamSt) : (k.setSt t x).regs u = k.regs u := by
  cases t <;> cases u <;> rfl

@[simp] theorem st_setRegs (k : Bank) (t u : Stream) (x : StreamRegs) : (k.setRegs t x).st u = k.st u := by
  cases t <;> cases u <;> rfl

end Sys2Proof.Machine
end

