-- ==== Sys2Proof/Laws/Links.lean ====
section
/-! SUPPORT. What a packet takes with it (R24), what a change of a link leaves, and the flit that arrives as it was sent (R344). -/

namespace Sys2Proof.Machine

/-! ### Packets -/

/-- R24: a packet that enters the outbox of a die carries the die and its incarnation. -/
theorem post_outbox (s : State) (p : Payload) :
    (getDie (post s p) p.src).outbox = (getDie s p.src).outbox ++ [{ p with incarnation := (getDie s p.src).inc }] := by
  simp [post, postAll]

/-- It changes nothing but that outbox. -/
theorem post_other (s : State) (p : Payload) (d : DieId) (h : p.src ≠ d) : getDie (post s p) d = getDie s d :=
  getDie_modDie_ne _ _ _ _ h

@[simp] theorem post_ms (s : State) (p : Payload) : (post s p).ms = s.ms := rfl
@[simp] theorem post_cores (s : State) (p : Payload) : (post s p).cores = s.cores := rfl

/-! ### Links -/

theorem getLink_modLink (s : State) (l : LinkId) (f : Link → Link) : getLink (modLink s l f) l = f (getLink s l) := by
  cases l with
  | dl d m =>
    have h : 8 * d.val + m.val < 80 := by omega
    simp [getLink, modLink, dlink, h]
  | fab p => simp [getLink, modLink]

@[simp] theorem modDie_getLink (s : State) (d : DieId) (f : Die → Die) (l : LinkId) : getLink (modDie s d f) l = getLink s l := by
  cases l <;> rfl

/-! ### Flits -/

theorem toBytes_length (n : Nat) : ∀ v, (toBytes n v).length = n := by
  induction n with
  | zero => exact fun _ => rfl
  | succ n ih => exact fun v => by simp [toBytes, ih]

theorem flitBody_length (f : Flit) : (flitBody f).length = 248 := by
  simp [flitBody, toBytes_length]

/-- Two bytes hold the number that they were made from. -/
theorem two_bytes (v : BitVec 16) : BitVec.ofNat 16 (ofBytes (toBytes 2 v.toNat)) = v := by
  apply BitVec.eq_of_toNat_eq
  have h := v.isLt
  simp [toBytes, ofBytes]
  omega

/-- The bytes before the CRC, and the CRC. -/
theorem flitBytes_body (f : Flit) : (flitBytes f).take 248 = flitBody f := by
  rw [flitBytes, List.take_left' (flitBody_length f)]

theorem flitBytes_crc (f : Flit) : (flitBytes f).drop 248 = toBytes 8 (crc64 (flitBody f)).toNat := by
  rw [flitBytes, List.drop_left' (flitBody_length f)]

/-- The header of a flit is read as it was written. -/
theorem readHeader_flitBytes (f : Flit) : readHeader f (flitBytes f) = f := by
  obtain ⟨seq, ack, nak, pays⟩ := f
  have h2 := fun v : BitVec 16 => two_bytes v
  simp [toBytes] at h2
  cases nak <;> cases pays <;> simp [readHeader, flitBytes, flitBody, toBytes, h2]

/-- A flit of which no byte has changed passes its CRC and is read as it was sent (R344). -/
theorem arrives_clean (f : Flit) : arrives f [] = some f := by
  simp [arrives, withErrors, crcPasses, flitBytes_body, flitBytes_crc, readHeader_flitBytes]

/-- A flit of whose CRC one bit has changed does not pass (R344). -/
theorem arrives_changed (f : Flit) : arrives f [(255, 1)] = none := by
  have h : ∀ (as bs : List Byte), as.length = 248 → (as ++ bs).modify 255 (· ^^^ 1) = as ++ bs.modify 7 (· ^^^ 1) := by
    intro as bs ha
    apply List.ext_getElem?
    intro i
    simp only [List.getElem?_modify, List.getElem?_append, ha]
    by_cases hi : i < 248
    · have h0 : ¬ 255 = i := by omega
      simp [hi, h0]
    · have h1 : (255 = i) = (7 = i - 248) := propext (by omega)
      simp [hi, h1]
  have h' : withErrors (flitBytes f) [(255, 1)] = flitBody f ++ (toBytes 8 (crc64 (flitBody f)).toNat).modify 7 (· ^^^ 1) :=
    h _ _ (flitBody_length f)
  simp only [arrives, crcPasses, h', List.drop_left' (flitBody_length f), List.take_left' (flitBody_length f)]
  simp [toBytes]

end Sys2Proof.Machine
end

