-- ==== Sys2Proof/Laws/Memory.lean ====
section
/-! SUPPORT. The canonical form of memory is kept by every memory operation, and a byte written reads back. -/

namespace Sys2Proof.Machine

/-! ### The canonical form -/

theorem Mem.okFrom_mono {m : Mem} : ∀ {lo hi : Nat}, lo ≤ hi → Mem.okFrom hi m = true → Mem.okFrom lo m = true := by
  intro lo hi h ok
  cases m with
  | nil => rfl
  | cons c m =>
    obtain ⟨a, b⟩ := c
    simp only [Mem.okFrom, Bool.and_eq_true, decide_eq_true_eq] at ok ⊢
    exact ⟨⟨le_trans h ok.1.1, ok.1.2⟩, ok.2⟩

theorem Mem.okFrom_wf {m : Mem} {lo : Nat} (h : Mem.okFrom lo m = true) : Mem.wf m = true :=
  Mem.okFrom_mono (Nat.zero_le lo) h

theorem Mem.okFrom_filter (p : Host.Cell → Bool) {m : Mem} :
    ∀ {lo : Nat}, Mem.okFrom lo m = true → Mem.okFrom lo (m.filter p) = true := by
  induction m with
  | nil => intro lo _; rfl
  | cons c m ih =>
    obtain ⟨a, b⟩ := c
    intro lo ok
    simp only [Mem.okFrom, Bool.and_eq_true, decide_eq_true_eq] at ok
    rw [List.filter_cons]
    split
    · simp only [Mem.okFrom, Bool.and_eq_true, decide_eq_true_eq]
      exact ⟨ok.1, ih ok.2⟩
    · exact ih (Mem.okFrom_mono (by omega) ok.2)

theorem Mem.wf_filter (p : Host.Cell → Bool) {m : Mem} (h : Mem.wf m = true) : Mem.wf (m.filter p) = true :=
  Mem.okFrom_filter p h

theorem Mem.okFrom_append {m₂ : Mem} {hi : Nat} : ∀ {m₁ : Mem} {lo : Nat}, lo ≤ hi → Mem.okFrom lo m₁ = true →
    (∀ c ∈ m₁, c.1 < hi) → Mem.okFrom hi m₂ = true → Mem.okFrom lo (m₁ ++ m₂) = true := by
  intro m₁
  induction m₁ with
  | nil => intro lo h _ _ h₂; exact Mem.okFrom_mono h h₂
  | cons c m ih =>
    obtain ⟨a, b⟩ := c
    intro lo _ ok lt h₂
    simp only [Mem.okFrom, Bool.and_eq_true, decide_eq_true_eq, List.cons_append] at ok ⊢
    have ha : a < hi := lt (a, b) (List.mem_cons_self ..)
    exact ⟨ok.1, ih (by omega) ok.2 (fun c hc => lt c (List.mem_cons_of_mem _ hc)) h₂⟩

theorem Mem.okFrom_write (x : Nat) (v : Byte) : ∀ {m : Mem} {lo : Nat}, lo ≤ x → Mem.okFrom lo m = true →
    Mem.okFrom lo (Mem.write m x v) = true := by
  intro m
  induction m with
  | nil =>
    intro lo h _
    simp only [Mem.write]
    split
    · rfl
    · next hv =>
      simp only [Mem.okFrom, Bool.and_eq_true, decide_eq_true_eq, Bool.and_true]
      exact ⟨h, by simpa using hv⟩
  | cons c m ih =>
    obtain ⟨a, b⟩ := c
    intro lo h ok
    simp only [Mem.okFrom, Bool.and_eq_true, decide_eq_true_eq] at ok
    simp only [Mem.write]
    split
    · simp only [Mem.okFrom, Bool.and_eq_true, decide_eq_true_eq]
      exact ⟨ok.1, ih (by omega) ok.2⟩
    · split
      · split
        · exact Mem.okFrom_mono (by omega) ok.2
        · next hv =>
          simp only [Mem.okFrom, Bool.and_eq_true, decide_eq_true_eq]
          exact ⟨⟨ok.1.1, by simpa using hv⟩, ok.2⟩
      · split
        · simp only [Mem.okFrom, Bool.and_eq_true, decide_eq_true_eq]; exact ok
        · next hv =>
          simp only [Mem.okFrom, Bool.and_eq_true, decide_eq_true_eq]
          exact ⟨⟨h, by simpa using hv⟩, ⟨by omega, ok.1.2⟩, ok.2⟩

theorem Mem.wf_write {m : Mem} (x : Nat) (v : Byte) (h : Mem.wf m = true) : Mem.wf (Mem.write m x v) = true :=
  Mem.okFrom_write x v (Nat.zero_le x) h

theorem Mem.wf_writeCells (cs : List Host.Cell) : ∀ {m : Mem}, Mem.wf m = true → Mem.wf (Mem.writeCells m cs) = true := by
  induction cs with
  | nil => intro m h; exact h
  | cons c cs ih => obtain ⟨a, b⟩ := c; intro m h; exact ih (Mem.wf_write a b h)

theorem cellsAt_okFrom (bs : List Byte) : ∀ a, Mem.okFrom a ((cellsAt a bs).filter (fun c => c.2 != 0)) = true := by
  induction bs with
  | nil => intro a; rfl
  | cons b bs ih =>
    intro a
    simp only [cellsAt, List.filter_cons]
    split
    · next hb =>
      simp only [Mem.okFrom, Bool.and_eq_true, decide_eq_true_eq]
      exact ⟨⟨le_refl a, hb⟩, ih (a + 1)⟩
    · exact Mem.okFrom_mono (Nat.le_succ a) (ih (a + 1))

theorem cellsAt_lt (bs : List Byte) : ∀ a, ∀ c ∈ cellsAt a bs, c.1 < a + bs.length := by
  induction bs with
  | nil => intro a c h; simp [cellsAt] at h
  | cons b bs ih =>
    intro a c h
    simp only [cellsAt, List.mem_cons] at h
    rcases h with rfl | h
    · simp
    · have := ih (a + 1) c h
      simp only [List.length_cons]
      omega

theorem Mem.okFrom_ge {m : Mem} : ∀ {lo : Nat} (hi : Nat), Mem.okFrom lo m = true → (∀ c ∈ m, hi ≤ c.1) →
    Mem.okFrom hi m = true := by
  intro lo hi ok ge
  cases m with
  | nil => rfl
  | cons c m =>
    obtain ⟨a, b⟩ := c
    simp only [Mem.okFrom, Bool.and_eq_true, decide_eq_true_eq] at ok ⊢
    exact ⟨⟨ge (a, b) (List.mem_cons_self ..), ok.1.2⟩, ok.2⟩

theorem Mem.wf_store {m : Mem} (a : Nat) (bs : List Byte) (h : Mem.wf m = true) : Mem.wf (Mem.store m a bs) = true := by
  have hi : Mem.okFrom (a + bs.length) (m.filter (fun c => a + bs.length ≤ c.1)) = true :=
    Mem.okFrom_ge _ (Mem.okFrom_filter _ h) (by intro c hc; simpa using (List.mem_filter.mp hc).2)
  have mid : Mem.okFrom a ((cellsAt a bs).filter (fun c => c.2 != 0) ++ m.filter (fun c => a + bs.length ≤ c.1)) = true :=
    Mem.okFrom_append (Nat.le_add_right ..) (cellsAt_okFrom bs a)
      (by intro c hc; exact cellsAt_lt bs a c (List.mem_filter.mp hc).1) hi
  unfold Mem.wf Mem.store
  rw [List.append_assoc]
  exact Mem.okFrom_append (Nat.zero_le a) (Mem.okFrom_filter _ h)
    (by intro c hc; simpa using (List.mem_filter.mp hc).2) mid

theorem Mem.wf_clear {m : Mem} (a n : Nat) (h : Mem.wf m = true) : Mem.wf (Mem.clear m a n) = true := Mem.wf_filter _ h

/-! ### Reading -/

theorem Mem.read_okFrom {m : Mem} : ∀ {lo x : Nat}, Mem.okFrom lo m = true → x < lo → Mem.read m x = 0 := by
  induction m with
  | nil => intro lo x _ _; rfl
  | cons c m ih =>
    obtain ⟨a, b⟩ := c
    intro lo x ok h
    simp only [Mem.okFrom, Bool.and_eq_true, decide_eq_true_eq] at ok
    rw [Mem.read, if_neg (by omega)]
    exact ih ok.2 (by omega)

theorem Mem.read_write_from (x : Nat) (v : Byte) (y : Nat) : ∀ {m : Mem} {lo : Nat}, Mem.okFrom lo m = true →
    Mem.read (Mem.write m x v) y = if y = x then v else Mem.read m y := by
  intro m
  induction m with
  | nil =>
    intro lo _
    simp only [Mem.write]
    split
    · next hv => by_cases h : y = x <;> simp [Mem.read, h, hv]
    · by_cases h : y = x
      · simp [Mem.read, h]
      · simp [Mem.read, h, Ne.symm h]
  | cons c m ih =>
    obtain ⟨a, b⟩ := c
    intro lo ok
    simp only [Mem.okFrom, Bool.and_eq_true, decide_eq_true_eq] at ok
    simp only [Mem.write]
    split
    · next hax =>
      simp only [Mem.read]
      rw [ih ok.2]
      by_cases h : a = y
      · subst h; simp [Nat.ne_of_lt hax]
      · simp [h]
    · split
      · next hax hx =>
        subst hx
        split
        · next hv =>
          by_cases h : y = a
          · subst h; simpa [hv] using Mem.read_okFrom ok.2 (Nat.lt_succ_self y)
          · simp [Mem.read, h, Ne.symm h]
        · by_cases h : y = a
          · subst h; simp [Mem.read]
          · simp [Mem.read, h, Ne.symm h]
      · next hax hx =>
        split
        · next hv =>
          by_cases h : y = x
          · subst h
            rw [if_pos rfl, hv, Mem.read, if_neg hx]
            exact Mem.read_okFrom ok.2 (by omega)
          · rw [if_neg h]
        · by_cases h : y = x
          · subst h; simp [Mem.read]
          · simp only [Mem.read, if_neg (Ne.symm h), if_neg h]

/-- A byte written reads back, and no other byte changes. -/
theorem Mem.read_write {m : Mem} (x : Nat) (v : Byte) (y : Nat) (h : Mem.wf m = true) :
    Mem.read (Mem.write m x v) y = if y = x then v else Mem.read m y := Mem.read_write_from x v y h

/-- In canonical form, two memories that read alike are the same list. -/
theorem Mem.ext_from : ∀ {m₁ m₂ : Mem} {lo : Nat}, Mem.okFrom lo m₁ = true → Mem.okFrom lo m₂ = true →
    (∀ x, Mem.read m₁ x = Mem.read m₂ x) → m₁ = m₂ := by
  intro m₁
  induction m₁ with
  | nil =>
    intro m₂ lo _ h₂ h
    cases m₂ with
    | nil => rfl
    | cons c m =>
      obtain ⟨a, b⟩ := c
      simp only [Mem.okFrom, Bool.and_eq_true, decide_eq_true_eq] at h₂
      have := h a
      simp only [Mem.read, if_pos] at this
      simp [← this] at h₂
  | cons c m ih =>
    obtain ⟨a, b⟩ := c
    intro m₂ lo h₁ h₂ h
    simp only [Mem.okFrom, Bool.and_eq_true, decide_eq_true_eq] at h₁
    cases m₂ with
    | nil =>
      have := h a
      simp only [Mem.read, if_pos] at this
      simp [this] at h₁
    | cons d n =>
      obtain ⟨a', b'⟩ := d
      simp only [Mem.okFrom, Bool.and_eq_true, decide_eq_true_eq] at h₂
      have haa : a = a' := by
        rcases Nat.lt_trichotomy a a' with hl | he | hl
        · have := h a
          rw [Mem.read, if_pos rfl, Mem.read, if_neg (by omega), Mem.read_okFrom h₂.2 (by omega)] at this
          simp [this] at h₁
        · exact he
        · have := h a'
          rw [Mem.read, if_neg (by omega), Mem.read_okFrom h₁.2 (by omega), Mem.read, if_pos rfl] at this
          simp [← this] at h₂
      subst haa
      have hb : b = b' := by simpa [Mem.read] using h a
      subst hb
      have : m = n := by
        apply ih h₁.2 h₂.2
        intro x
        by_cases hx : a = x
        · subst hx; rw [Mem.read_okFrom h₁.2 (by omega), Mem.read_okFrom h₂.2 (by omega)]
        · have := h x
          simpa [Mem.read, hx] using this
      rw [this]

theorem Mem.ext {m₁ m₂ : Mem} (h₁ : Mem.wf m₁ = true) (h₂ : Mem.wf m₂ = true)
    (h : ∀ x, Mem.read m₁ x = Mem.read m₂ x) : m₁ = m₂ := Mem.ext_from h₁ h₂ h

/-! ### The memory system -/

theorem settle_wf (ds : List DieId) : ∀ (ws : List Write) {m : Mem}, Mem.wf m = true → Mem.wf (settle ds m ws).1 = true := by
  intro ws
  induction ws with
  | nil => intro m h; exact h
  | cons w ws ih =>
    intro m h
    simp only [settle]
    split
    · exact ih (Mem.wf_writeCells _ h)
    · exact h

theorem settled_wf (s : State) (h : Mem.wf s.ms.mem = true) : Mem.wf (settled s).ms.mem = true := settle_wf _ _ h

/-- A write that enters a die's view does not change the memory that all views share. -/
@[simp] theorem enterAs_mem (s : State) (d : DieId) (after : List (Nat × List DieId)) (o : Origin) (cs : List Host.Cell) :
    (enterAs s d after o cs).ms.mem = s.ms.mem := by
  unfold enterAs
  split <;> rfl

@[simp] theorem enterView_mem (s : State) (d : DieId) (cs : List Host.Cell) : (enterView s d cs).ms.mem = s.ms.mem :=
  enterAs_mem s d [] _ cs

@[simp] theorem dieStore_mem (s : State) (d : DieId) (o : Origin) (u : Nat) (cs : List Host.Cell) :
    (dieStore s d o u cs).ms.mem = s.ms.mem := by simp [dieStore]

@[simp] theorem engineStore_mem (s : State) (c : CoreId) (b : BankId) (o : Origin) (u : Nat) (cs : List Host.Cell) :
    (engineStore s c b o u cs).ms.mem = s.ms.mem := by simp [engineStore]

@[simp] theorem reachWrite_mem (s : State) (d : DieId) (id : Nat) : (reachWrite s d id).ms.mem = s.ms.mem := rfl

theorem enterView_wf (s : State) (d : DieId) (cs : List Host.Cell) (h : Mem.wf s.ms.mem = true) :
    Mem.wf (enterView s d cs).ms.mem = true := by simpa using h

theorem enterAtomic_wf (s : State) (d : DieId) (t : Option Word) (after : List (Nat × List DieId)) (o : Origin)
    (cs : List Host.Cell) (h : Mem.wf s.ms.mem = true) : Mem.wf (enterAtomic s d t after o cs).ms.mem = true := settled_wf _ h

theorem enterHome_wf (s : State) (d : DieId) (cs : List Host.Cell) (h : Mem.wf s.ms.mem = true) :
    Mem.wf (enterHome s d cs).ms.mem = true := settled_wf _ h

theorem enterAll_wf (s : State) (d : DieId) (cs : List Host.Cell) (h : Mem.wf s.ms.mem = true) :
    Mem.wf (enterAll s d cs).ms.mem = true := settled_wf _ h

theorem placeWrite_wf (s : State) (w : Write) (h : Mem.wf s.ms.mem = true) :
    Mem.wf (placeWrite s w).ms.mem = true := settled_wf _ h

theorem applyWrite_wf (s : State) (d : DieId) (w : Write) (h : Mem.wf s.ms.mem = true) :
    Mem.wf (applyWrite s d w).ms.mem = true := by
  unfold applyWrite
  apply settled_wf
  split <;> exact h

theorem publishAll_wf (s : State) (h : Mem.wf s.ms.mem = true) : Mem.wf (publishAll s).ms.mem = true := by
  unfold publishAll
  split
  · exact h
  · exact Mem.wf_writeCells _ h

theorem reset_mem_wf : Mem.wf State.reset.ms.mem = true := rfl

end Sys2Proof.Machine
end

