-- ==== Sys2Proof/Laws/Pipeline.lean ====
section
/-! SUPPORT. What the shared evaluation of a word does once steps 3 to 6 of R33 pass, for words, records and B words. -/

namespace Sys2Proof.Machine

theorem slipAndWaitPass_begun {s : State} {v : BitVec 6} (h : slipAndWaitPass s v false = true) :
    passSlipWait s s.cur v false = .ok (begun s v) := by
  unfold slipAndWaitPass at h
  unfold begun
  split at h
  · next t ht => rw [ht]
  · cases h

/-- A word whose steps 3 to 6 pass ends as its own effect says. -/
theorem evalWord_ready {pbl pbr pal par : Bool} {wait : BitVec 6} {pidx : Fin 8} {pneg perLane : Bool} {words : Nat}
    {w : WordF} {form n : Nat} {right : Bool} {body : State → Agent → Res Done} {s : State}
    (h : readyWith wait (tokensOf pbl pbr pal par form n right) pidx pneg perLane s = true) :
    evalWord pbl pbr pal par wait pidx pneg perLane words w form n right body s
      = .next (finishWord s.cur w (tokensOf pbl pbr pal par form n right) words (body (begun s wait) s.cur)) := by
  simp only [readyWith, tokensAndPredicatePass, Bool.and_eq_true, Bool.not_eq_true', List.isEmpty_iff] at h
  obtain ⟨⟨⟨hm, hd⟩, hp⟩, ⟨⟨⟨ht, hb⟩, hth⟩, hpb⟩, hpr⟩ := h
  have hp := slipAndWaitPass_begun hp
  have hn : (!(perLane && s.cur.stream == .x) && !predicate (bankOf (begun s wait) s.cur) s.cur.stream pidx pneg) = false := by
    cases h1 : (perLane && s.cur.stream == .x) <;> simp_all
  simp only [evalWord, hm, hd, hp, ht, hb, hth, hpb, hn, Bool.not_true, Bool.false_eq_true, if_false]

theorem runWord_ready {w : WordF} {perLane : Bool} {body : State → Agent → Res Done} {s : State}
    (h : ready w perLane s = true) :
    runWord w perLane body s = .next (finishWord s.cur w (bitTokens w) 1 (body (begun s w.wait) s.cur)) :=
  evalWord_ready h

theorem runRec_ready {r : RecF} {body : State → Agent → Res Done} {s : State} (h : readyRec r s = true) :
    runRec r body s = .next (finishWord s.cur {} (recTokens r) 4 (body (begun s r.wait) s.cur)) :=
  evalWord_ready h

theorem runTokens_ready {w : WordF} {form : Nat} {s : State}
    (h : readyWith w.wait (tokensOf w.pbl w.pbr w.pal w.par form (shortNat w.srcA) (w.mod.getLsbD 0)) w.pidx w.pneg false s
      = true) :
    runTokens w form s = .next (finishWord s.cur w
      (tokensOf w.pbl w.pbr w.pal w.par form (shortNat w.srcA) (w.mod.getLsbD 0)) 1 (done (begun s w.wait))) :=
  evalWord_ready h

/-- A B word whose three streams have arrived ends as its operation says. -/
theorem runB_ready {w : WordF} {body : State → Agent → Res Done} {s : State} (h : readyB w s = true) :
    runB w body s = .next (finishB s.cur w (body (gathered s w.wait) s.cur)) := by
  simp only [readyB, Bool.and_eq_true, Bool.not_eq_true', List.isEmpty_iff] at h
  obtain ⟨⟨⟨⟨⟨⟨hm, hd⟩, hp⟩, hl⟩, hx⟩, hs⟩, ht⟩ := h
  unfold slipAndWaitPass at hp
  simp only [gathered] at hl hx hs ht ⊢
  simp only [runB, hm, hd]
  split at hp
  · next t hpt =>
    rw [hpt] at hl hx hs ht ⊢
    simp only [Bool.not_true, Bool.false_eq_true, if_false]
    rw [hl, hx, hs]
    simp [ht]
  · cases hp

theorem takeSources_ok {s : State} {g : Agent} {srcs : List Operand} {pushes : List (Fin 16 × Nat)}
    (h : sourcesOk s g srcs pushes = true) : takeSources s g srcs pushes = .ok () := by
  unfold sourcesOk at h
  split at h
  · assumption
  · cases h

/-- A commit keeps the task of the bank. -/
theorem finishWord_commit {g : Agent} {w : WordF} {toks : Tokens} {words : Nat} {t : State} {pops : List (Fin 16)}
    {next : Option VAddr} (h : (bankOf t g).task.isSome = true) :
    finishWord g w toks words (.ok (.commit t pops next)) = commitWord t g toks pops next words := by
  simp only [finishWord]
  rw [if_neg]
  cases hb : (bankOf t g).task <;> simp_all

theorem finishB_commit {g : Agent} {w : WordF} {t : State} {pops : List (Fin 16)} {next : Option VAddr}
    (h : (bankOf t g).task.isSome = true) : finishB g w (.ok (.commit t pops next)) = commitB t g := by
  simp only [finishB]
  rw [if_neg]
  cases hb : (bankOf t g).task <;> simp_all

/-! ### The task of the bank stays -/

theorem modSt_task (k : Bank) (t : Stream) (f : StreamSt → StreamSt) : (k.modSt t f).task = k.task := by
  cases t <;> rfl

theorem modRegs_task (k : Bank) (t : Stream) (f : StreamRegs → StreamRegs) : (k.modRegs t f).task = k.task := by
  cases t <;> rfl

theorem modBankOf_task {s : State} {g : Agent} {f : Bank → Bank} (h : ∀ k, (f k).task = k.task) :
    (bankOf (modBankOf s g f) g).task = (bankOf s g).task := by
  simp only [bankOf, modBankOf, getBank_modBank, h]

theorem modStOf_task (s : State) (g : Agent) (f : StreamSt → StreamSt) :
    (bankOf (modStOf s g f) g).task = (bankOf s g).task :=
  modBankOf_task (fun k => modSt_task k g.stream f)

theorem beginWait_task (s : State) (g : Agent) (v : BitVec 6) :
    (bankOf (beginWait s g v) g).task = (bankOf s g).task := modStOf_task s g _

/-- Steps 3 and 4 keep the task. -/
theorem passSlipWait_task {s t : State} {g : Agent} {v : BitVec 6} {b : Bool} (h : passSlipWait s g v b = .ok t) :
    (bankOf t g).task = (bankOf s g).task := by
  unfold passSlipWait at h
  simp only at h
  split at h
  · cases h
  · split at h
    · cases h; rfl
    · split at h
      · cases h
      · cases h
      · split at h
        · split at h
          · cases h; exact beginWait_task s g v
          · cases h
        · cases h; exact beginWait_task s g v

/-- A stream evaluates words only in a bank with a task. -/
theorem mayEvaluate_task {s : State} {g : Agent} (h : mayEvaluate s g = true) : (bankOf s g).task.isSome = true := by
  simp only [mayEvaluate, Bool.and_eq_true] at h
  exact h.1.1.1.1.1.2

/-- A word that is ready runs in a task. -/
theorem readyWith_task {wait : BitVec 6} {toks : Tokens} {pidx : Fin 8} {pneg perLane : Bool} {s : State}
    (h : readyWith wait toks pidx pneg perLane s = true) : (bankOf (begun s wait) s.cur).task.isSome = true := by
  simp only [readyWith, Bool.and_eq_true] at h
  obtain ⟨⟨⟨hm, -⟩, hp⟩, -⟩ := h
  rw [passSlipWait_task (slipAndWaitPass_begun hp)]
  exact mayEvaluate_task hm

theorem ready_task {w : WordF} {perLane : Bool} {s : State} (h : ready w perLane s = true) :
    (bankOf (begun s w.wait) s.cur).task.isSome = true := readyWith_task h

theorem setA_task (k : Bank) (t : Stream) (n : Fin 32) (v : Word) : (setA k t n v).task = k.task := by
  cases t <;> rfl

theorem setLc_task (k : Bank) (t : Stream) (n : Fin 4) (v : Word) : (setLc k t n v).task = k.task := modRegs_task ..

theorem writeScalar_task (s : State) (g : Agent) (o : Operand) (v : Word) :
    (bankOf (writeScalar s g o v) g).task = (bankOf s g).task := by
  unfold writeScalar
  apply modBankOf_task
  intro k
  cases o <;> simp only <;> cases g.stream <;> rfl

theorem writeVec_task (s : State) (g : Agent) (o : Operand) (sel v : Vec) :
    (bankOf (writeVec s g o sel v) g).task = (bankOf s g).task := by
  unfold writeVec
  apply modBankOf_task
  intro k
  cases o <;> rfl

theorem writeMask_task (s : State) (g : Agent) (o : Operand) (sel v : Word) :
    (bankOf (writeMask s g o sel v) g).task = (bankOf s g).task := by
  unfold writeMask
  apply modBankOf_task
  intro k
  cases o <;> first | rfl | (simp only [setM]; split <;> rfl)

/-! ### Scalar forms -/

/-- A scalar form that is ready writes its result and commits. -/
theorem scalarForm_ready {w : WordF} {srcs : List Operand} {f : State → Agent → Word} {s : State}
    (h : ready w false s = true) (hs : sourcesOk (begun s w.wait) s.cur srcs (dstPush w.dst) = true) :
    scalarForm w srcs f s = .next (commits w s
      (writeScalar (begun s w.wait) s.cur w.dst (f (begun s w.wait) s.cur)) srcs none) := by
  rw [scalarForm, runWord_ready h]
  simp only [takeSources_ok hs, donePop, bind, Except.bind]
  rw [finishWord_commit, commits]
  rw [writeScalar_task]
  exact ready_task h

end Sys2Proof.Machine
end

