-- ==== Sys2Proof/Laws/Stream.lean ====
section
/-! SUPPORT. What the updates of a stream and of a slot's ranges leave and give, one lemma for each. -/

namespace Sys2Proof.Machine

@[simp] theorem advance_run (x : StreamSt) (pc : VAddr) (n : Nat) : (advance x pc n).run = .running := rfl
@[simp] theorem advance_pc (x : StreamSt) (pc : VAddr) (n : Nat) : (advance x pc n).pc = pc := rfl
@[simp] theorem advance_suspended (x : StreamSt) (pc : VAddr) (n : Nat) : (advance x pc n).suspended = x.suspended := rfl

/-- A stream that runs has its slip count at once; that of a SUSPENDED one stays (R95). -/
theorem advance_slip (x : StreamSt) (pc : VAddr) (n : Nat) :
    (advance x pc n).slip = if x.suspended then x.slip else n := rfl

@[simp] theorem unsuspend_suspended (x : StreamSt) : (unsuspend x).suspended = false := rfl
@[simp] theorem unsuspend_run (x : StreamSt) : (unsuspend x).run = x.run := rfl
@[simp] theorem unsuspend_pc (x : StreamSt) : (unsuspend x).pc = x.pc := rfl
@[simp] theorem unsuspend_passed (x : StreamSt) : (unsuspend x).passed = x.passed := rfl
@[simp] theorem unsuspend_pending (x : StreamSt) : (unsuspend x).pending = x.pending := rfl
@[simp] theorem unsuspend_slipDue (x : StreamSt) : (unsuspend x).slipDue = none := rfl
@[simp] theorem unsuspend_slip (x : StreamSt) : (unsuspend x).slip = slipCount x := rfl

/-- What a word leaves in a SUSPENDED stream is what the swap back gives it (R95). -/
theorem unsuspend_advance (x : StreamSt) (pc : VAddr) (n : Nat) : (unsuspend (advance x pc n)).slip = n := by
  simp only [unsuspend_slip, slipCount, advance]
  split <;> rfl

/-- A clipped range of a slot ends within the slot, or is empty (R150). -/
theorem Ring.clip_le (r : Ring) (p : Nat × Nat) : (r.clip p).1 + (r.clip p).2 ≤ r.slotBytes ∨ (r.clip p).2 = 0 := by
  simp only [Ring.clip, Nat.min_def]
  split <;> omega

end Sys2Proof.Machine
end

