-- ==== Sys2Proof/Tests/Witness.lean ====
section
/-! SUPPORT. For every statement with hypotheses, states and operands that meet them, clause by clause: words. -/

namespace Sys2Proof.Tests

open Sys2Proof Sys2Proof.Machine Sys2Proof.Claims

-- One theorem is elaborated after the other, so that the checker needs no thread for each.
set_option Elab.async false

/-- Does a check pass? -/
def okB {α : Type} (r : Res α) : Bool :=
  match r with
  | .ok _ => true
  | .error _ => false

/-- A leaf of frame f on HBM4 of die 0 with read and write permission, a format and a companion area. -/
def dataLeaf (f fmt cva : Nat) : Pte := BitVec.ofNat 128 (15 + 2 * 2 ^ 11 + fmt * 2 ^ 19 + f * 2 ^ 36 + cva / 256 * 2 ^ 64)

/-- Page tables of context 0 that map a page at 0x20000, of a format, and its companion at 0x30000. -/
def pages (fmt : Nat) : Mem :=
  Mem.writeCells [] (cellsAt 0x10000 (toBytes 16 (pointerTo 2).toNat) ++ cellsAt 0x20000 (toBytes 16 (pointerTo 3).toNat)
    ++ cellsAt 0x30020 (toBytes 16 (dataLeaf 5 fmt 0x30000).toNat) ++ cellsAt 0x30030 (toBytes 16 (dataLeaf 6 0 0).toNat))

/-- A module that has booted with dies 0 and 8, a task of context 0 in the active bank of core 0, and the stream t of it
about to evaluate a word. -/
def base (t : Stream) : State :=
  let x : StreamSt := { run := .running, pc := 0x10000 }
  let up (s : State) (d : DieId) : State := modDie s d (fun d => { d with st := .up })
  let s := up (up State.reset 0) 8
  let s := modCtx { s with boot := { s.boot with stat := 1, present := 0x101 } } 0
    (fun c => { c with st := .running, root := 0x10000 })
  let s := modBank s 0 .active (fun k =>
    { freshBank k placedTask { pc := w64 placedPc } with l := x, x := x, s := x })
  { s with cur := { core := 0, bank := .active, stream := t } }

/-- The base state with page tables, on the first cycle after a slot. -/
def mapped (t : Stream) (fmt : Nat) : State :=
  let s := modMs (base t) (fun m => { m with mem := pages fmt })
  { s with cal := { s.cal with cycle := 4096 } }

/-- The state at a B word that all three streams have reached. -/
def atB : State :=
  let x : StreamSt := { run := .stalled .rendezvous, passed := 4, arrived := true, pc := 0x10000 }
  modBank (base .l) 0 .active (fun k => { k with l := { x with run := .running }, x := x, s := x })

/-- The evaluating bank changed. -/
def on (s : State) (f : Bank → Bank) : State := modBankOf s s.cur f

/-- Registers of the evaluating stream, L or S, set. -/
def regs (s : State) (vs : List (Fin 32 × Word)) : State := vs.foldl (fun s v => on s (fun k => setA k s.cur.stream v.1 v.2)) s

/-- A vector entry in a queue. -/
def filled (s : State) (q : Fin 16) : State := on s (fun k => { k with q := vmod k.q q (fun f => { f with items := [{}] }) })

/-- The conjunction of some conditions. -/
def allOf (l : List Bool) : Bool := l.all id

/-- A word of most forms: destination 3, sources register 1, literal 5 and register 2. -/
def plain : WordF := { dst := .reg 3, srcA := .reg 1, srcB := .lit 5, srcC := .reg 2 }

theorem witness_ScalarForms : allOf [ready plain false (base .l), scalarReady plain [.reg 1] (base .l),
    scalarReady plain [.reg 1, .lit 5] (base .s), scalarReady plain [.reg 1, .lit 5, .reg 2] (base .l)] = true := by
  decide +kernel

theorem witness_Transfers :
    let far : WordF := { srcA := .lit (-0x100000) }
    allOf [ready { srcA := .short 4 } false (base .l), inRange (target (base .l) { srcA := .short 4 } (.short 4)),
      ready far false (base .x), !inRange (target (base .x) far far.srcA)] = true := by
  decide +kernel

theorem witness_ConditionalTransfers :
    let w : WordF := { srcA := .reg 1, srcB := .short 4 }
    let v : WordF := { srcA := .short 0xFD }
    let s := modRegsOf (base .s) (base .s).cur (fun r => { r with lc := vset r.lc 0 5 })
    allOf [ready w false (base .l), sourcesOk (base .l) (base .l).cur [.reg 1] [],
      branchTaken .l 0 (src (base .l) w [.reg 1] 0), !branchTaken .l 1 (src (base .l) w [.reg 1] 0),
      inRange (target (base .l) w w.srcB), ready v false s, 1 < ((regsOf s s.cur).lc.get (lcNo v)).toNat,
      inRange (target s v v.srcA), !(regsOf s s.cur).badLc.getLsbD 0,
      ((regsOf (base .l) (base .l).cur).lc.get (lcNo v)).toNat ≤ 1,
      (let far : WordF := { w with srcB := .lit (-0x100000) }
       ready far false (base .l) && !inRange (target (base .l) far far.srcB)),
      (let far : WordF := { srcA := .lit (-0x100000) }
       ready far false s && !inRange (target s far far.srcA) && 1 < ((regsOf s s.cur).lc.get (lcNo far)).toNat)] = true := by
  decide +kernel

theorem witness_Transfers_to_registers :
    let w : WordF := { srcA := .reg 1 }
    let at_ (v : Word) : State := regs (base .l) [(31, v), (1, v)]
    [0x20000, 8, 2 ^ 60].all (fun v => ready w false (at_ v) && sourcesOk (at_ v) (base .l).cur [.reg 31] []
      && sourcesOk (at_ v) (base .l).cur [.reg 1] [] && src (at_ v) w [.reg 31] 0 == v && src (at_ v) w [.reg 1] 0 == v) = true := by
  decide +kernel

theorem witness_QueueAndTokenForms :
    let tk : WordF := { srcA := .short 2 }
    let full := on (base .l) (fun k => { k with tk := vmod k.tk 4 (fun f => { f with items := [false, false] }) })
    let push : WordF := { dst := .queue 0 false, srcA := .reg 1, mod := 2 }
    let pop : WordF := { dst := .reg 3, srcA := .queue 12 false, srcB := .short 0xFF, mod := 1 }
    let one := filled (base .l) 12
    let empty (s : State) : Bool := pop.mod.getLsbD 0 && queueReader 12 == s.cur.stream && !boundFor (bankOf s s.cur) 12 s.cur.stream
      && ((bankOf s s.cur).q.get 12).seen (now s) == 0
    allOf [readyWith 0 (tokensOf false false false false 1 2 false) 0 false false (base .l),
      readyWith 0 (tokensOf false false false false 2 2 false) 0 false false full,
      ready push false (base .l), sourcesOk (base .l) (base .l).cur [.reg 1] [(0, 3)], shortNat tk.srcA == 2,
      !empty one, scalarReady pop [.queue 12 false] one, scalarReady pop [.queue 12 true] one,
      empty (base .l), scalarReady pop [.short 0xFF] (base .l), scalarReady pop [] (base .l), queueReader 12 == .l,
      scalarReady pop [] (base .x), queueReader 12 != .x, queueWriter 12 == .x] = true := by
  decide +kernel

theorem witness_CountsAndRegisters :
    let sets (r : BitVec 8) : WordF := { tag := .x, srcA := .short r, srcB := .short 1 }
    let wait : WordF := { srcA := .tl .m, srcB := .reg 1 }
    allOf [scalarReady { dst := .reg 3, srcA := .short 1 } [] (base .l), ready wait false (base .l),
      sourcesOk (base .l) (base .l).cur [.short 1] [], sourcesOk (base .l) (base .l).cur [.reg 1] [],
      sregOf (sets 0x10) == .fpstat, sregOf (sets 0x11) == .mstat, sregOf (sets 0x12) == .srseed,
      sregOf (sets 0x13) == .xsrpos, sregOf (sets 0x14) == .msrpos, sregOf (sets 0x04) == .slipw,
      !SReg.writable (sregOf (sets 0x20)), ready (sets 0x10) false (base .x), sourcesOk (base .x) (base .x).cur [.short 1] [],
      src (base .l) wait [.reg 1] 0 == 0, src (regs (base .l) [(1, 9)]) wait [.reg 1] 0 == 9,
      tlValue (base .l) 0 .active .m == 0] = true := by
  decide +kernel

theorem witness_SoftwareTraps :
    let w : WordF := { mod := 1, srcA := .short 7, srcB := .reg 3 }
    allOf [ready w false (base .l), sourcesOk (base .l) (base .l).cur [.reg 3] [], ready { srcA := .short 7 } false (base .s),
      sourcesOk (base .s) (base .s).cur [] []] = true := by
  decide +kernel

theorem witness_NamedBarriers :
    let w : WordF := { dst := .nb 3, srcA := .short 4 }
    let v : WordF := { dst := .reg 1, srcA := .nb 3, srcB := .short 1 }
    let s := base .l
    let opened := openNb s 0 3 2
    allOf [ready w false s, sourcesOk s s.cur [.short 4] [], nbAllowed s 0 .active 3, src s w [.short 4] 0 == 4,
      ((getCore s 0).nb.get 3).count == 0, ready v false opened, sourcesOk opened s.cur [.short 1] [],
      arrivesNow opened ((getCore opened 0).nb.get 3) (arrivalPlace .l), sourcesOk s s.cur [] (dstPush v.dst),
      arrivesNow s ((getCore s 0).nb.get 3) (arrivalPlace .l), ready v false s, sourcesOk s s.cur [.short 1] [],
      nbAllowed opened 0 .active 3, ((getCore opened 0).nb.get 3).count == 2, src opened v [.short 1] 0 == 1,
      nbAllowed s 0 .active (nbNo v.srcA).val,
      !nbAllowed (modCore s 0 (fun k => { k with urgen := true })) 0 .active 28,
      ready { v with srcA := .nb 28 } false (modCore s 0 (fun k => { k with urgen := true })),
      (let w0 : WordF := { v with srcB := .short 0 }
       ready w0 false s && src s w0 [.short 0] 0 == 0 && sourcesOk s s.cur [.short 0] [])] = true := by
  decide +kernel

theorem witness_GroupBarrierWords :
    let w : WordF := { srcA := .short 7 }
    let v : WordF := { dst := .reg 1, srcA := .reg 2 }
    let s := regs (base .l) [(2, 64)]
    allOf [ready w false s, (bankOf s s.cur).task == some placedTask, sourcesOk s s.cur [.short 7] [], src s w [.short 7] 0 == 7,
      ready v false s, sourcesOk s s.cur [.reg 2] [], sourcesOk s s.cur [.short 7] (dstPush v.dst), src s v [.reg 2] 0 == 64] = true := by
  decide +kernel

theorem witness_SpawnAndRenq :
    let w : WordF := { dst := .reg 2, srcA := .short 3, srcB := .reg 4, srcC := .reg 5, mod := 1 }
    let s := base .l
    let r := { w with srcA := .reg 0 }
    let q : QTask := { task := placedTask, start := { pc := 0 }, order := 0 }
    let full := modCore s 0 (fun k => { k with work := { k.work with engine := List.replicate 16 q } })
    allOf [ready w false s, sourcesOk s s.cur [.short 3, .reg 4] [], src s w [.short 3, .reg 4] 0 == 3,
      3 ≤ poolRoom s (taskOf s s.cur), sourcesOk s s.cur [.reg 0, .reg 4, .reg 5] [],
      okB (targetCore s id (src s r [.reg 0, .reg 4, .reg 5] 0) true), okB (checkReach s 0 0), src s r [.reg 0, .reg 4, .reg 5] 2 == 0,
      (getCore s 0).work.engine.length < 16, ready r false full, releaseReady s s.cur .device 0, 16 ≤ (getCore full 0).work.engine.length,
      releaseReady (touch s 0 0) s.cur .device 0,
      (let held := modAux s 0 .active (fun a => { a with sb := [{ id := 0, cells := [(0, 1)] }] })
       ready w false held && sourcesOk held s.cur [.short 3, .reg 4] [] && !releaseReady held s.cur .device 0)] = true := by
  decide +kernel

/-- A posted atomic of the task 64's kernel, on its way. -/
def somePosted (s : State) : AtomicReq :=
  { atomicReq s s.cur plain .add { entry := 0, at_ := 0, base := 0, large := false } 0 0 0 with form := .posted, kinst := 64 }

/-- A kernel of one node instance, with a handle of context 0. -/
def someKernel (st : NodeSt) : Kernel :=
  { kinst := 64, ctx := 0, st := .admitted, image := 0, argp := 0, seed := 0, cpl := 0, after := 0, cvec := 0, insts := [{ st := st }] }

theorem witness_KernelWords :
    let w : WordF := { dst := .reg 1, srcA := .reg 2 }
    let s := base .l
    let gone := regs (modCaux s 0 (fun a => { a with serial := 1 })) [(2, 64)]
    let busy := pushAtomic { gone with nextId := 1 } (somePosted gone)
    let live := modDisp gone (fun d => { d with kerns := [someKernel .open_] })
    allOf [ready w false s, sourcesOk s s.cur [] [], (blockBad s s.cur (.reg 2) 6).isNone, heldCount s < 4096,
      (List.range 6).all (fun i => blockReg s s.cur (.reg 2) i == 0), !afterBad s 0 0, sourcesOk s s.cur [.reg 2] [],
      releaseReady s s.cur .device 0, !kernBusy s 0, !kernBusy live 64, ready w false busy, sourcesOk busy busy.cur [.reg 2] [],
      src busy w [.reg 2] 0 == 64, kernBusy busy 64, (findKern busy 64).isNone,
      kwaitValue s (taskOf s s.cur) 0 == some 0xFF, !everLaunched s 0 0, everLaunched gone 0 64, (findKern gone 64).isNone,
      src gone w [.reg 2] 0 == 64, ready { w with mod := 1 } false live, (kwaitValue live (taskOf live live.cur) 64).isNone,
      ready w false live, (findKern live 64).isSome, everLaunched live 0 64, sourcesOk live live.cur [.reg 2] [],
      (findKern live 64).any (fun k => k.ending.isNone),
      (let ends := modDisp gone (fun d => { d with kerns := [{ someKernel .open_ with ending := some .cancelled }] })
       ready w false ends && sourcesOk ends ends.cur [.reg 2] [] && src ends w [.reg 2] 0 == 64 && everLaunched ends 0 64
         && (findKern ends 64).any (fun k => k.ending.isSome))] = true := by
  decide +kernel

theorem witness_FrozenTaskWords :
    let w : WordF := { dst := .reg 1, srcA := .reg 2 }
    let s := regs (base .l) [(2, 9)]
    let info : FaultInfo := { code := .illop }
    let frozen (st : NodeSt) : State :=
      let s := modDisp s (fun d => { d with kerns := [someKernel st] })
      let s := modBank s 1 .active (fun k => { k with task := some { placedTask with handle := 9, kinst := 64 } })
      modAux s 1 .active (fun a => { a with freeze := some { info := info, src := .word, stream := .l, since := 0, done := true } })
    let handler (s : State) : State := modBank s 0 .active (fun k =>
      { k with task := some { placedTask with kind := .handler 9, kinst := 64 } })
    allOf [scalarReady w [.reg 2] s, (frozenTask s 0 9).isNone, scalarReady w [.reg 2] (frozen .closed),
      (frozenTask (frozen .closed) 0 9).isSome, nodeClosed (frozen .closed) 64 0, scalarReady w [.reg 2] (handler (frozen .open_)),
      (frozenTask (handler (frozen .open_)) 0 9).isSome, !nodeClosed (handler (frozen .open_)) 64 0,
      handlerOf (taskOf (handler (frozen .open_)) s.cur) 64 0, !nodeClosed (frozen .open_) 64 0,
      !handlerOf (taskOf (frozen .open_) s.cur) 64 0, (frozenTask (frozen .open_) 0 9).isSome] = true := by
  decide +kernel

theorem witness_Yields :
    let w : WordF := { tag := .b, srcA := .nb 3 }
    let s1 := gathered atB 0
    let full := on atB (fun k => { k with q := vmod k.q 0 (fun f => { f with items := [{}] }) })
    allOf [readyB w atB, fullBits (bankOf s1 atB.cur) == 0, !opsOut s1 atB.cur, releaseReady s1 atB.cur .device 0, (yieldBad (bankOf s1 atB.cur) (yieldMask w.srcB)).isNone,
      (contSlot s1 (taskOf s1 atB.cur).ctx).isSome, !(bankOf s1 atB.cur).a.badL.getLsbD (regNo w.srcC).val,
      nbAllowed s1 0 .active 3, (w64 (shortNat (.short 7))).toNat < 64, readyB w full,
      fullBits (bankOf (gathered full 0) full.cur) != 0,
      !(bankOf (gathered full 0) full.cur).a.badL.getLsbD (regNo w.srcC).val, nbAllowed (gathered full 0) 0 .active 3] = true := by
  decide +kernel

theorem witness_BWords :
    let w : WordF := { tag := .b, order := .acq, scope := .device }
    let s1 := gathered atB 0
    let held := modAux atB 0 .active (fun a => { a with sb := [{ id := 0, cells := [(0, 1)] }] })
    let posted := pushAtomic { atB with nextId := 1 } (somePosted atB)
    let v : WordF := { tag := .b, order := .rel, scope := .device }
    allOf [readyB w atB, okB (checkFenceMask s1 atB.cur w), (lostDie s1 w.scope (fenceMask s1 atB.cur w)).isNone,
      fenceReady s1 atB.cur w, readyB v held, okB (checkFenceMask (gathered held 0) atB.cur v),
      (lostDie (gathered held 0) v.scope (fenceMask (gathered held 0) atB.cur v)).isNone,
      !fenceReady (gathered held 0) atB.cur v, !opsOut s1 atB.cur, postedDone s1 atB.cur, readyB w posted,
      !postedDone (gathered posted 0) atB.cur, releaseReady s1 atB.cur .device 0, readyB w held,
      !releaseReady (gathered held 0) atB.cur .device 0] = true := by
  decide +kernel

end Sys2Proof.Tests
end

