-- ==== Sys2Proof/Tests/WitnessMemory.lean ====
section
/-! SUPPORT. For every statement with hypotheses, states and operands that meet them, clause by clause: memory, engines, pages,
vectors and matrix records. -/

namespace Sys2Proof.Tests

open Sys2Proof Sys2Proof.Machine Sys2Proof.Claims

-- One theorem is elaborated after the other, so that the checker needs no thread for each.
set_option Elab.async false

/-- The stream that the base states evaluate. -/
def ag (t : Stream) : Agent := { core := 0, bank := .active, stream := t }

/-- A load or store of 64-bit integers at the address in register 1. -/
def lds : WordF := { dst := .reg 3, etype := .n64, srcA := .reg 1, srcB := .short 0, srcC := .reg 2 }

/-- A state with a page of a format at 0x20000, whose address stands in register 1. -/
def at1 (t : Stream) (fmt : Nat) : State := regs (mapped t fmt) [(1, 0x20000), (4, 8)]

theorem witness_Loads :
    let s := at1 .l 0
    let q : WordF := { lds with dst := .queue 0 false, srcB := .reg 4 }
    let v : WordF := { lds with dst := .queue 0 false, etype := .b32 }
    let sp : WordF := { v with mod := 4, srcA := .reg 0 }
    let x := filled s 12
    let i : WordF := { lds with dst := .queue 0 false, srcB := .queue 12 false }
    allOf [ready lds false s, sourcesOk s (ag .l) [.reg 1, .short 0] [], okB (wordLoad s (ag .l) 0x20000 8 8),
      okB (checkedBy s (reqOf s (ag .l) false) 0x20000 8 8), okB (checkScope s (ag .l) lds), okB (scGate s (ag .l) { lds with order := .acq }),
      ready v false s, sourcesOk s (ag .l) [.reg 1, .short 0] [(0, 1)], okB (wordLoad s (ag .l) 0x20000 (rawLen .b32) (rawAlign .b32)),
      ready sp false s, sourcesOk s (ag .l) [.reg 0, .short 0] [(0, 1)], okB (spadCheck s 0 .active 0 (rawLen .b32) (rawAlign .b32) true),
      ready q false s, sourcesOk s (ag .l) [.reg 1, .reg 4] [(0, 1)], okB (wordAccesses s (ag .l) false 8 (strideAddrs .n64 0x20000 8)),
      ready i false x, sourcesOk x (ag .l) [.reg 1, .queue 12 false] [(0, 1)],
      okB (indexedAccess x (ag .l) false .n64 (indexAddrs .n64 0x20000 (whole x (ag .l) [.reg 1, .queue 12 false] 1)))] = true := by
  decide +kernel

theorem witness_Stores :
    let s := at1 .s 0
    let srcs := [Operand.reg 1, .short 0, .reg 2]
    let held := modAux s 0 .active (fun a => { a with sb := [{ id := 0, cells := [(0, 1)] }] })
    let p := { s with nextId := 1 }
    let h := { held with nextId := 1 }
    allOf [ready lds false s, sourcesOk s (ag .s) srcs [], okB (wordStore s (ag .s) 0x20000 (toBytes 8 0) 8),
      okB (wordAccess s (ag .s) true 0x20000 (rawBytes .b32 0).length (rawAlign .b32)), ready { lds with mod := 4, etype := .b32 } false s,
      okB (spadCheck s 0 .active 0 (rawLen .b32) (rawAlign .b32) false), okB (wordAccesses s (ag .s) true 8 (strideAddrs .n64 0x20000 8)),
      okB (indexedAccess s (ag .s) true .n64 (indexAddrs .n64 0x20000 (whole s (ag .s) srcs 1))),
      sourcesOk s (ag .s) [.reg 1, .short 0] [], okB (checkScope s (ag .s) lds),
      releaseReady p (ag .s) .device 0, ready { lds with order := .rel, scope := .device } false p,
      ready { lds with order := .sc, scope := .device } false p,
      ready { lds with order := .rel, scope := .device } false h, !releaseReady h (ag .s) .device 0,
      okB (wordStore h (ag .s) 0x20000 (toBytes 8 0) 8)] = true := by
  decide +kernel

/-- A word of LDQ.dec or STQ.enc. -/
def coded64 : WordF := { etype := .f32, dst := .queue 0 false, srcA := .reg 1, srcB := .short 0, srcC := .queue 8 false }

theorem witness_DecodedAccesses :
    let okL (f : Nat) : Nat := match fmtAccess (at1 .l f) (reqOf (at1 .l f) (ag .l) false) 0x20000 (fun f => 1 ≤ f && f ≤ 10) with
      | .ok r => r.1
      | .error _ => 99
    let st (f : Nat) : State := filled (at1 .s f) 8
    let okS (f : Nat) : Nat := match fmtAccess (st f) (reqOf (st f) (ag .s) true) 0x20000 (encOk false) with
      | .ok r => r.1
      | .error _ => 99
    let scales (t : Stream) (f : Nat) (wr : Bool) : Bool :=
      match fmtAccess (at1 t f) (reqOf (at1 t f) (ag t) wr) 0x20000 (encOk false) with
      | .ok r => let cs := scaleAddrs r.2.parts f 0x20000
          okB (companion (at1 t f) (ag t) wr cs.1 1) && okB (companion (at1 t f) (ag t) wr cs.2 1)
      | .error _ => false
    let record (t : Stream) : Bool := match companion (at1 t 10) (ag t) false 0x30000 264 with
      | .ok r => okB (nq4Record (at1 t 10) (r.bytes (at1 t 10) (ag t)) 0x20000)
      | .error _ => false
    allOf [ready coded64 false (at1 .l 1), sourcesOk (at1 .l 1) (ag .l) [.reg 1, .short 0] [(0, 1)], [1, 2, 3, 4, 10].all (fun f => okL f == f),
      ready coded64 false (st 1), sourcesOk (st 1) (ag .s) [.reg 1, .short 0, .queue 8 false] [], [1, 2, 3, 4, 10].all (fun f => okS f == f),
      scales .l 4 false, scales .s 4 true, record .l,
      okB (companion (at1 .s 10) (ag .s) false 0x30000 4), okB (companion (at1 .s 10) (ag .s) true 0x30008 1)] = true := by
  decide +kernel

theorem witness_WaitsAndMaintenance :
    let s := at1 .s 0
    let w : WordF := { srcA := .reg 1, srcB := .reg 0, srcC := .reg 2 }
    let s2 := regs s [(2, 128)]
    let srcs := [Operand.reg 1, .reg 0, .reg 2]
    let l := at1 .l 0
    let v : WordF := { etype := .n32, dst := .reg 3, srcA := .reg 1, srcB := .reg 2, order := .acq, scope := .device }
    allOf [ready w false s, sourcesOk s (ag .s) srcs [], src s w srcs 2 == 0, src s2 w srcs 2 == 128, ready w false s2,
      sourcesOk s2 (ag .s) srcs [], okB (lineRange s2 (ag .s) w srcs), okB (lineAccess s2 (ag .s) true 0x20000 128),
      okB (lineAccess s2 (ag .s) false 0x20000 128), ready v false l, sourcesOk l (ag .l) [.reg 1, .reg 2] [], okB (checkScope l (ag .l) v),
      okB (wordAccess l (ag .l) false 0x20000 4 4), waitCond 0 32 0 0, !waitCond 1 32 0 0, okB (scGate l (ag .l) v)] = true := by
  decide +kernel

/-- A ring of one slot of a kind. -/
def ring (k : RingKind) : Ring := { base := 0, slots := 4, ksize := 64, kind := k, tag := 1 }

/-- The state with rings of every kind. -/
def ringed (s : State) : State :=
  ([(0, RingKind.a), (1, .b), (2, .d), (3, .t), (4, .t), (5, .a)] : List (Fin 8 × RingKind)).foldl
    (fun s r => setRing s 0 .active r.1 (ring r.2)) s

theorem witness_EngineAcceptance :
    let s := regs (ringed (base .l)) [(5, 4)]
    let s2 := regs (ringed (base .s)) [(5, 4)]
    let d (s : State) (i : Nat) : Word := descReg s s.cur (.reg 4) i
    allOf [ready { srcA := .reg 4 } false s, ((bankOf s (ag .l)).eng.ops.get 0).length < 4, okB (checkBind s (ag .l) 0 0 true),
      okB (checkDesc s (ag .l) (.reg 4) 5), (affineOp .strm .f32 0 false (d s)).isSome, (affineOp .strm .f32 0 true (d s)).isSome,
      ready { srcA := .reg 4 } false s2, okB (checkBind s2 (ag .s) (engNo (ag .s) 0) 8 false), okB (checkDesc s2 (ag .s) (.reg 4) 5),
      (affineOp .drn .f32 8 false (d s2)).isSome, (affineOp .drn .f32 8 true (d s2)).isSome,
      (getRing s 0 .active 3).isSome, (extReg (d s 3)).isSome, (d s 0).toNat % 1024 == 0, (d s 1).toNat < 2 ^ 32, (d s 2).toNat % 1024 == 0,
      okB (checkBind s (ag .l) 0 12 false), (getRing s 0 .active 0).any (fun r => r.kind == .a),
      okB (checkDesc (base .l) (ag .l) (.reg 4) 4), (d (ringed (base .l)) 1).toNat % 16 == 0, extReg 0 == some (0, 0),
      (getRing s2 0 .active 3).isSome, okB (checkDesc s2 (ag .s) (.reg 4) 3), (d s2 2).toNat % 1024 == 0] = true := by
  decide +kernel

theorem witness_RingWords :
    let w : WordF := { dst := .ring 6, srcA := .reg 4 }
    let v : WordF := { srcA := .ring 3, srcB := .short 1 }
    let s := regs (ringed (base .l)) [(5, 1 + 64 * 2 ^ 16)]
    let one := setRing s 0 .active 3 { ring .t with held := 1 }
    allOf [ready w false s, okB (checkDesc s (ag .l) (.reg 4) 2), okB (match ringDesc (descReg s (ag .l) (.reg 4) 0) (descReg s (ag .l) (.reg 4) 1) with
        | .ok r => (.ok r : Res Ring)
        | .error _ => stall s .op),
      !opNames (bankOf s (ag .l)).eng 6, !recNames (bankOf s (ag .l)).eng 6, ready v false one, sourcesOk one (ag .l) [.short 1] [],
      src one v [.short 1] 0 == 1, (getRing one 0 .active 3).any (fun r => r.held == 1), (getRing s 0 .active 3).any (fun r => r.held == 0),
      ready v false s, (getRing s 0 .active 7).isNone] = true := by
  decide +kernel

theorem witness_Atomics :
    let s := at1 .l 0
    let w : WordF := { etype := .n64, dst := .reg 2, srcA := .reg 1, srcB := .short 1, scope := .device }
    let c : WordF := { w with srcB := .reg 6 }
    let q : WordF := { w with mod := 4, dst := .queue 14 false }
    allOf [ready w false s, sourcesOk s (ag .l) (atomicSources w .add) [], sourcesOk s (ag .l) (atomicSources c .cas) [], ready c false s,
      okB (checkDesc s (ag .l) (.reg 6) 2), okB (checkScope s (ag .l) w), okB (atomicAccess s (ag .l) 0x20000 8), atomicForm w == .reg,
      atomicForm { w with mod := 1 } == .posted, ready { w with mod := 1 } false s, atomicForm q == .queue 0, ready q false s,
      okB (checkBind s (ag .l) 0 14 true), okB (acceptEng s (ag .l) 0 { form := .qatomic, num := 0, q := 14, c0 := 1, c1 := 1 })] = true := by
  decide +kernel

theorem witness_Deliveries :
    let s := regs (base .s) [(1, 0x34000000)]
    let w : WordF := { tag := .s, srcA := .reg 1, srcB := .reg 0, srcC := .queue 8 false }
    let v : WordF := { tag := .s, srcA := .reg 1, srcB := .queue 8 false, srcC := .nb 0 }
    let s := filled s 8
    allOf [ready w false s, sourcesOk s (ag .s) [.reg 1, .reg 0, .queue 8 false] [], okB (sendWaits s 0 0x34000000),
      okB (targetCore s (deliveryCore s 0) 0x34000000 false), okB (checkReach s 0 (dieOf (deliveryCore s 0 0))),
      (match deliveryTo s 0 0 0x34000000 with
       | .ok d => d == (0, 0x340000)
       | .error _ => false),
      spadAllowed s 0 .active 0x340000 256, ready v false s, sourcesOk s (ag .s) [.reg 1, .queue 8 false] [], nbAllowed s 0 .active 0] = true := by
  decide +kernel

theorem witness_PageWords :
    let w : WordF := { dst := .reg 9, srcA := .reg 4 }
    let s := base .l
    let h : State := modCaux s 0 (fun a => { a with handles := [{ n := 1, base := 0, len := 4096, pasid := 0, rd := true, wr := true, dev := 0 }] })
    let h := regs h [(5, 1)]
    let g := regs s [(5, 1), (7, 16)]
    let lp := regs s [(5, 1), (7, 8)]
    let p := regs (mapped .l 0) [(1, 0x20000), (2, 65536)]
    let q := reqOf p (ag .l) false
    let t := modCtx (regs s [(5, 1)]) 0 (fun c => { c with attr := 2 })
    allOf [ready w false s, okB (checkDesc s (ag .l) (.reg 4) 4), okB (acceptCopy s (ag .l) w 0 0 0 none), ready w false h,
      (findHandle h 0 1).isSome, descReg h (ag .l) (.reg 4) 1 == 1, okB (acceptCopy h (ag .l) w 0 0 0 (some (1, 0, false))),
      ready w false g, okB (checkStatus g (ag .l) 0 1), bit (descReg g (ag .l) (.reg 4) 3) 4, okB (acceptMig g (ag .l) w false 0 1 0 2 true 0),
      ready { w with mod := 1 } false lp, descReg lp (ag .l) (.reg 4) 3 == 8, okB (acceptMig lp (ag .l) w false 0 1 0 3 false 8),
      okB (acceptMig lp (ag .l) w true 0 1 0 0 false 0),
      ready { srcA := .reg 1, srcB := .reg 2 } false p, sourcesOk p (ag .l) [.reg 1, .reg 2] [],
      (match forPages (fun (r : Nat × Nat) => checkXlate p q [0x20000] r.1 r.2) (spanPages 65536 0x20000 65536) with
       | .error _ => false
       | .ok xs => match forPages (checkPerm p q) xs with
         | .error _ => false
         | .ok ps => okB (forPages (checkData p q [0x20000]) ps) && !ps.any (pinWaits p 0)),
      ready w false t, (getCtx t 0).attr.getLsbD 1, descReg t (ag .l) (.reg 4) 1 == 1, okB (checkScope t (ag .l) w),
      (lostDie t w.scope 0).isNone, !(getCtx s 0).attr.getLsbD 1] = true := by
  decide +kernel

theorem witness_CollectiveWords :
    let w : WordF := { dst := .reg 9, etype := .f32, srcA := .reg 4 }
    let s := regs (base .l) [(5, 0x1000), (6, 1), (7, 5)]
    let c := modCaux s 0 (fun a => { a with comms := [{ handle := 5, p := 2, rank := 0, ranks := [(0, 0, 0), (1, 0, 0)], groups := [0] }] })
    let d := regs c [(5, 0), (6, 0)]
    let e := regs (base .l) [(5, 64)]
    let m := regs c [(6, 0x100000001)]
    allOf [ready { w with mod := 1, etype := .b32 } false m, bits (descReg m (ag .l) (.reg 4) 2) 33 32 == 1,
      ready w false s, okB (checkDesc s (ag .l) (.reg 4) 4), (findComm s 0 5).isNone, ready w false c, (findComm c 0 5).isSome,
      buffersOk 0 0 0x1000 (collSizes 0 2 1 32), (findComm c 0 5).any (fun k => commDie k 0),
      okB (acceptColl c (ag .l) w (newColl (ag .l) 0 .f32 0 0x1000 1 0 5) true), ready { w with mod := 1 } false d,
      (findComm d 0 5).any (fun k => commDie k 0), okB (acceptColl d (ag .l) w (newColl (ag .l) 3 .f32 0 0 0 0 5) true),
      ready w false e, descReg e (ag .l) (.reg 4) 3 == 0, okB (acceptColl e (ag .l) w (newColl (ag .l) 4 .f32 0 0 64 0 0) false)] = true := by
  decide +kernel

/-- A word of X: destination v3 from v1, v2 and v4. -/
def vec : WordF := { tag := .x, dst := .reg 3, etype := .f32, srcA := .reg 1, srcB := .reg 2, srcC := .reg 4, pidx := 2 }

theorem witness_Vectors :
    let s := on (base .x) (fun k => setM k 2 0xF)
    let srcs := [vec.srcA, vec.srcB, vec.srcC]
    allOf [vectorReady vec (srcs.take 1) [] true s, vectorReady vec (srcs.take 2) [] true s, vectorReady vec srcs [] true s,
      vectorReady { vec with dst := .queue 8 false } (srcs.take 2) [(8, 1)] true s, vectorReady { vec with etype := .nq4 } (srcs.take 2) [] true s,
      vectorReady { vec with mod := 1 } srcs [] true s, vectorReady vec (srcs.take 1) [] false s,
      roundReady vec (srcs.take 1) [] s, roundReady vec (srcs.take 2) [] s, roundReady vec srcs [] s,
      (let marked := on s (fun k => { k with sregs := { k.sregs with bad := 1 <<< 0x12 } })
       vectorReady { vec with mod := 2 } [] [] true marked
         && (srMarked (bankOf (begun marked 0) marked.cur).sregs 2).isSome)] = true := by
  decide +kernel

theorem witness_PlectrumWords :
    let w : WordF := { tag := .x, srcA := .reg 1, srcB := .reg 2, dst := .queue 8 false }
    let s := base .x
    let l := on s (fun k => { k with pk := { k.pk with list := some 0 } })
    let m := on l (fun k => setV k 1 0x10000)
    allOf [[0, 1, 2, 3, 4, 5, 6].all (fun i => vectorReady { w with mod := BitVec.ofNat 4 i } [.reg 1] [] false s),
      okB (setTopk s (ag .x) 4), okB (setList s (ag .x) 0), vectorReady w [.reg 1] [] false m,
      src m w [.reg 1] 0 == 0x10000, okB (checkList m (ag .x) 0x10000), okB (listEntries m (ag .x) 0x10000), okB (currentList m (ag .x)),
      vectorReady w [.reg 1] [(8, 1)] false m, vectorReady w [.reg 1, .reg 2] [] false m] = true := by
  decide +kernel

theorem witness_MatrixRecords :
    let s := ringed (base .x)
    let f : RecF := { fmtA := .f32, fmtB := .f32, fmtO := .f32, ringB := 1 }
    let full := on s (fun k => { k with eng := { k.eng with recs := List.replicate 4 { form := .mclr, rf := {}, num := 0 } } })
    allOf [readyRec f s, okB (checkRecord s (ag .x) .mma f), okB (checkRecord s (ag .x) .mmas { f with sparse := 1, ringD := 2 }),
      okB (checkRecord s (ag .x) .mhad { f with had := 1, ringB := 5 }), okB (checkRecord s (ag .x) .mclr {}),
      okB (checkRecord s (ag .x) .mlda { f with ringA := 3 }), okB (checkRecord s (ag .x) .msta { f with ringB := 3 }),
      okB (checkRecord s (ag .x) .mscl { f with ringA := 0 }), okB (checkRecord s (ag .x) .madda {}),
      okB (checkRecord s (ag .x) .mxp { f with ringA := 3, ringB := 4 }), readyRec f full] = true := by
  decide +kernel

theorem witness_ScalarFrame : allOf [scalarReady plain [.reg 1] (base .l), scalarReady plain [.reg 1, .lit 5] (base .l),
    scalarReady plain [.reg 1, .lit 5, .reg 2] (base .s)] = true := by
  decide +kernel

theorem witness_VectorFrame :
    let s := on (base .x) (fun k => setM k 2 0xF)
    let srcs := [vec.srcA, vec.srcB, vec.srcC]
    allOf ([1, 2, 3].map (fun n => vectorReady vec (srcs.take n) [] true s && roundReady vec (srcs.take n) [] s)) = true := by
  decide +kernel

theorem witness_ControlFrame :
    let s := base .l
    let w : WordF := { dst := .reg 3, srcA := .short 4, srcB := .reg 5 }
    let r : WordF := { dst := .reg 3, srcA := .reg 1, srcB := .short 4 }
    let at_ := regs s [(31, 0x20000), (1, 0x20000)]
    let t : WordF := { w with srcA := .tl .m }
    let pop : WordF := { dst := .reg 3, srcA := .queue 12 false, srcB := .short 0xFF, mod := 1 }
    let one := filled s 12
    let counts := modRegsOf s s.cur (fun r => { r with lc := vset r.lc 0 5 })
    let empty (s : State) : Bool := pop.mod.getLsbD 0 && queueReader 12 == s.cur.stream && !boundFor (bankOf s s.cur) 12 s.cur.stream
      && ((bankOf s s.cur).q.get 12).seen (now s) == 0
    let sets : WordF := { tag := .x, srcA := .short 0x10, srcB := .short 1 }
    allOf [ready w false s, inRange (target s w w.srcA), sourcesOk s s.cur [.short 4] [], sourcesOk s s.cur [.reg 5] [],
      ready w false counts, !(regsOf counts s.cur).badLc.getLsbD (lcNo w).val,
      ready r false at_, sourcesOk at_ s.cur [.reg 1] [], branchTaken .l 1 (src at_ r [.reg 1] 0), inRange (target at_ r r.srcB),
      sourcesOk at_ s.cur [.reg 31] [], src at_ r [.reg 31] 0 == 0x20000, src at_ r [.reg 1] 0 == 0x20000,
      ready t false s, (src s t [.reg 5] 0).toNat ≤ (tlValue s 0 .active .m).toNat, sourcesOk s s.cur [] (dstPush t.dst),
      !sregBad (bankOf s s.cur).sregs (sregOf { w with srcA := .short 1 }), ready { r with dst := .queue 0 false } false s,
      sourcesOk s s.cur [.reg 1] [(0, 1)], ready pop false one, !empty one, sourcesOk one s.cur [.queue 12 false] [],
      sourcesOk one s.cur [.queue 12 true] [], ready pop false s, empty s, sourcesOk s s.cur [.short 0xFF] [], queueReader 12 == .l,
      ready sets false (base .x), SReg.writable (sregOf sets), sourcesOk (base .x) (base .x).cur [.short 1] []] = true := by
  decide +kernel

/-- No cache holds entries of two sizes for the pages of some parts. -/
def noHits (s : State) (g : Agent) (ps : List Part) : Bool :=
  ps.all (fun p => !multiHit (tlbsOf s (agentDie g) (some g.core)) (reqOf s g false).ctx p.va)

/-- Do the checks of an access pass, with no MULTIHIT in it? -/
def quietly {α : Type} (s : State) (g : Agent) (parts : α → List Part) (r : Res α) : Bool :=
  match r with
  | .ok c => noHits s g (parts c)
  | .error _ => false

/-- Such an access is one of those of `LoadStoreFrame`. -/
theorem quietly_wordAccess (s : State) (g : Agent) (wr : Bool) (va : Word) (len align : Nat)
    (h : quietly s g Checked.parts (checkedBy s (reqOf s g wr) va len align) = true) :
    ∃ r ks, wordAccess s g wr va len align = .ok (r, ks) ∧ quietAccess s r g := by
  unfold wordAccess
  generalize checkedBy s (reqOf s g wr) va len align = c at h
  cases c with
  | error e => simp [quietly] at h
  | ok c =>
    refine ⟨wordServed s g [c], keysOf c.parts, rfl, c.parts,
      ([c].map (fun a => tlbMisses s g (reqOf s g false) a.va a.len)).sum, ?_, ?_⟩
    · simp only [wordServed, List.flatMap_cons, List.flatMap_nil, List.append_nil]
    · simpa [quietly, noHits] using h

theorem witness_LoadStoreFrame :
    let s := { at1 .s 0 with nextId := 1 }
    let l := at1 .l 0
    let x := filled l 12
    let all := [Operand.reg 1, .short 0, .reg 2]
    let many (s : State) (g : Agent) (wr : Bool) (vas : List Word) : Bool :=
      quietly s g List.flatten (partsMany s (reqOf s g wr) 8 8 0 vas)
    let index (s : State) (g : Agent) (wr : Bool) (vas : List (Option Word)) : Bool :=
      quietly s g List.flatten (partsIndexed s (reqOf s g wr) 8 0 vas)
    allOf [ready lds false s, sourcesOk s (ag .s) all [], src s lds all 0 + src s lds all 1 == 0x20000,
      quietly s (ag .s) Checked.parts (checkedBy s (reqOf s (ag .s) true) 0x20000 8 8),
      quietly s (ag .s) Checked.parts (checkedBy s (reqOf s (ag .s) true) 0x20000 (rawBytes .b32 0).length (rawAlign .b32)),
      ready { lds with mod := 4, etype := .b32 } false s, okB (spadCheck s 0 .active 0 (rawLen .b32) (rawAlign .b32) false),
      many s (ag .s) true (strideAddrs .n64 0x20000 8), index s (ag .s) true (indexAddrs .n64 0x20000 (whole s (ag .s) all 1)),
      sourcesOk s (ag .s) [.reg 1, .short 0] [], okB (checkScope s (ag .s) lds), releaseReady s (ag .s) .device 0,
      ready { lds with order := .rel, scope := .device } false s, src s lds [.reg 1, .short 0] 0 == 0x20000,
      ready lds false l, sourcesOk l (ag .l) [.reg 1, .short 0] [], src l lds [.reg 1, .short 0] 0 == 0x20000,
      quietly l (ag .l) Checked.parts (checkedBy l (reqOf l (ag .l) false) 0x20000 8 8),
      quietly l (ag .l) Checked.parts (checkedBy l (reqOf l (ag .l) false) 0x20000 (rawLen .b32) (rawAlign .b32)),
      sourcesOk l (ag .l) [.reg 1, .short 0] [(0, 1)], many l (ag .l) false (strideAddrs .n64 0x20000 8),
      sourcesOk x (ag .l) [.reg 1, .queue 12 false] [(0, 1)],
      index x (ag .l) false (indexAddrs .n64 0x20000 (whole x (ag .l) [.reg 1, .queue 12 false] 1))] = true := by
  decide +kernel

end Sys2Proof.Tests
end

