-- ==== Sys2Proof/Tests/WitnessEvents.lean ====
section
/-! SUPPORT. For every statement with hypotheses, states and operands that meet them, clause by clause: events, faults, the
step and the encodings. -/

namespace Sys2Proof.Tests

open Sys2Proof Sys2Proof.Machine Sys2Proof.Claims

-- One theorem is elaborated after the other, so that the checker needs no thread for each.
set_option Elab.async false

/-- The base state with code: the words given, one after the other, from address 0x10000, and a data page at 0x20000. -/
def withCode (t : Stream) (ws : List Nat) : State :=
  modMs (mapped t 0) (fun m => { m with
    mem := Mem.writeCells m.mem (cellsAt 0x30010 (toBytes 16 (textLeaf 4).toNat) ++ cellsAt 0x40000 (ws.flatMap (toBytes 16))) })

/-- The same on a cycle of the calendar outside every slot and window, with core 0 about to issue. -/
def outside (s : State) : State :=
  modDie { s with cal := { s.cal with cycle := 10000 } } 0 (fun d => { d with cycle := 8 })

/-- The active bank of core 0 with another stream state L. -/
def withL (s : State) (f : StreamSt → StreamSt) : State := modStOf s (ag .l) f

/-- Is an option filled? -/
def there {α : Type} (o : Option α) : Bool := o.isSome

/-- ADD a3 = a1, #1000, the worked encoding of R43 without its tokens and wait. -/
def addWord : Nat := 0x00000A0000C0000000000001000003E8

theorem witness_StreamEvents :
    let s := outside (withCode .l [addWord])
    let stalled := withL s (fun x => { x with run := .stalled .op, passed := 7 })
    let watching := withL stalled (fun x => { x with watching := some { line := 0x20000, bytes := [1], since := 0 } })
    let hit := modMs watching (fun m => { m with watches := [{ agent := ag .l, die := 0, keys := [0x50000], hit := true }] })
    let deferred := withL stalled (fun x => { x with deferred := [{ info := {}, src := .engine 0 }] })
    let frozen := withL (modAux stalled 0 .active (fun a => { a with freeze := some { info := {}, src := .word, stream := .s, since := 0 } }))
      (fun x => { x with stalledFor := 64 })
    let waits (k : PendKind) (v : Option Word) (f : Option FaultInfo) : State :=
      withL stalled (fun x => { x with pending := some { kind := k, sent := 5, word := plain, result := v, failed := f } })
    let masked : State := regs (withL stalled (fun x =>
      { x with pending := some { kind := .atomic, sent := 5, word := { plain with scope := .mask }, result := some 7 } })) [(2, 8)]
    let pend (t : State) : Option Pending := (stOf t (ag .l)).pending
    let lost (t : State) : Option DieId := (pend t).bind (fun p => lostDie t p.word.scope (wordMask t (ag .l) p.word))
    allOf [!struck stalled 0 .active, issueNow stalled 0, stalled.cal.relock == 0, mayResume (stOf stalled (ag .l)), !(stOf stalled (ag .l)).suspended, there (bankOf stalled (ag .l)).task,
      there (wordNow stalled (ag .l)),
      there (stOf watching (ag .l)).watching, isStalled (stOf watching (ag .l)), lineHit hit (ag .l),
      there (stOf hit (ag .l)).watching, slotEndAfter watching 0 ≤ watching.cal.cycle,
      !(stOf deferred (ag .l)).deferred.isEmpty, isStalled (stOf deferred (ag .l)),
      there (getAux frozen 0 .active).freeze, isStalled (stOf frozen (ag .l)), 64 ≤ (stOf frozen (ag .l)).stalledFor,
      there (pend (waits .atomic (some 7) none)), lost (waits .atomic (some 7) none) == none, lost masked == some 3,
      (pend (waits .atomic (some 7) none)).any (fun p => atomicSeen stalled (ag .l) p && p.result == some 7), (pend (waits .send (some 0) none)).map (·.kind) == some .send,
      (pend (waits .gbar (some 0) none)).map (·.kind) == some .gbar, ((pend (waits .gbar (some 0) none)).bind (·.result)).isSome,
      ((pend (waits .atomic none (some {}))).bind (·.failed)).isSome] = true := by
  decide +kernel

theorem witness_MemoryPathEvents :
    let s := base .l
    let w : Write := { id := 4, src := 0, stamp := some (Vector.replicate 16 0), cells := [(0x50000, 1)], applied := [0], reached := [0, 8] }
    let unplaced := modMs s (fun m => { m with unplaced := [w] })
    let placed := modMs s (fun m => { m with writes := [w] })
    let r : AtomicReq := { id := 4, agent := ag .l, ctx := 0, form := .reg, op := .add, etype := .s64, va := 0x20000, pa := 0x50000,
                           home := 0, arrived := true, b := 1, c := 0 }
    let atomic := modMs (mapped .l 0) (fun m => { m with atomics := [r] })
    let p : SendReq := { id := 4, agent := ag .l, task := placedTask, target := 0, off := 0x400, data := 0, red := none, h := 0x10000, at_ := some 0 }
    let red : SendReq := { p with red := some (0, 0, false, .f32) }
    let send := modMs s (fun m => { m with sends := [p] })
    let redsp := modMs (modCore s 0 (fun c => { c with nb := vset c.nb 0 { count := 2 } })) (fun m => { m with sends := [red] })
    let g : GbReq := { id := 4, agent := ag .l, g := 3, task := { placedTask with kinst := 9 }, arrived := true }
    let k : Kernel := { kinst := 9, ctx := 0, image := 0, argp := 0, seed := 0, cpl := 0, after := 0, cvec := 0,
                        insts := [{ st := .open_, g := 1 }] }
    let arrives := modMs { s with disp := { s.disp with kerns := [k] } } (fun m => { m with gbars := [g] })
    let notMember := modMs s (fun m => { m with gbars := [{ g with task := { placedTask with kind := .spawned } }] })
    let i : NodeInst := (getInst arrives 9 0).getD {}
    allOf [!(getAux (modAux s 0 .active (fun a => { a with sb := [{ id := 0, cells := [(0, 1)] }] })) 0 .active).sb.isEmpty,
      there (unplaced.ms.unplaced.find? (fun v => v.id == 4)), writeServes unplaced w, canPlace unplaced (before unplaced.ms.unplaced (fun v => v.id == 4)) w,
      writeServes placed w,
      there (placed.ms.writes.find? (fun v => v.id == 4)), canApply placed 8 (before placed.ms.writes (fun v => v.id == 4)) w,
      there (atomic.ms.atomics.find? (fun y => y.id == 4 && !y.faulted)), r.fault.isNone, r.redo != .translate, r.result.isNone,
      EType.width r.etype == 8 * elemLen r.etype, r.b.toNat < 2 ^ 64, r.c.toNat < 2 ^ 64,
      (let bad := modMs atomic (fun m => { m with
        mem := Mem.writeCells m.mem (cellsAt 0x30020 (toBytes 16 (eBit (dataLeaf 5 0 0) 7 true).toNat)) })
       there (homeFault bad r) && atomicDue bad r), atomicInOrder (atomicsBefore atomic 4) r, ownStoresPlaced atomic r,
      atomicOrdered atomic r, homeServes atomic r, atomicDue atomic r, (homeFault atomic r).isNone,
      arrivedSend send 4 false == some (p, 0), arrivalDie send p == 0, (dieRefuses send p).isNone, arrivalCore send p == some 0, runsCtx send 0 0,
      sendDue send p, sendRoom send p 0,
      arrivedSend redsp 4 true == some (red, 0), arrivalDie redsp red == 0, arrivalCore redsp red == some 0,
      (dieRefuses redsp red).isNone, !redGuard redsp red 0 0, sendDue redsp red, (redRefused redsp red 0 0 0 false .f32).isNone,
      there (arrives.ms.gbars.find? (fun y => y.id == 4 && y.arrived && y.answer.isNone)), Task.member g.task, there (getInst arrives 9 0), releaseBefore arrives g.agent .device 0 4, releaseBefore notMember g.agent .device 0 4,
      there (gbArrive ((getCaux arrives 0).gb.get 3) (9, 0) i.g ((rankRec arrives g.task 3).any (fun k => k.last == 0))),
      there (notMember.ms.gbars.find? (fun y => y.id == 4 && !Task.member y.task))] = true := by
  decide +kernel
/-- A node of class E0 and priority 2 that any compute die may run. -/
def someNode : Node := { deadline := 0, eclass := 0, prio := 2, gang := true, affinity := 0xFF, handler := 0, rows := [] }

/-- A kernel of context 0 with that node and one instance of it. -/
def kern (i : NodeInst) (n : Node) : Kernel :=
  { kinst := 64, ctx := 0, st := .admitted, image := 0x20000, argp := 0, seed := 0, cpl := 0, after := 0, cvec := 0
    graph := { nodes := [n] }, insts := [i] }

/-- A state with kernels. -/
def withKernels (s : State) (ks : List Kernel) : State := modDisp s (fun d => { d with kerns := ks })

/-- The task of that instance. -/
def kernTask : Task := { placedTask with kinst := 64 }

/-- The base state with no task, and a kernel. -/
def idle (i : NodeInst) (n : Node) : State := withKernels (modBank (base .l) 0 .active (fun _ => {})) [kern i n]

theorem witness_DispatchEvents :
    let q : QTask := { task := kernTask, start := { pc := 0x10000 }, order := 3 }
    let u : QTask := { q with task := { kernTask with prio := 0 } }
    let s := idle { st := .open_, pool := [q] } someNode
    let work (x : QTask) : State := modCore s 0 (fun k => { k with work := { k.work with engine := [x] } })
    let swap (w : Swap) : State := modCore s 0 (fun k => { k with swap := w })
    let k : Cont := { slot := 0, task := kernTask, pcL := 0, pcX := 0, pcS := 0, lc := [], aL := [], aS := [], live := 0, vecs := []
                      cond := .tl 0 0, pinned := true, core := 0 }
    let c := modCaux s 0 (fun a => { a with conts := [k] })
    let waits := modDisp s (fun d => { d with waits := [{ core := none, what := .engine q }] })
    let full (s : State) : State := modCore s 0 (fun k => { k with work := { k.work with
      ready := List.replicate 64 { what := .slot 0 9, pinned := true, prio := 2, order := 0 } } })
    allOf [coreServes s 0, (getBank s 0 .active).task.isNone, (getBank s 0 .shadow).task.isNone, (getCore s 0).swap == .none,
      !listedNow s 0 .active, !listedNow s 0 .shadow, there (nextCand (work q) 0 false), there (nextCand (work u) 0 true),
      entersLive s (.start q), entersTask s (.start q) == some kernTask, mayEnter s kernTask (.start q), (spoiled s (.start q)).isNone,
      (getCore (swap (.toShadow 0 (.start q))) 0).swap == .toShadow 0 (.start q), !entersLive s (.slot 0 9),
      (getCore (swap (.toActive 0)) 0).swap == .toActive 0, (nextCand (swap (.toActive 0)) 0 true).isNone,
      (getCore s 0).work.tile.length < 8, fillCands s 0 == [q],
      (s.disp.waits.find? (fun w => waitCore s w == some 0)).isNone, there (waits.disp.waits.find? (fun w => waitCore waits w == some 0)),
      contHolds c k, contCore c k == some 0, there ((getCaux c 0).conts.find? (fun k => k.slot == 0)), !k.queued,
      (contCore (full c) k).isNone, !k.ready] = true := by
  decide +kernel

/-- A state with every die link trained. -/
def linked (s : State) : State := { s with dlinks := Vector.replicate 80 { st := .up } }

theorem witness_ParkAndLaunchEvents :
    let s := idle { st := .open_ } someNode
    let dark (s : State) (g : Nat) : State := { s with bud := { s.bud with grade := g } }
    let parks := dark (modBank s 0 .active (fun k => { k with task := some { kernTask with eclass := 1 } })) 2
    let i : ParkImg := { slot := 0, shadow := false, core := 0, bank := { task := some kernTask }, aux := {}, acc := [], spad := [], badAcc := []
                         badSpad := [], nb := [], pseq := 0, viewV := [], last := [] }
    let x := modCaux (modMs s (fun m => { m with mem := [(0, 1)] })) 0 (fun a => { a with images := [i] })
    let torn := { i with bad := true }
    let image : List Byte := toBytes 2 1 ++ toBytes 2 1 ++ toBytes 12 0 ++ toBytes 8 64 ++ toBytes 40 0
      ++ toBytes 8 0 ++ [0, 2, 1, 0] ++ toBytes 4 1 ++ toBytes 8 0 ++ toBytes 40 0
      ++ toBytes 8 0x10000 ++ toBytes 8 0 ++ toBytes 4 5 ++ [1, 8, 1, 0] ++ toBytes 8 100 ++ toBytes 224 0
    let held (bs : List Byte) : State := modMs (withKernels (linked (mapped .l 0)) [{ kern {} someNode with st := .held }])
      (fun m => { m with mem := Mem.writeCells m.mem (cellsAt 0x50000 bs) })
    let dead := modCaux (withKernels s [{ kern {} someNode with st := .held, after := 128 }]) 0
      (fun a => { a with retired := [(128, .illop, false)] })
    let pending (aff : BitVec 16) : State := idle { st := .open_, g := 1, gang := .pending 0 } { someNode with affinity := aff }
    let holds (cs : List CoreId) : State := idle { st := .open_, g := 1, gang := .reserving 0 cs } someNode
    let first (s : State) (p : Kernel × Nat × Node × NodeInst → Bool) : Bool := match allInsts s with
      | [] => false
      | q :: _ => p q
    let heldBy (s : State) : State := modAux s 0 .active (fun a => { a with hold := some (64, 0) })
    let sheds := dark (idle { st := .open_, started := 1 } { someNode with eclass := 2 }) 3
    allOf [parkable parks 0 .active, !imageDue parks 0 .shadow, !allBanks.any (fun t => (dieOf t.1).val < (dieOf 0).val && parkable parks t.1 t.2),
      imageReady x 0 i, imageWhole x 0 i, !torn.fresh, !imageWhole x 0 torn, imageFirst x i, there (imageCore x i),
      admits (held image) 0, afterOf (held image) (kern {} someNode) == .go,
      (match readGraph (held image) 0 0x20000 with
       | .ok _ => true
       | .error _ => false), (match readGraph (held []) 0 0x20000 with
       | .error (.bad c) => c == .fmt
       | _ => false),
      ((dead.disp.kerns.filter (fun k => k.ctx == 0 && k.st == .held)).find? (fun k => afterOf dead k == .dead)).isSome,
      first (pending 0x80) (fun p => (everCores (pending 0x80) p.2.2.1.affinity).length < gangSize (pending 0x80) p.1 p.2.1 p.2.2.2
        && (pendingSince p.2.2.2).isSome && gangOpen (pending 0x80) p.1 p.2.1 p.2.2.2),
      first (pending 1) (fun p => !((everCores (pending 1) p.2.2.1.affinity).length < gangSize (pending 1) p.1 p.2.1 p.2.2.2)
        && (pendingSince p.2.2.2).isSome && gangOpen (pending 1) p.1 p.2.1 p.2.2.2 && dispatches (pending 1) p.1.ctx
        && classAllowed (pending 1) p.2.2.1.eclass
        && gangSize (pending 1) p.1 p.2.1 p.2.2.2 ≤ (gangList (pending 1) p.1 p.2.1 p.2.2.1.affinity).length
        && gangTurn (pending 1) p.1 p.2.1 p.2.2.1.affinity),
      first (holds [0]) (fun p => (reserved p.2.2.2) == some [0] && canHold (holds [0]) 0 (prioBank p.2.2.1)
        && gangFit (heldBy (holds [0])) p.1 p.2.1 p.2.2.1 p.2.2.2), heldNow (heldBy (holds [0])) 0 .active,
      first (holds [0, 1]) (fun p => canHold (holds [0, 1]) 0 (prioBank p.2.2.1)), !heldNow (heldBy (holds [0, 1])) 1 .active,
      first sheds shedDue, 3 ≤ sheds.bud.grade] = true := by
  decide +kernel

theorem witness_EngineEvents :
    let s := outside (mapped .l 0)
    let o (f : EngForm) (n : Nat) : EngOp := { form := f, num := 1, q := 0, base := 0x20000, v := 1, c0 := 1, c1 := 1, next := n }
    let eng (f : Engines → Engines) (s : State) : State := modBank s 0 .active (fun k => { k with eng := f k.eng })
    let ops (o : EngOp) : State := eng (fun e => { e with ops := vset e.ops 0 [o] }) s
    let drn := modBank (ops { o .drn 0 with q := 8 }) 0 .active (fun k => { k with q := vmod k.q 8 (fun f => { f with items := [{}] }) })
    let room (s : State) (q : Fin 16) : Bool := queueRoom (getBank s 0 .active) q (now s) != 0
    let r : AtomicReq := { id := 4, agent := ag .l, ctx := 0, form := .queue 0, op := .add, etype := .s64, va := 0x20000, pa := 0x50000,
                           home := 0, b := 1, c := 0, num := 1, result := some 5, back := true }
    let qat := modMs (ops { o .qatomic 0 with q := 14 }) (fun m => { m with atomics := [r] })
    let m : MatRec := { form := .mclr, rf := {}, num := 1 }
    let recs (m : MatRec) : State := eng (fun e => { e with recs := [m] }) s
    let pops : MatRec := { m with form := .mma, pops := [0], finished := true }
    let popped := setRing (recs pops) 0 .active (popRing pops 0) { base := 0, slots := 2, ksize := 64, kind := .a, tag := 0, held := 1 }
    let c : CopyOp := { id := 1, num := 1, agent := ag .l, task := 1, ctx := 0, kinst := 0, dst := 0x30000, src := 0x20000, len := 64 }
    let copies (c : CopyOp) : State := modDie s 0 (fun d => { d with cp := vmod d.cp 0 (fun k => { k with ops := [c] }) })
    let co : CollOp := newColl (ag .l) 0 .f32 0 0x1000 1 0 5
    let sum : CollOp := { co with s := 0x20000, d := 0x30000 }
    let hash : CollOp := { sum with op := 4, n := 8 }
    let commOf (s : State) : Comm := (findComm s 0 5).getD noComm
    let two : List Byte := toBytes 4 0
    let words := [opWord sum, opWord sum]
    let completes (s : State) (o : CollOp) (n : Nat) (out : List Byte → List Byte) : Bool :=
      match readPieces s (collReq 0 o false) 0 (rangePieces o.s.toNat n) with
      | .error _ => false
      | .ok (s1, own) =>
        let ps := rangePieces o.d.toNat (out own).length
        ((writePieces s1 0 { o with result := some (out own) } ((out own).drop ((ps.take o.piece).map (·.2)).sum)
          (ps.drop o.piece)).2.2).isNone
    let colls (c : CollOp) : State := modDie (modCaux s 0 (fun a => { a with comms := [{ handle := 5, p := 2, rank := 0
                                                                                         ranks := [(0, 0, 0), (1, 0, 0)], groups := [0] }] }))
      0 (fun d => { d with coOps := [c] })
    allOf [enginesRun s, issueNow s 0, (getBank s 0 .active).task.isSome, ((getBank (ops (o .strm 1)) 0 .active).eng.ops.get 0) == [o .strm 1],
      (o .strm 1).total ≤ (o .strm 1).next, (o .strm 0).next < (o .strm 0).total, room (ops (o .strm 0)) 0,
      okB (access (ops (o .strm 0)) (engReq (ops (o .strm 0)) 0 .active false) (affineAddr (o .strm 0) 0) (rawLen .s8) (rawAlign .s8)),
      (o .drn 0).next < (o .drn 0).total, ((getBank drn 0 .active).q.get 8).seen (now drn) != 0,
      okB (access drn (engReq drn 0 .active true) (affineAddr (o .drn 0) 0) (rawLen .s8) (rawAlign .s8)),
      (match engStep (ops { o .strm 0 with base := 0x90000 }) 0 .active 0 { o .strm 0 with base := 0x90000 } with
       | .error (.fault _ _) => true
       | _ => false),
      (qat.ms.atomics.find? (fun r => r.agent.core == 0 && r.agent.bank == .active && r.form == .queue 0 && r.num == 1 && r.back)).isSome, !inSlot qat,
      issueNow qat 0, performedAt qat r.wrote 0, !opFlying (copies c) c.id, room qat 14,
      stepDue (recs m) 0 .active, !stepDue (recs m) 0 .shadow, !(getAux (recs m) 0 .active).datapathBad,
      (match matStep (recs m) { core := 0, bank := .active } m with
       | .ok _ => true
       | .error _ => false), pushDue (recs { m with form := .msta, out := [0] }) 0 .active { m with form := .msta, out := [0] }, stepDue (modAux (recs m) 0 .active (fun x => { x with datapathBad := true })) 0 .active,
      allOf [(getRing popped 0 .active (popRing pops 0)).any (fun r => r.held != 0), (getBank popped 0 .active).eng.recs == [pops],
      c.done < c.len, ((getDie (copies c) 0).cp.get 0).ops == [c],
      (match access (copies c) (copyReq 0 c false) c.src (pieceLen c c.dst.toNat) 1 with
       | .ok (s1, _) => okB (access s1 (copyReq 0 c true) c.dst (pieceLen c c.dst.toNat) 1)
       | .error _ => false), ((getDie (copies { c with discarded := true }) 0).cp.get 0).ops.any (·.discarded),
      (getDie (colls { co with discarded := true }) 0).coOps.any (fun o => o.ctx == 0 && o.handle == 5 && !o.finished && o.discarded),
      (getDie (colls co) 0).coOps.any (fun o => o.ctx == 0 && o.handle == 5 && !o.finished && !o.discarded && !o.faulted && o.op != 4),
      (findComm (colls co) 0 5).isSome]] = true
    ∧ allOf [co.result.isNone, dataFits (commOf (colls co)) sum words [two, two] [0, 0], !opFlying (colls co) co.id,
      (stepLost (colls sum) sum (commOf (colls sum)) (.data words [two, two] [0, 0] [] [])).isNone, enginesRun (colls sum),
      (stepLost (colls sum) { sum with lost := some {} } (commOf (colls sum)) .aborted).isSome, sum.own.isNone, sum.lost.isNone,
      (let given : CollOp := { sum with own := some two }
       (stepLost (colls given) given (commOf (colls given)) (.data words [two, two] [0, 0] [] [])).isNone
         && allGave (colls given) (commOf (colls given)) given words [two, two]
         && (differs (withOwn [opWord sum, opWord { sum with n := 2 }] 0 (opWord sum))).isSome
         && (rangePieces sum.d.toNat two.length).length ≤ ({ given with result := some two, piece := 1 } : CollOp).piece),
      !(getCtx (colls sum) 0).attr.getLsbD 0,
      (differs (withOwn words (commOf (colls sum)).rank (opWord sum))).isNone,
      completes (colls sum) sum (collIn (commOf (colls sum)) sum) (fun own => collOut (commOf (colls sum)) sum own [two, two] [0, 0]),
      completes (colls hash) hash hash.n (fun own => toBytes 8 (crc64 own).toNat)] = true := by
  decide +kernel

theorem witness_PageEvents :
    let s := outside (mapped .l 0)
    let mg (o : MigOp) : State := modDie s 0 (fun d => { d with mgOps := [o] })
    let o : MigOp := { id := 1, num := 1, agent := ag .l, task := 1, ctx := 0, zero := false, first := 0x20000, count := 1, status := 0
                       tier := 2, hsh := false, home := 0, next := 1 }
    let at_ := 0x30020
    let m (e : Pte) (rep : Bool) : Move := { id := 4, by_ := .capo, ctx := 0, va := 0x20000, at_ := at_, entry := e, tier := 3, hsh := false
                                             home := 8, frame := 0, own := false, repair := rep }
    let moving (e : Pte) (rep : Bool) : State := modMs s (fun x => { x with moves := [m e rep] })
    let e := homePte s.ms at_
    let leafAt (p : Pte) : State := modMs s (fun x => { x with mem := Mem.writeCells x.mem (cellsAt at_ (toBytes 16 p.toNat)) })
    let shared := leafAt (eSet e 9 2 2)
    let lp := modMs (leafAt (eSet (eSet e 11 3 3) 15 4 8)) (fun x => { x with free := [{ tier := 2, home := 0, first := 9, count := 2 }] })
    let leaf (s : State) (p : Leaf → Bool) : Bool := match homeLeaf s 0 0x20000 with
      | .leaf l => !leafBad l && p l
      | _ => false
    let entry (f : Pte → Pte) : State := modMs s (fun x => { x with mem := Mem.writeCells x.mem (cellsAt at_ (toBytes 16 (f e).toNat)) })
    let gone (e : Pte) : Pte := eSet (eSet e 11 3 0) 36 28 2
    let zeroes (f : Pte → Pte) (p : Pte → Bool) : Bool := leaf (entry f) (fun l => eSHR l.entry == 0 && eTIER l.entry != 1
      && eMV l.entry == 0 && !frameBusy (entry f) l.entry && !l.large && eWR l.entry && p l.entry)
    let moves (f : Pte → Pte) (p : Pte → Bool) : Bool := leaf (entry f) (fun l => eSHR l.entry == 0 && !ePSN l.entry && eMV l.entry == 0
      && eRD l.entry && p l.entry)
    let cap (s : State) : State := modDie s 8 (fun d => { d with mgOps := [{ o with capo := true, next := 0 }] })
    let h : Handle := { n := 1, base := 0, len := 0x100000, pasid := 0, rd := true, wr := true, dev := 0 }
    let backed := modCaux (modMs (leafAt (eSet e 108 12 1)) (fun x => { x with moves := [m e true] })) 0 (fun a => { a with handles := [h] })
    allOf [(getDie (mg o) 0).mgOps == [o], !statusFlying (mg o) 0, o.count ≤ o.next, !o.waiting, !o.discarded, 
      allOf [!o.ws, !o.capo, migRoom s 8, leaf (cap s) (fun l => eTIER l.entry == 2), enginesRun (cap s),
        ((getDie (cap s) 8).mgOps.head?.map (·.capo)) == some true], enginesRun (mg { o with next := 0 }),
      leaf (entry (fun e => eBit e 3 false)) (fun l => !eWR l.entry), zeroes (fun e => eBit e 5 true) ePIN,
      zeroes gone (fun e => eTIER e == 0 && !ePSN e && !ePIN e), zeroes id (fun e => eTIER e != 0 && !ePIN e),
      leaf (entry (fun e => eBit e 2 false)) (fun l => !eRD l.entry), moves gone (fun e => eTIER e == 0),
      moves (fun e => eBit e 5 true) (fun e => eTIER e != 0 && ePIN e),
      leaf lp (fun l => eRD l.entry && eSHR l.entry == 0 && !ePSN l.entry && eMV l.entry == 0 && !ePIN l.entry && eTIER l.entry == 3
        && !l.large && (takeFrame lp 0 2 false 0).isSome),
      (moving 0 false).ms.moves.any (fun m => m.id == 4 && !m.repair), eBit e 5 false == eBit (m e false).entry 5 false,
      eBit e 5 false != eBit (m 0 false).entry 5 false, enginesRun s, !frameBusy s e,
      moveReaches (linked s) (m e false) e,
      (moving e true).ms.moves.any (fun m => m.id == 4 && m.repair), (backing (moving e true) (m e true)).isNone,
      (backing backed (m e true)).isSome, 0 + 64 ≤ 65 + period s,
      (getDie s 0).st == .up, bankCtx (getBank s 0 .active) == some 0,
      leaf shared (fun l => eSHR l.entry == 2 && eTIER l.entry == 2 && eMV l.entry == 0 && !ePSN l.entry), !shared.disp.linkDown,
      homeOk (Tier.num .hbm) false 0, presentNo s 0, leaf s (fun l => eTIER l.entry == Tier.num .hbm),
      leaf lp (fun l => !ePSN l.entry && eMV l.entry == 0 && !ePIN l.entry && 1 < eTIER l.entry && eTIER l.entry < 4
        && eTIER l.entry != Tier.num .hbm && !l.large
        && (match startMove lp .capo 0 l (decide (eTIER l.entry < Tier.num .hbm)) (Tier.num .hbm) false 0 with
            | .begun _ => true
            | _ => false)),
      (getCaux (modCaux s 0 (fun a => { a with handles := [{ n := 1, base := 0, len := 4096, pasid := 0, rd := true, wr := true, dev := 0 }] })) 0).handles.any
        (fun k => k.n == 1)] = true := by
  decide +kernel

theorem witness_FaultAndResetEvents :
    let s := base .l
    let e : Structure := .queue 0 .active 3 0
    let inSlotEnd (s : State) : State := { s with cal := { s.cal with cycle := 65536 + 3900 } }
    let tests := inSlotEnd { s with care := { s.care with tests := [(e, 0)] } }
    let res (n : BitVec 8) : Vector DieTest 10 := (Vector.replicate 10 { result := n, forward := false }).set 8 { result := 0, forward := true }
    allOf [Machine.coded e, losable s 0, losable s 8, (getDie (modDie s 3 (fun d => { d with st := .resetting })) 3).st == .resetting,
      (let b := { s.boot with missed := 4, standby := true }; 4 ≤ b.missed && b.standby), s.boot.stat == 1, (getDie (modDie s 9 (fun d => { d with st := .up })) 9).st == .up, testDue tests e && serveWindow tests,
      State.reset.boot.stat == 0, State.reset.boot.step == 1, ((res 0).get 8).result == 0, ((res 1).get 8).result == 0] = true := by
  decide +kernel

/-- What the boot clause asks of the dies, whichever slot boots: none passes, or each does. -/
theorem witness_BootSelftest :
    let res (n : BitVec 8) : Vector DieTest 10 := (Vector.replicate 10 { result := n, forward := false }).set 8 { result := 0, forward := true }
    let none_ (r : BitVec 8) (n : Nat) : Bool := allDies.all (fun d => !(d.val < 8 && present (bootDies State.reset (res r) n) d))
    allOf [none_ 1 0, none_ 1 1, !none_ 0 0, !none_ 0 1] = true := by
  decide +kernel

theorem witness_LinkEvents :
    let l : LinkId := .dl 0 3
    let s := linked (base .l)
    let f : Flit := { seq := 0, ack := 0, nak := none, pays := [] }
    let p : Payload := { src := 0, dst := 8, kind := .other }
    let sends := post s p
    let replays := modLink s l (fun k => { k with buffer := [f], replay := [0] })
    let arriving := foldAll s ((partner l).toList) (fun s e => modLink s e (fun k => { k with wire := [f] }))
    let full := { modLink s l (fun k => { k with buffer := [f] }) with cal := { s.cal with cycle := 4096, age := 36000000 } }
    let training := modLink s l (fun k => { k with st := .training })
    let ext := { s with cal := { s.cal with cycle := 65536 * 8 + 3840, extLast := some 8 } }
    allOf [linkMoves s l, linkMoves replays l, !(getLink replays l).replay.isEmpty, linkMoves sends l, (getLink sends l).replay.isEmpty,
      (getLink sends l).buffer.length < bufferSize l, (sendable sends l).length == 1,
      linkMoves arriving l, there (nextFlit arriving l none), !(getLink full l).buffer.isEmpty, (getLink full l).st.carries,
      Nat.max (getLink full l).lastAck (getLink full l).lastReplay + 4096 ≤ full.cal.cycle, (getLink full l).ackAge + 36000000 ≤ full.cal.age,
      (getLink training l).st == .training, extOf ext (period ext) == some 8, ext.cal.retrained != 9, serveWindow ext,
      !s.disp.linkDown] = true := by
  decide +kernel

/-- A flit that arrives passes its CRC where no byte has changed, and does not where one bit of the CRC has. -/
theorem witness_LinkEvents_arrivals (f : Flit) : arrives f [] = some f ∧ arrives f [(255, 1)] = none :=
  ⟨arrives_clean f, arrives_changed f⟩

/-- A record of a ring: SEQ 0, an OP, context 0, no flags, no status address, and its body. -/
def ringRecord (op : Nat) (body : List Byte) : List Byte := toBytes 4 0 ++ [BitVec.ofNat 8 op, 0] ++ toBytes 10 0 ++ body

/-- The base state with that record at the HEAD of ring 0, and context 0 in a state. -/
def atRing (st : CtxSt) (op : Nat) (body : List Byte) : State :=
  let s := modMs (base .l) (fun m => { m with mem := Mem.writeCells [] (cellsAt (hostKey 0x1100) (ringRecord op body)) })
  modCtx (modRing16 s 0 (fun g => { g with rb := 0x1000, n := 16, allow := 1, st := 1, tail := 1 })) 0 (fun c => { c with st := st })

/-- The conditions of `recordAt` for ring 0 and context 0. -/
def recordOk (s : State) (op : Nat) (body : RingRecord → Bool) : Bool :=
  let g := getRing16 s 0
  let c := headRecord s g
  ringServed s g && g.count != 0 && g.count ≤ g.n && c.seq == g.head.toNat && c.op == op && c.flags < 2 && c.statva % 16 == 0
    && ctxNo c.ctx == some 0 && g.allow.getLsbD c.ctx && body c

theorem witness_RingCommands :
    let zeros := toBytes 48 0
    let opens := toBytes 8 0 ++ toBytes 8 0x10000 ++ toBytes 8 0x20000 ++ toBytes 24 0
    let loads := toBytes 8 0x10000 ++ toBytes 4 1 ++ toBytes 36 0
    let op (st : CtxSt) (o : Nat) (b : List Byte) (ok : State → RingRecord → Bool) : Bool := recordOk (atRing st o b) o (ok (atRing st o b))
    let w : WsLoad := { first := 0x10000, count := 1, home := 0, status := 0, ring := 0, seq := 0, statva := 0, irq := false }
    let q := modCaux (base .l) 0 (fun a => { a with quiesce := some (0, 0, 0, false) })
    let ws := modCtx (modCaux (base .l) 0 (fun a => { a with ws := [w] })) 0 (fun c => { c with st := .ready })
    allOf [op .ready 0x01 zeros (fun _ => launchOk), op .free 0x10 opens (fun _ => openOk), op .loading 0x11 zeros (fun _ => zeroBody),
      op .loading 0x12 loads wsloadOk, op .free 0x12 loads wsloadOk, op .running 0x13 zeros (fun _ => zeroBody),
      op .quiesced 0x14 zeros (fun _ => zeroBody), ringServed (atRing .ready 1 []) (getRing16 (atRing .ready 1 []) 0),
      !hostFlying (atRing .ready 1 []), (atRing .quiesced 0x14 zeros).ms.atomics.isEmpty,
      (getCaux (atRing .quiesced 0x14 zeros) 0).quiesce.isNone, (getCaux q 0).quiesce.isSome, !dieOpsLeft q 0, (getCaux ws 0).ws == [w], !w.cancelled, !w.running, w.status == 0,
      wsOpen ws 0, migRoom ws (Fin.ofNat 10 w.home), ws.boot.stat == 1,
      ringOk (getRing16 (atRing .ready 1 []) 0), !ws.disp.linkDown] = true := by
  decide +kernel

theorem witness_CalendarEvents :
    let at_ (c : Nat) : State := { base .l with cal := { (base .l).cal with cycle := c } }
    let level := { at_ 65536 with cal := { (at_ 65536).cal with nextLevel := [(2, 1)] } }
    let late := { at_ 65536 with care := { (at_ 65536).care with overruns := [(3, .dram 0 0)] } }
    let m : Meter := { total := 3, banks := [{ core := 0, bank := .active, ctx := 0, kinst := 0, energy := 2 }], memory := [], unattributed := 1, e0 := 0 }
    let closed := { at_ (65536 + 3584) with bud := { (at_ 0).bud with closed := [{ ran := [(0, .active, 0, 0)] }] } }
    allOf [(at_ 65536).cal.boundary < period (at_ 65536), inDrain (at_ 65024), (at_ 65024).cal.drain ≤ period (at_ 65024),
      level.cal.nextLevel.find? (fun n => n.2 = period level) == some (2, 1), phase level < 1024, inSlot (at_ 1024),
      phase (at_ 3583) < 3584, (at_ 1024).cal.refreshed ≤ period (at_ 1024), inSlot (at_ (65536 + 3584)), phase (at_ (65536 + 3839)) < 3840,
      period (at_ (65536 + 3584)) != 0, meterOk closed m, slotEnded (at_ 4096) == some (0, 1), slotEnded (at_ 4095) == none, late.care.overruns.find? (fun o => o.1 == 3) == some (3, .dram 0 0),
      overrunEnded late (.dram 0 0)] = true := by
  decide +kernel

theorem witness_BudgetAndIslandEvents :
    let s := modBank (base .l) 0 .active (fun _ => {})
    let cap := modCtl (base .l) 0 (fun k => { k with cap := 5 })
    let c : Curve := { maxGrade := 0, seq := 1, start := 0, end_ := 0, points := [] }
    let known := { s with cal := { s.cal with time := some 360 } }
    let pending := { known with bud := { s.bud with pending := some c } }
    let current := { known with bud := { s.bud with current := some c } }
    let dark := { s with bud := { s.bud with grade := 2 } }
    let gated := modDie s 0 (fun d => { d with st := .gated })
    let q : QTask := { task := placedTask, start := { pc := 0 }, order := 0 }
    let asks := modCore gated 0 (fun k => { k with work := { k.work with engine := [q] } })
    allOf [capDue cap 0, (dieCycle cap (dieOf 0)).toNat % 8 == 0, (getDie s 0).st == .up, pendingDue pending, c.start ≤ facilityNs pending,
      current.cal.time.isSome, c.end_ ≤ facilityNs current, !pendingDue current, s.cal.time.isNone, gatable dark 0,
      (getDie gated 0).st == .gated, neededE0 asks 0, gated.bud.grade < 2,
      allDies.all (fun e => (getDie gated e).st != .ungating && !(e.val < (0 : DieId).val && (getDie gated e).st == .gated))] = true := by
  decide +kernel

theorem witness_HostRegisterEvents :
    let s := base .l
    let comm (bs : List Byte) : State := modMs s (fun m => { m with mem := Mem.writeCells [] (cellsAt (hostKey 0) bs) })
    let body := toBytes 2 2 ++ toBytes 2 0 ++ [0, 5] ++ toBytes 2 1 ++ toBytes 8 0 ++ toBytes 16 0 ++ toBytes 8 0
    let busy := modDie (comm body) 0 (fun d => { d with coOps := [newColl (ag .l) 0 .f32 0 0x1000 1 0 5] })
    allOf [!s.disp.linkDown, s.boot.stat == 1, State.reset.boot.stat == 0, !State.reset.disp.linkDown, s.boot.leaf < 32768,
      (readComm (comm []) 0).isNone, (readComm (comm body) 0).any (fun c => c.1 == 0 && c.2.handle == 5 && !commBusy (comm body) 0 c.2.handle),
      (readComm busy 0).any (fun c => commBusy busy 0 c.2.handle), bits (1 : Word) 3 2 == 0] = true := by
  decide +kernel

theorem witness_FalsePredicate :
    let w : WordF := { dst := .reg 3, srcA := .reg 1, srcB := .lit 5, pidx := 1 }
    let s := base .l
    allOf [wellFormed (.add w), wordOf (.add w) == some (0x002, w), mayEvaluate s s.cur, (stOf s s.cur).deferred.isEmpty,
      slipAndWaitPass s w.wait false, tokensReady (bankOf s s.cur) .l s.cal.cycle (bitTokens w), !tokensBad (bankOf s s.cur) .l (bitTokens w),
      !predicateBad (bankOf s s.cur) .l 1, !predicate (bankOf s s.cur) .l 1 false] = true := by
  decide +kernel

/-- A stream with one more turn, its own. -/
def turnOf (s : State) : State := { s with agenda := [.word s.cur] }

theorem witness_EarlyFaults :
    let s := turnOf (withCode .l [0x7FFF * 2 ^ 112 % 2 ^ 125])
    let bs := match fetchBytes s s.cur 0x10000 16 with
      | .ok bs => bs
      | .error _ => []
    let at_ (v : Word) (t : Stream) (e : Pte → Pte) : State :=
      modMs (regs (mapped t 0) [(1, v)]) (fun m => { m with mem := Mem.writeCells m.mem (cellsAt 0x30020 (toBytes 16 (e (dataLeaf 5 0 0)).toNat)) })
    let ok (v : Word) (t : Stream) (e : Pte → Pte) : Bool := ready lds false (at_ v t e)
      && sourcesOk (at_ v t e) (ag t) (if t == .s then [.reg 1, .short 0, .reg 2] else [.reg 1, .short 0]) []
      && src (at_ v t e) lds [.reg 1, .short 0] 0 == v
    let leaf (v : Word) (t : Stream) (e : Pte → Pte) (p : Pte → Bool) : Bool := ok v t e && (match translate (at_ v t e) 0 (some 0) 0 v.toNat with
      | .leaf l => (malformedAt l.entry l.large).isNone && p l.entry
      | _ => false)
    allOf [mayEvaluate s s.cur, bs.length == 16, fateOf .l (ofBytes bs / 2 ^ 125 % 8) == .execute,
      (match decode bs with
       | .ok _ => false
       | .error _ => true),
      ok (2 ^ 52) .l id, ok (2 ^ 52 - 1) .l id, ok (2 ^ 52) .s id, ok 0x20001 .l id, ok 0x20001 .s id, ok 0x90000 .l id,
      translate (at_ 0x90000 .l id) 0 (some 0) 0 0x90000 == .none,
      leaf 0x20000 .l (fun e => eBit e 2 false) (fun e => !eRD e && eTIER e != 4),
      leaf 0x20000 .s (fun e => eBit e 3 false) (fun e => !eWR e), leaf 0x20000 .s (fun e => eSet e 11 3 1) (fun e => eWR e && eTIER e == 1)] = true := by
  decide +kernel

theorem witness_TagFates :
    let s := turnOf (withCode .l [2 ^ 125, 5 * 2 ^ 125])
    let r := turnOf (withCode .l [7 * 2 ^ 125])
    let tag (s : State) : Nat := match fetchBytes s s.cur 0x10000 16 with
      | .ok bs => ofBytes bs / 2 ^ 125 % 8
      | .error _ => 99
    allOf [mayEvaluate s s.cur, fateOf .l (tag s) == .skip, fateOf .l (tag r) == .reserved, !(stOf r r.cur).thaw] = true := by
  decide +kernel

theorem witness_QueueEntries :
    allOf [(base .l).cur.stream != .x, (base .x).cur.stream == .x, ((bankOf (filled (base .x) 0) (ag .x)).q.get 0).items == [{}]] = true := by
  decide +kernel

theorem witness_SlotWait :
    let s := base .l
    let e := { s with cal := { s.cal with extNext := some 4 } }
    let holds (s : State) (c : Nat) : Bool := waitHolds s (ag .l) { value := 42, start := c, entry := {} }
    let at_ (s : State) (n : Nat) : State := { s with cal := { s.cal with cycle := n } }
    allOf [extOf s 1 == none, !holds (at_ s 69631) 65536, holds (at_ s 69632) 65536, extOf e 4 == some 4,
      !holds (at_ e (65536 * 8 - 1)) (65536 * 4), holds (at_ e (65536 * 8)) (65536 * 4), extOf e 5 == some 4, extOf e 8 == none,
      !holds (at_ e (65536 * 8 + 4095)) (65536 * 4 + 1), holds (at_ e (65536 * 8 + 4096)) (65536 * 4 + 1)] = true := by
  decide +kernel

theorem witness_ResetState : allOf [(base .l).boot.stat == 1, (0 : Word) != 1] = true := by decide +kernel

theorem witness_LeavesSignOnce : leavesOk State.reset ∧
    allOf [match step State.reset with
      | .next _ => true
      | _ => false] = true := by
  exact ⟨Nat.zero_le _, by decide +kernel⟩

theorem witness_MemoryStaysCanonical : memOk (turnOf (withCode .l [addWord])) ∧
    allOf [match step (turnOf (withCode .l [addWord])) with
      | .next _ => true
      | _ => false] = true := by
  refine ⟨?_, by decide +kernel⟩
  unfold memOk coreMemOk imageMemOk
  decide +kernel

theorem witness_StepRunsDecoded :
    let s := turnOf (withCode .l [addWord])
    let r := turnOf (withCode .x [0x60000000440011000000000000000003, 0x60A02480000000000000000000000000,
      0x60000000000000000000000000000000, 0x60000000000000000000000000000000])
    let fetched (s : State) (a : Word) (n : Nat) : List Byte := match fetchBytes s s.cur a n with
      | .ok bs => bs
      | .error _ => []
    let bs := fetched s 0x10000 16
    let rs := fetched r 0x10000 16
    let decodes (bs : List Byte) : Bool := match decode bs with
      | .ok _ => true
      | .error _ => false
    allOf [mayEvaluate s s.cur, fateOf .l (ofBytes bs / 2 ^ 125 % 8) == .execute, ofBytes bs / 2 ^ 125 % 8 != 3, decodes bs,
      mayEvaluate r r.cur, fateOf .x (ofBytes rs / 2 ^ 125 % 8) == .execute, ofBytes rs / 2 ^ 125 % 8 == 3,
      decodes (rs ++ fetched r 0x10010 48)] = true := by
  decide +kernel

theorem witness_DecodeEncode :
    let mma : RecF := { fmtA := .e4m3, fmtB := .e4m3, fmtO := .f32, ringB := 1, ringD := 2 }
    allOf [wellFormed (.add { plain with srcC := .reg 0 }), !(encode (.add plain)).isEmpty, wellFormed (.mma mma), !(encode (.mma mma)).isEmpty] = true := by
  decide +kernel

end Sys2Proof.Tests
end

