-- ==== Sys2Proof/Tests/Slice0.lean ====
section
/-! SUPPORT. The model's own tests: an ill-formed term for each check of well-formedness, the spec's worked encodings, and
single steps whose results the spec works out. -/

namespace Sys2Proof.Tests

open Sys2Proof Sys2Proof.Machine

-- One theorem is elaborated after the other, so that the checker needs no thread for each.
set_option Elab.async false

/-! ### Ill-formed terms -/

/-- R35, R37, R38, R40, R42, R43: what no form may hold. -/
theorem test_ill_formed_header :
    let a : WordF := { dst := .reg 3, srcA := .reg 1, srcB := .reg 2 }
    let v : WordF := { tag := .x, dst := .reg 3, etype := .s32, srcA := .reg 1, srcB := .reg 2 }
    [Instr.add a, .add { a with wait := 42 }, .add { a with srcB := .lit 9, mod := 8 }, .vadd v].all wellFormed = true
    ∧ [Instr.add { a with wait := 43 }, .add { a with pneg := true }, .add { a with srcA := .lit 1, srcB := .lit 2 },
        .add { a with mfile := true }, .add { a with mod := 8 }, .add { a with mod := 1 }, .add { a with etype := .s32 },
        .add { a with scope := .die }, .add { a with order := .acq }, .add { a with tag := .x }, .add { a with tag := .b },
        .add { a with dst := .lit 0 }, .add { a with dst := .queue 0 true }, .add { a with dst := .mlc 4 }, .add { a with srcA := .mlc 4 },
        .add { a with srcA := .age 0 }, .add { a with srcA := .nb 0 }, .add { a with srcC := .reg 1 }, .vadd { v with etype := .f32 },
        .vadd { v with dst := .age 1 }, .vadd { v with srcA := .mlc 0 }, .vadd { v with mod := 8 }, .vadd { v with scope := .mask },
        .sync { tag := .b, par := true }, .sync { tag := .b, pidx := 1 }, .sync {}].any wellFormed = false := by
  decide

/-- R93, R101, R104 to R109, R123, R125, R126, R130, R203, R252, R280, R337, R360, R361, R374: what one form may not hold. -/
theorem test_ill_formed_words :
    [Instr.tkpush { srcA := .short 9 }, .tkpush { srcA := .short 0 }, .tkpush { pal := true, srcA := .short 8 },
      .gets { dst := .reg 1, srcA := .short 0x10 }, .gets { dst := .reg 1, srcA := .short 0x30 }, .perf { srcA := .short 8 },
      .br { srcA := .reg 1 }, .ret { srcA := .reg 1 }, .loopSet { mod := 3, srcA := .short 1 }, .bri { srcA := .short 4 },
      .trap { srcA := .short 7, srcB := .reg 3 }, .brk { mod := 1, srcA := .short 7, srcB := .reg 3, dst := .reg 1 },
      .ld { tag := .s, etype := .n64, srcA := .reg 1, srcB := .short 0 }, .ld { etype := .f32, srcA := .reg 1, srcB := .short 0 },
      .ldacq { etype := .n64, srcA := .reg 1, srcB := .short 0 }, .strel { tag := .s, etype := .n64, order := .acq, srcA := .reg 1, srcB := .reg 2 },
      .aadd { mod := 2, etype := .s64, srcA := .reg 6, srcB := .reg 7 }, .acas { mod := 1, etype := .s64, srcA := .reg 6, srcB := .reg 4 },
      .aadd { mod := 4, dst := .queue 0 false, etype := .s64, order := .rel, srcA := .reg 6, srcB := .reg 7 },
      .klaunch { dst := .reg 1, srcA := .reg 27 }, .coll { etype := .b32, srcA := .reg 4 }, .coll { mod := 1, etype := .f32, srcA := .reg 4 },
      .digest { mod := 2, srcA := .reg 4 }, .fcmp { tag := .x, dst := .mlc 1, etype := .f32, mod := 8 },
      .cvt { tag := .x, dst := .reg 2, etype := .f32, srcA := .reg 1, srcB := .short 4, srcC := .short 4 },
      .cvt { tag := .x, dst := .reg 2, etype := .f32, srcA := .reg 1, srcB := .short 0x0C, srcC := .short 0 },
      .vredadd { tag := .x, mod := 1, dst := .reg 5, etype := .s32, srcA := .age 0, srcB := .mlc 3 },
      .pkset { tag := .x, mod := 3, srcA := .short 1 }, .fence { tag := .b, order := .rlx },
      .yieldTl { tag := .b, srcA := .tl .m, srcB := .short 0 }, .yieldNb { tag := .b, mod := 1, srcA := .nb 0, srcB := .lit 0x1FFFF },
      .tlbinv { srcA := .reg 4 }].any wellFormed = false := by
  decide

/-- R46, R177: what no record may hold. -/
theorem test_ill_formed_records :
    let r : RecF := { fmtA := .e4m3, fmtB := .e4m3, fmtO := .f32, ringB := 1, ringD := 2 }
    wellFormed (.mma r) = true
    ∧ [Instr.mma { r with mod := 1 }, .mma { r with wait := 43 }, .mma { r with pneg := true }, .mma { r with tile := 48 },
        .mma { r with fmtA := .raw }, .mma { r with fmtB := .nq4 }, .mma { r with fmtO := .bf16 }, .mma { r with fmtB := .int8 },
        .mma { r with sgnA := true }, .mma { r with sparse := 1 }, .mma { r with rnd := 1 }, .mma { r with sat := true },
        .mma { r with lvA := 1 }, .mmas r, .mhad r, .mclr r, .mlda r, .msta r, .mscl r, .madda r, .mxp r].any wellFormed = false := by
  decide

/-! ### Worked encodings -/

/-- R42 to R44, R104, R106, R108, R110, R117, R123, R125, R130: words written out in chapters 2, 4, 5, 21 and 22. -/
theorem test_decode_scalar_and_vector :
    [
      (0x02180A0000C0000000000001000003E8, Instr.add { par := true, wait := 3, dst := .reg 3, srcA := .reg 1, srcB := .lit 1000 }),
      (0x0001140100000000000002FB00000000, .loop { mod := 1, srcA := .short 0xFB }),
      (0x2001040200000000000000320000020C, .bc { tag := .x, mod := 2, srcA := .mlc 2, srcB := .short 12 }),
      (0x81501000000000000000000000000000, .sync { tag := .b, wait := 42 }),
      (0x0000050800800000FFFFFFFE00000000, .mov { mod := 8, dst := .reg 2, srcA := .lit 0xFFFFFFFE }),
      (0x00005A00008000000000000200001F00, .bfx { dst := .reg 2, srcA := .reg 2, srcB := .lit 0x1F00 }),
      (0x00018070438000000000000A00000000, .qpush { pidx := 7, dst := .queue 14 false, srcA := .reg 10 }),
      (0x0002060000000000000002040000FFFF, .sets { srcA := .short 4, srcB := .lit 0xFFFF }),
      (0x20040020420400000000010000000201, .vadd { tag := .x, pidx := 2, dst := .queue 8 false, etype := .s32, srcA := .queue 0 false, srcB := .short 1 }),
      (0x200600020C8400000000000100000200, .vcmp { tag := .x, mod := 2, dst := .mlc 2, etype := .s32, srcA := .reg 1, srcB := .short 0 }),
      (0x20068006009002010000000100000204, .cvt { tag := .x, mod := 6, dst := .reg 2, etype := .f32, srcC := .short 1, srcA := .reg 1, srcB := .short 4 }),
      (0x2006D000015000000000002000000033, .vredadd { tag := .x, dst := .reg 5, etype := .f32, srcA := .age 0, srcB := .mlc 3 }),
      (0x200624000C4000000000010000000000, .mset { tag := .x, dst := .mlc 1, srcA := .queue 0 false }),
      (0x20074C00430400000000000200000003, .vext { tag := .x, dst := .queue 12 false, etype := .s32, srcA := .reg 2, srcB := .reg 3 })].all (fun (p : Nat × Instr) => decodeTableWord 128 p.1 == some p.2) = true := by
  decide +kernel

/-- R39, R140, R141, R145, R159, R205 to R208, R226 to R230: words written out in chapters 6, 8, 9, 21, 22 and 23. -/
theorem test_decode_memory :
    [
      (0x00041000401000000000000400000000, Instr.strm { dst := .queue 0 false, etype := .f32, srcA := .reg 4 }),
      (0x40040400001001080000000100000200, .stq { tag := .s, etype := .f32, srcC := .queue 8 false, srcA := .reg 1, srcB := .short 0 }),
      (0x00040401401000000000000600000200, .ldqDec { mod := 1, dst := .queue 0 false, etype := .f32, srcA := .reg 6, srcB := .short 0 }),
      (0x40040030000E00040000000600000200, .st { tag := .s, pidx := 3, etype := .n64, srcC := .reg 4, srcA := .reg 6, srcB := .short 0 }),
      (0x00042400010C64000000000300000200, .ldacq { dst := .reg 4, etype := .n32, scope := .device, order := .acq, srcA := .reg 3, srcB := .short 0 }),
      (0x40042400000C68000000000300000002, .strel { tag := .s, etype := .n32, scope := .device, order := .rel, srcA := .reg 3, srcB := .reg 2 }),
      (0x00048005408E20000000000100000201, .aadd { mod := 5, dst := .queue 2 false, etype := .n64, scope := .die, srcA := .reg 1, srcB := .short 1 }),
      (0x0004A000024E6C000000000100000004, .acas { dst := .reg 9, etype := .n64, scope := .device, order := .acqrel, srcA := .reg 1, srcB := .reg 4 }),
      (0x00042804018C84000000000100000002, .waitaddr { mod := 4, dst := .reg 6, etype := .n32, scope := .system, order := .acq, srcA := .reg 1, srcB := .reg 2 }),
      (0x80000000000068000000000000000000, .fence { tag := .b, scope := .device, order := .rel }),
      (0x40041C14001003220000000B0000010E, .redsp { tag := .s, pidx := 1, mod := 4, etype := .f32, srcC := .nb 2, srcA := .reg 11, srcB := .queue 14 false }),
      (0x00050801028000000000000400000000, .migr { mod := 1, dst := .reg 10, srcA := .reg 4 }),
      (0x00050E00000000000000000400020000, .pin { srcA := .reg 4, srcB := .lit 0x20000 }),
      (0x00051C00000040060000000400000000, .tlbinv { scope := .mask, srcC := .reg 6, srcA := .reg 4 })].all (fun (p : Nat × Instr) => decodeTableWord 128 p.1 == some p.2) = true := by
  decide +kernel

/-- R249 to R252, R279 to R283, R301 to R303, R330, R337 to R341, R360, R361, R374: words written out in chapters 11, 12, 14, 16 to 19. -/
theorem test_decode_tasks_and_links :
    [
      (0x40032401018000030000000100000002, Instr.renq { tag := .s, mod := 1, dst := .reg 6, srcC := .reg 3, srcA := .reg 1, srcB := .reg 2 }),
      (0x80000603000000000000000000010003, .yieldArr { tag := .b, mod := 3, srcB := .lit 0x10003 }),
      (0x00032800014000000000000800000000, .klaunch { dst := .reg 5, srcA := .reg 8 }),
      (0x40033401010000000000000100000000, .kcancelKern { tag := .s, mod := 1, dst := .reg 4, srcA := .reg 1 }),
      (0x80000800000000000000000000000000, .tend { tag := .b }),
      (0x00030000C8C000000000024000000000, .barinit { dst := .nb 3, srcA := .short 64 }),
      (0x00031400000000000000034A00000005, .waittl { srcA := .tl (.cp 1), srcB := .reg 5 }),
      (0x20033C02000000000000034000000205, .setwt { tag := .x, mod := 2, srcA := .tl .m, srcB := .short 5 }),
      (0x20031C00004000000000000000000000, .tuneq { tag := .x, dst := .reg 1 }),
      (0x20078800000000000000010000000005, .pktopk { tag := .x, srcA := .queue 0 false, srcB := .reg 5 }),
      (0x0005140102A400000000000400000000, .coll { mod := 1, dst := .reg 10, etype := .b32, srcA := .reg 4 }),
      (0x0005180102C000000000000400000000, .digest { mod := 1, dst := .reg 11, srcA := .reg 4 }),
      (0x20020C00000000000000020100000000, .brk { tag := .x, srcA := .short 1 })].all (fun (p : Nat × Instr) => decodeTableWord 128 p.1 == some p.2) = true := by
  decide +kernel

/-- R46: the four words of the record of chapter 7, at their place in the table of words. -/
theorem test_decode_record :
    decodeTableWord 512 (0x60000000440010000000000000030001 + 0x60A02580000000000000000000000000 * 2 ^ 128
      + 0x60000000000000000000000000000000 * 2 ^ 256 + 0x60000000000000000000000000000001 * 2 ^ 384)
    = some (.mma { fmtA := .e4m3, fmtB := .e4m3, fmtO := .f32, t1 := 3, t0 := 1, ringB := 1, ringD := 2
                   popA := true, popB := true, lvB := 1, popD := true, tStr := 1 }) := by
  decide +kernel

/-- R31, R32: a reserved tag, a reserved bit and an opcode that no form has are refused. -/
theorem test_decode_refuses :
    [(7 * 2 ^ 125 : Nat), 0x02180A0000C0000000000001000003E8 + 2 ^ 122 * 0 + 2 ^ 90 * 0x3FF, 0x00000A0000C00000F000000100000002].all
      (fun w => decodeTableWord 128 w == none) = true := by
  decide +kernel

/-! ### Single steps -/

/-- The state that an instruction leaves, or the one before it where it leaves none. -/
def after (i : Instr) (s : State) : State :=
  match exec i s with
  | .next t => t
  | _ => s

/-- A register of the evaluating stream. -/
def regAfter (i : Instr) (s : State) (n : Fin 32) : Word := (bankOf (after i s) s.cur).areg s.cur.stream n

/-- A vector register. -/
def vecAfter (i : Instr) (s : State) (n : Fin 32) : Vec := (bankOf (after i s) s.cur).vec.v.get n

/-- FPSTAT. -/
def flagsAfter (i : Instr) (s : State) : Word := (bankOf (after i s) s.cur).sregs.fpstat

/-- Chapter 4, R103: BFX.sx of 0xF80 with 0x0704. -/
theorem test_bfx :
    regAfter (.bfx { mod := 1, dst := .reg 2, srcA := .reg 1, srcB := .lit 0x704 }) (regs (base .l) [(1, 0xF80)]) 2
      = 0xFFFFFFFFFFFFFFF8 := by
  decide +kernel

/-- R103: ADD wraps, and the destination may be a source. -/
theorem test_add_wraps :
    regAfter (.add { dst := .reg 1, srcA := .reg 1, srcB := .short 1 }) (regs (base .l) [(1, 0xFFFFFFFFFFFFFFFF)]) 1 = 0 := by
  decide +kernel

/-- Chapter 5, R117: VSADD.s8 of 0x70 and 0x20 saturates and VADD.s8 does not. -/
theorem test_vsadd :
    let s := on (base .x) (fun k => setV (setV k 1 0x70) 2 0x20)
    let w : WordF := { tag := .x, dst := .reg 3, srcA := .reg 1, srcB := .reg 2 }
    (vecAfter (.vsadd w) s 3).setWidth 8 = (0x7F : BitVec 8) ∧ (vecAfter (.vadd w) s 3).setWidth 8 = (0x90 : BitVec 8) := by
  decide +kernel

/-- Chapter 5, R37: the lane that the mask does not select pushes 0, and the queue's head is gone (R116). -/
theorem test_vadd_masked :
    let lanes : Vec := BitVec.ofNat 2048 (((List.range 64).map (fun j => j * 2 ^ (32 * j))).sum)
    let s := on (base .x) (fun k => setM { k with q := vmod k.q 0 (fun f => { f with items := [{ val := lanes }] }) } 2 0xFFFFFFFFFFFFFFDF)
    let t := after (.vadd { tag := .x, pidx := 2, dst := .queue 8 false, etype := .s32, srcA := .queue 0 false, srcB := .short 1 }) s
    let e := ((bankOf t s.cur).q.get 8).items.head?.getD {}
    elemAt e.val 32 4 = 5 ∧ elemAt e.val 32 5 = 0 ∧ ((bankOf t s.cur).q.get 0).items = [] := by
  decide +kernel

/-- Chapter 5, R130: VREDADD.f32 sums exactly: 2²⁴ + 1 + 1 − 2²⁴ is 2, and no flag is set. -/
theorem test_vredadd :
    let h : Vec := BitVec.ofNat 2048 (0x4B800000 + 0x3F800000 * 2 ^ 32 + 0x3F800000 * 2 ^ 64 + 0xCB800000 * 2 ^ 96)
    let s := on (base .x) (fun k => setM { k with vec := { k.vec with h := vset k.vec.h 0 { val := h } } } 3 0xF)
    let i : Instr := .vredadd { tag := .x, dst := .reg 5, etype := .f32, srcA := .age 0, srcB := .mlc 3 }
    vecAfter i s 5 = 0x40000000 ∧ flagsAfter i s = 0 := by
  decide +kernel

/-- Chapter 3: 0.3 becomes 0x2A in e4m3 under RNE and 0x29 under RZ, and the stochastic draw of 0x6627E8D5 gives 0x2A. -/
theorem test_rounding :
    let v := decodeF ffF32 0x3E99999A
    (roundF ffE4m3 .rne false false v).1 = 0x2A ∧ (roundF ffE4m3 .rz false false v).1 = 0x29
      ∧ (roundF ffE4m3 (.sr 0x6627E8) false false v).1 = 0x2A ∧ (rn32 (.num (1 + 3 / 2 ^ 24))).1 = 0x3F800002 := by
  decide +kernel

/-- Chapter 3, R66: the NQ4 scale 128 with the super-scale 2.0. -/
theorem test_nq4_scale : nq4Scale 128 (.num 2) = decodeF ffF32 0x3F808081 := by decide +kernel

/-- Chapter 17, R332: Philox with key 0 and counter 0. -/
theorem test_philox : philox 0 0 0 0 0 = 0x6627E8D5 := by decide +kernel

/-- Chapter 18, R361: the CRC of the ASCII string 123456789. -/
theorem test_crc : crc64 [0x31, 0x32, 0x33, 0x34, 0x35, 0x36, 0x37, 0x38, 0x39] = 0x995DC9BBDF1939FA := by decide +kernel

/-- Chapter 18, R357: the fold of 2²⁴, 1 and 1 in rank order. -/
theorem test_fold : reduceRanks 0 .f32 [0] [toBytes 4 0x4B800000, toBytes 4 0x3F800000, toBytes 4 0x3F800000] = toBytes 4 0x4B800000 := by
  decide +kernel

/-- Chapter 1, R20: at k = 3 the issue cycles are 2, 5 and 7. -/
theorem test_cadence : (List.range 8).filter (issueAt 3) = [2, 5, 7] := by decide

/-- Chapter 1, R11: routes, their source left out. -/
theorem test_routes : routeDies false 1 6 = [2, 6] ∧ routeDies false 5 9 = [6, 7, 9] ∧ routeDies false 8 6 = [4, 5, 6]
    ∧ routeDies false 9 8 = [3, 2, 1, 0, 8] := by
  decide

/-- Chapters 1 and 9, R27: with every die present entry 59 holds die 3; without die 2 it holds die 4. -/
theorem test_interleave :
    let all (s : State) : State := foldAll s allDies (fun s d => modDie s d (fun k => { k with st := .up }))
    (interleave (all State.reset)).get 59 = 3 ∧ (interleave (modDie (all State.reset) 2 (fun k => { k with st := .absent }))).get 59 = 4 := by
  decide +kernel

/-- Chapter 12, R269, R270: the three rows of the example, over and under budget, with DET and with the cadence capped at 4. -/
theorem test_fret_row :
    let row (cls cycles cadence energy : Nat) : Row := { entry := 0, view := 0, energy, tiles := 1, cadence, cls, cycles }
    let n : Node := { someNode with deadline := 3000000, rows := [row 10 1000000 8 9000, row 10 1600000 4 8400, row 2 700000 8 16000] }
    let k : Kernel := { kern {} n with counter := 4800000 }
    let s (e : Rat) (det : BitVec 8) (rung : Nat) : State :=
      let s := modCtx (base .l) 0 (fun c => { c with attr := det })
      { s with cal := { s.cal with level := 2 }, bud := { s.bud with error := e, rung := rung, grade := if rung = 0 then 0 else 1 } }
    chooseRow (s 1 0 0) k 0 n = (0, none) ∧ chooseRow (s (-1) 0 0) k 0 n = (2, none) ∧ chooseRow (s (-1) 1 0) k 0 n = (0, none)
      ∧ chooseRow (s 1 0 2) k 0 n = (2, none) ∧ chooseRow (s 1 1 2) k 0 n = (1, some 66667) := by
  decide +kernel

/-- Chapter 16, R330: TUNEQ on cycle 60,000 and on cycle 65,100 of a period before a calibration slot with a level change, ten
periods before an extended slot. -/
theorem test_tuneq :
    let s (c : Nat) : State := { base .l with cal := { cycle := 65536 * 15 + c, nextLevel := [(2, 16)], extNext := some 25 } }
    tuneq (s 60000) = 0x0000000A005015A0 ∧ tuneq (s 65100) = 0x0000000A015001B4 := by
  decide +kernel

/-- Chapter 17, R339, R341: 20 tokens of which 5, 9 and 17 have logit 3; the draw is token 9, rank 1, of 3 kept. -/
theorem test_plectrum_draw :
    let v : Vec := BitVec.ofNat 2048 (((List.range 20).map (fun j =>
      (if j = 5 || j = 9 || j = 17 then 0x40400000 else 0xFF800000) * 2 ^ (32 * j))).sum)
    let s := on (base .x) (fun k => setV (setV k 1 v) 5 0x0000001400000000)
    let w : WordF := { tag := .x }
    let s := after (.pkset { w with mod := 4, srcA := .short 4 }) s
    let s := after (.pkset { w with mod := 6, srcA := .lit 0x300000 }) s
    let s := after (.pktopk { w with srcA := .reg 1, srcB := .reg 5 }) s
    let i : Instr := .pkdraw { w with dst := .reg 8, srcA := .short 0 }
    (vecAfter i s 8).setWidth 64 = (0x0003000100000009 : Word) := by
  decide +kernel

/-- R85, R371: a word that does not decode freezes its bank with ILLOP, at its own PC. -/
theorem test_illop_step :
    let s := State.reset.withFetchWord 128 (0x7FFF * 2 ^ 110)
    (match step s with
     | .next t => (getAux t 0 .active).freeze.any (fun z => z.info.code == .illop) && (stOf t (ag .l)).pc == 0x10000
     | _ => false) = true := by
  decide +kernel

/-- R29, R33: the step after reset runs the instruction placed, ADD a3 = a1, #1000. -/
theorem test_placed_step :
    (match step (State.reset.withFetchWord 128 addWord) with
     | .next t => (bankOf t (ag .l)).areg .l 3 == 1000 && (stOf t (ag .l)).pc == 0x10010
     | _ => false) = true := by
  decide +kernel

end Sys2Proof.Tests
end

section
/-! Events of the budget, facility time and power islands (R16, R307, R314 to R317). -/

namespace Sys2Proof.Machine

open Sys2Proof Sys2Proof.Claims

theorem curveActivate_due {s : State} {c : Curve} (hp : s.bud.pending = some c) (ht : s.cal.time.isSome = true)
    (hc : c.start ≤ facilityNs s) : exec .curveActivate s = .next (budgetLog { sumTarget s with
      bud := { (sumTarget s).bud with current := some c, pending := none } } 3 0 0 c.seq) := by
  simp [exec, execCurveActivate, hp, Nat.not_lt.mpr hc, Option.isSome_iff_ne_none.mp ht]

theorem curveExpire_due {s : State} {c : Curve} (hp : s.bud.current = some c) (ht : s.cal.time.isSome = true)
    (hc : c.end_ ≤ facilityNs s) (hd : pendingDue s = false) : exec .curveExpire s = .next (budgetLog { sumTarget s with
      bud := { (sumTarget s).bud with current := none } } 4 0 0 c.seq) := by
  simp [exec, execCurveExpire, hp, hd, Nat.not_lt.mpr hc, Option.isSome_iff_ne_none.mp ht]

/-- A downward step that is noted changes the budget alone. -/
@[simp] theorem noteStep_cal (s t : State) : (noteStep s t).cal = t.cal := by
  unfold noteStep
  split <;> rfl

theorem cadenceCapApply_due {s : State} {c : CoreId} (hd : capDue s c = true) (hb : (dieCycle s (dieOf c)).toNat % 8 = 0)
    (hf : allCores.any (fun k => k.val < c.val && capDue s k) = false) :
    exec (.cadenceCapApply c) s = .next (modCtl s c (fun k => { k with cap := rungCap s.bud.rung })) := by
  simp only [exec, execCadenceCapApply, hd, hb, hf]
  rfl

end Sys2Proof.Machine

namespace Sys2Proof.Package

open Sys2Proof.Machine Sys2Proof.Claims

/-- Settles O43: each event is due by its hypotheses, and its effect is read off its definition. -/
theorem budgetAndIslandEvents : Obligations.BudgetAndIslandEvents := by
  intro s
  refine ⟨fun c hd hb hf => cadenceCapApply_due hd hb hf, fun c hp ht hc => ⟨_, curveActivate_due hp ht hc, rfl, rfl⟩,
    fun c hp ht hc hd => ⟨_, curveExpire_due hp ht hc hd, rfl⟩, fun ht => ?lost, fun n ht => ?gained, fun d hg hf => ?gate,
    fun d hg he => ?ungateE0, fun d hg hp hf => ?ungate, fun d hu => ?up⟩
  case lost =>
    exact ⟨_, if_neg (by simp [Option.isSome_iff_ne_none.mp ht]), by simp⟩
  case gained => exact ⟨_, if_neg (by simp [ht]), by simp⟩
  case gate => exact if_neg (by rw [hg, hf]; decide)
  case ungateE0 => simp [exec, execIslandUngate, hg, he]
  case ungate =>
    simp only [exec, execIslandUngate, hg, hp, hf]
    simp
  case up => exact if_pos hu

end Sys2Proof.Package
end

section
/-! Module reset, soft errors, the loss and return of a die, self-tests and boot (R22 to R26, R376 to R387). -/

namespace Sys2Proof.Machine

open Sys2Proof Sys2Proof.Claims

/-- Until READY every register but BOOT reads zero (R383). -/
theorem hostReadByte_booting {s : State} {off : Nat} (h : s.boot.stat = 0) (ho : 64 ≤ off) : hostReadByte s off = 0 := by
  have hr : regsRespond s = false := by simp [regsRespond, h]
  simp only [hostReadByte, if_neg (Nat.not_lt.mpr ho), hr]
  rfl

/-- Module reset leaves what the host and the Capo find after it, whatever the state before. -/
theorem moduleReset_afterReset (s : State) (cause : Nat) : afterReset (moduleReset s cause) cause :=
  ⟨rfl, rfl, rfl, rfl, fun _ ho => hostReadByte_booting rfl ho, rfl, rfl, rfl⟩

theorem heartbeatTimeout_due {s : State} (hs : s.boot.stat = 1) (hd : (getDie s 9).st = .up) (hm : 4 ≤ s.boot.missed)
    (hb : s.boot.standby = true) : exec .heartbeatTimeout s = .next (moduleReset s 5) :=
  if_pos (by simp [hs, hd, hm, hb])

end Sys2Proof.Machine

namespace Sys2Proof.Package

open Sys2Proof.Machine Sys2Proof.Claims

/-- Settles O54: each of the three resets is a module reset, and other values of MODRESET are ignored. -/
theorem resetState : Obligations.ResetState :=
  ⟨⟨rfl, rfl, rfl, rfl, fun _ ho => hostReadByte_booting rfl ho, rfl, rfl, rfl⟩, fun s =>
    ⟨⟨_, rfl, moduleReset_afterReset s 0, rfl⟩, ⟨_, rfl, moduleReset_afterReset s 1, rfl⟩,
      fun hs hd hm hb => ⟨_, heartbeatTimeout_due hs hd hm hb, moduleReset_afterReset s 5, rfl⟩,
      fun _ hv => congrArg Host.Outcome.next (if_neg hv)⟩⟩

end Sys2Proof.Package

namespace Sys2Proof.Machine

/-! ### Links of a die that returns -/

@[simp] theorem modLink_dies (s : State) (l : LinkId) (f : Link → Link) : (modLink s l f).dies = s.dies := by
  cases l with
  | dl d m => simp only [modLink]; split <;> rfl
  | fab p => rfl

theorem foldAll_dies {α : Type} {f : State → α → State} (hf : ∀ s x, (f s x).dies = s.dies) :
    ∀ (xs : List α) (s : State), (foldAll s xs f).dies = s.dies := by
  intro xs
  induction xs with
  | nil => exact fun _ => rfl
  | cons x xs ih => exact fun s => (ih (f s x)).trans (hf s x)

@[simp] theorem modEnds_dies (s : State) (l : LinkId) (f : Link → Link) : (modEnds s l f).dies = s.dies :=
  foldAll_dies (fun s e => modLink_dies s e f) _ _

@[simp] theorem trainLinks_dies (s : State) (d : DieId) : (trainLinks s d).dies = s.dies := by
  refine foldAll_dies (fun s l => ?_) _ _
  split
  · exact modEnds_dies s l _
  · rfl

/-- A die whose self-test passes is UP (R22). -/
theorem dieResetDone_pass {s : State} {d : DieId} (h : (getDie s d).st = .resetting) :
    ∃ t, exec (.dieResetDone d true) s = .next t ∧ (getDie t d).st = .up := by
  refine ⟨_, if_neg (not_not_intro h), ?_⟩
  simp only [getDie, trainLinks_dies]
  exact congrArg Die.st (getDie_modDie _ d _)

/-- A bit cleared by a mask of the others. -/
theorem getLsbD_and_not_bit (v : BitVec 10) (d : DieId) : (v &&& ~~~((1 : BitVec 10) <<< d.val)).getLsbD d.val = false := by
  have hd : d.val < 10 := d.isLt
  simp [hd]

/-- A die whose self-test fails is ABSENT and forwards nothing (R22). -/
theorem dieResetDone_fail {s : State} {d : DieId} (h : (getDie s d).st = .resetting) :
    ∃ t, exec (.dieResetDone d false) s = .next t ∧ (getDie t d).st = .absent ∧ t.boot.forward.getLsbD d.val = false := by
  refine ⟨_, if_neg (not_not_intro h), ?_, ?_⟩
  · exact congrArg Die.st (getDie_modDie _ d _)
  · exact getLsbD_and_not_bit _ d

/-! ### Self-tests and boot -/

theorem targetedSelftest_due {s : State} {e : Structure} {pass : Bool}
    (h : (testDue s e && serveWindow s) = true ∨ (overrunning s e && s.care.tests.any (fun t => t.1 == e)) = true) :
    let t := { s with care := { s.care with
      tests := s.care.tests.filter (fun t => t.1 != e)
      tested := (e, slotFirst s) :: s.care.tested.filter (fun t => t.2 == slotFirst s) } }
    exec (.targetedSelftest e pass) s = if pass then .next t
      else .next (retireStructure { t with care := { t.care with lasting := t.care.lasting ++ [e] } } e) :=
  if_neg (by rw [Bool.not_eq_true', Bool.not_eq_false, Bool.or_eq_true]; exact h)

/-- The end of the boot's self-tests, where bridge die 8 has passed. -/
theorem bootSelftestDone_due {s : State} {res : Vector DieTest 10} (hs : s.boot.stat = 0) (h1 : s.boot.step = 1)
    (h8 : (res.get 8).result = 0) : exec (.bootSelftestDone res) s = match bootSlot s with
      | none => .next (bootFails s 2 1)
      | some n => if allDies.all (fun d => !(d.val < 8 && present (bootDies s res n) d))
          then .next (bootFails (bootDies s res n) 3 2) else .next (bootAdvance (bootDies s res n)) :=
  if_neg (by simp [hs, h1, h8])

end Sys2Proof.Machine

namespace Sys2Proof.Package

open Sys2Proof.Machine Sys2Proof.Claims

/-- Settles O39: each event is due by its hypotheses, and its effect is read off its definition; `dieResetDone_pass` and
`dieResetDone_fail` give the state of the die that returns. -/
theorem faultAndResetEvents : Obligations.FaultAndResetEvents := by
  intro s
  refine ⟨fun e he => ?ecc, fun d hd => if_pos hd, fun d hd => ⟨dieResetDone_pass hd, dieResetDone_fail hd⟩, rfl,
    fun v => rfl, fun hs hd hm hb => heartbeatTimeout_due hs hd hm hb,
    fun e he => ⟨targetedSelftest_due he, targetedSelftest_due he⟩, fun res hs h1 h8 => ?boot⟩
  case ecc => exact if_neg (by simp [he])
  case boot =>
    rw [bootSelftestDone_due hs h1 h8]
    refine ⟨fun hn => ?_, fun n hn ha => ?_, fun n hn ha => ?_⟩
    · rw [hn]
    · rw [hn]; exact if_pos ha
    · rw [hn]; exact if_neg (by simp only [ha]; decide)

end Sys2Proof.Package
end

section
/-! The links: sending, receiving, timeouts and training (R344 to R352, R366). -/

namespace Sys2Proof.Machine

open Sys2Proof Sys2Proof.Claims

/-! ### Sending -/

theorem flitSend_idle {s : State} {l : LinkId} (h : linkMoves s l = true) : exec (.flitSend l 0) s = .next (sendIdle s l) := by
  simp [exec, execFlitSend, h]

theorem flitSend_replay {s : State} {l : LinkId} {n : Nat} (h : linkMoves s l = true) (hn : n ≠ 0)
    (hr : (getLink s l).replay ≠ []) : exec (.flitSend l n) s = .next (sendReplay s l) := by
  simp [exec, execFlitSend, h, hn, hr]

theorem flitSend_new {s : State} {l : LinkId} {n : Nat} (h : linkMoves s l = true) (hn : n ≠ 0) (h15 : n ≤ 15)
    (hr : (getLink s l).replay = []) (hb : (getLink s l).buffer.length < bufferSize l) (hs : n ≤ (sendable s l).length) :
    exec (.flitSend l n) s = .next (sendNew s l ((sendable s l).take n)) := by
  simp [exec, execFlitSend, h, hn, hr, Nat.not_le.mpr hb, Nat.not_lt.mpr hs, Nat.not_lt.mpr h15]

/-- R346: a new payload flit takes the next number and stays in the replay buffer. -/
theorem sendNew_link (s : State) (l : LinkId) (ps : List Payload) :
    (getLink (sendNew s l ps) l).txNext = (getLink s l).txNext + 1
      ∧ (getLink (sendNew s l ps) l).buffer = (getLink s l).buffer ++ [makeFlit (getLink s l) (getLink s l).txNext ps] := by
  simp only [sendNew, getLink_modLink, modDie_getLink, and_self]

/-! ### Receiving -/

section

variable {s u : State} {l : LinkId} {f : Option Flit} {f' : Flit} {err : List (Nat × BitVec 8)}

theorem flitReceive_good {r : Flit} (h : linkMoves s l = true) (hf : nextFlit s l f = some (f', u))
    (ha : arrives f' err = some r) : exec (.flitReceive l f err) s = .next (takeFlit u l r) := by
  simp [exec, execFlitReceive, h, hf, ha]

theorem flitReceive_bad (h : linkMoves s l = true) (hf : nextFlit s l f = some (f', u)) (ha : arrives f' err = none) :
    exec (.flitReceive l f err) s = .next (badFlit u l f' err) := by
  simp [exec, execFlitReceive, h, hf, ha]

end

/-! ### Timeouts, training and the host link -/

theorem replayTimeout_due {s : State} {l : LinkId} (hc : (getLink s l).st.carries = true) (hb : (getLink s l).buffer ≠ [])
    (h : Nat.max (getLink s l).lastAck (getLink s l).lastReplay + 4096 ≤ s.cal.cycle) :
    exec (.replayTimeout l) s = .next (modEnds (modLink s l (fun k => { k with
      lastReplay := s.cal.cycle, replay := k.buffer.map (·.seq) })) l (fun k => countLink k 1)) :=
  if_neg (by simp [hc, hb, Nat.not_lt.mpr h])

theorem linkAckTimeout_due {s : State} {l : LinkId} (hc : (getLink s l).st.carries = true) (hb : (getLink s l).buffer ≠ [])
    (h : (getLink s l).ackAge + 36000000 ≤ s.cal.age) : exec (.linkAckTimeout l) s = .next (linkFails s l) :=
  if_neg (by simp [hc, hb, Nat.not_lt.mpr h])

/-- The groups that pass, of the links that the results name; both of any other. -/
theorem retrainAll_eq (s : State) (results : List (LinkId × Bool × Bool)) (ls : List LinkId) :
    retrainAll s results ls = foldAll s ls (fun s l =>
      let g := ((results.find? (fun r => r.1 == l)).map (·.2)).getD (true, true)
      retrain s l g.1 g.2) := by
  unfold retrainAll
  extract_lets pass
  congr 1
  funext s l
  simp only [pass]
  cases results.find? (fun r => r.1 == l) <;> rfl

theorem extendedSlotRetrain_due {s : State} {e : Nat} (he : extOf s (period s) = some e) (hr : s.cal.retrained ≠ e + 1)
    (hw : serveWindow s = true) (results : List (LinkId × Bool × Bool)) : exec (.extendedSlotRetrain results) s
      = .next (retrainAll { s with cal := { s.cal with retrained := e + 1 } } results (dieLinks ++ fabLinks)) := by
  simp [exec, execExtendedSlotRetrain, he, hr, hw]

/-- R366: the host link goes down, and no ring runs. -/
theorem hostLinkDown_due {s : State} (h : s.disp.linkDown = false) :
    ∃ t, exec .hostLinkDown s = .next t ∧ t.disp.linkDown = true ∧ ∀ r : Fin 16, (t.disp.rings.get r).st ≠ 1 := by
  refine ⟨_, if_neg (by simp [h]), rfl, fun r => ?_⟩
  simp only [modDisp, Vector.get_eq_getElem, Vector.getElem_map]
  split
  · exact (by decide : (2 : Nat) ≠ 1)
  · assumption

end Sys2Proof.Machine

namespace Sys2Proof.Package

open Sys2Proof.Machine Sys2Proof.Claims

/-- Settles O40: each event is due by its hypotheses; a new flit is that of `sendNew_link`, and no ring runs once the host
link is down (`hostLinkDown_due`). -/
theorem linkEvents : Obligations.LinkEvents := by
  intro s l
  refine ⟨fun hm => ⟨flitSend_idle hm, fun n hn hr => flitSend_replay hm hn hr, fun n hn h15 hr hb hs => ?new,
      fun f err f' u hf => ⟨fun r hr => flitReceive_good hm hf hr, fun hr => flitReceive_bad hm hf hr⟩⟩,
    fun hc hb => ⟨fun h => replayTimeout_due hc hb h, fun h => linkAckTimeout_due hc hb h⟩,
    fun ht g0 g1 => if_neg (not_not_intro ht), fun e results he hr hw => ?retrain, hostLinkDown_due⟩
  case new => exact ⟨_, flitSend_new hm hn h15 hr hb hs, sendNew_link s l _⟩
  case retrain => rw [extendedSlotRetrain_due he hr hw, retrainAll_eq]

end Sys2Proof.Package
end

section
/-! The calendar: what event records leave, the boundary of a period, and the steps of its slot (R308 to R329). -/

namespace Sys2Proof.Machine

open Sys2Proof Sys2Proof.Claims

/-! ### What an event record leaves -/

/-- The calendar, the budget and boot stand in t as in s: t differs in memory, translations, contexts and numbers at most. -/
structure KeepsClock (s t : State) : Prop where
  cal : t.cal = s.cal
  bud : t.bud = s.bud
  boot : t.boot = s.boot

theorem KeepsClock.refl (s : State) : KeepsClock s s := ⟨rfl, rfl, rfl⟩

theorem KeepsClock.trans {s t u : State} (h : KeepsClock s t) (k : KeepsClock t u) : KeepsClock s u :=
  ⟨k.cal.trans h.cal, k.bud.trans h.bud, k.boot.trans h.boot⟩

/-- A change that may not come keeps what it keeps where it comes. -/
theorem KeepsClock.getD {s : State} {o : Option State} (h : ∀ t, o = some t → KeepsClock s t) : KeepsClock s (o.getD s) := by
  cases o with
  | none => exact .refl s
  | some t => exact h t rfl

theorem foldAll_keepsClock {α : Type} {f : State → α → State} (hf : ∀ s x, KeepsClock s (f s x)) :
    ∀ (xs : List α) (s : State), KeepsClock s (foldAll s xs f) := by
  intro xs
  induction xs with
  | nil => exact fun s => .refl s
  | cons x xs ih => exact fun s => (hf s x).trans (ih (f s x))

theorem enterAll_keepsClock (s : State) (d : DieId) (cs : List Host.Cell) : KeepsClock s (enterAll s d cs) := ⟨rfl, rfl, rfl⟩

theorem invalidateDie_keepsClock (s : State) (x : CtxId) (lo hi : Nat) (d : DieId) :
    KeepsClock s (invalidateDie s x lo hi d) := by
  refine .trans (t := modDie s d (fun k => { k with tlb := dropRange k.tlb x lo hi })) ⟨rfl, rfl, rfl⟩
    (foldAll_keepsClock ?_ _ _)
  intro s c
  split <;> exact ⟨rfl, rfl, rfl⟩

theorem invalidateTouched_keepsClock (s : State) (x : CtxId) (lo hi : Nat) : KeepsClock s (invalidateTouched s x lo hi) :=
  foldAll_keepsClock (fun s d => invalidateDie_keepsClock s x lo hi d) _ _

theorem writePte_keepsClock (s : State) (a : Nat) (e : Pte) : KeepsClock s (writePte s a e) := by
  unfold writePte
  split
  · exact .refl s
  · exact enterAll_keepsClock s _ _

theorem takeFrame_keepsClock {s t : State} {x : CtxId} {tier f home : Nat} {hsh : Bool}
    (h : takeFrame s x tier hsh home = some (t, f)) : KeepsClock s t := by
  unfold takeFrame at h
  split at h
  · cases h
  · cases h
    exact ⟨rfl, rfl, rfl⟩

theorem takeTable_keepsClock {s t : State} {x : CtxId} {f : Nat} (h : takeTable s x = some (t, f)) : KeepsClock s t := by
  unfold takeTable at h
  split at h
  · next h8 => cases h; exact takeFrame_keepsClock h8
  · split at h
    · next h9 => cases h; exact takeFrame_keepsClock h9
    · exact takeFrame_keepsClock h

/-- An entry rewritten at its home, with its invalidation. -/
theorem rewrite_keepsClock (s : State) (a : Nat) (e : Pte) (x : CtxId) (lo hi : Nat) :
    KeepsClock s (invalidateTouched (writePte s a e) x lo hi) :=
  (writePte_keepsClock s a e).trans (invalidateTouched_keepsClock _ x lo hi)

theorem splitLarge_keepsClock {s t : State} {x : CtxId} {l : Leaf} (h : splitLarge s x l = some t) : KeepsClock s t := by
  unfold splitLarge at h
  split at h
  · cases h
  · next u f hu =>
    cases h
    exact ((takeTable_keepsClock hu).trans (enterAll_keepsClock _ _ _)).trans (rewrite_keepsClock _ _ _ _ _ _)

theorem takeZeroFrame_keepsClock {s t : State} {x : CtxId} {l : Leaf} (h : takeZeroFrame s x l = some t) : KeepsClock s t := by
  unfold takeZeroFrame at h
  split at h
  · cases h
  · simp only at h
    split at h
    · cases h
    · next u f hu =>
      cases h
      exact (takeFrame_keepsClock hu).trans (rewrite_keepsClock _ _ _ _ _ _)

theorem deviceFrame_keepsClock (s : State) (x : CtxId) (va : Nat) : KeepsClock s (deviceFrame s x va) := by
  unfold deviceFrame
  simp only
  split
  · next l _ =>
    split
    · exact .refl s
    · have hs : KeepsClock s (if l.large = true then (splitLarge s x l).getD s else s) := by
        split
        · exact .getD (fun _ h => splitLarge_keepsClock h)
        · exact .refl s
      refine hs.trans ?_
      generalize (if l.large = true then (splitLarge s x l).getD s else s) = u
      split
      · split
        · exact .refl u
        · exact .getD (fun _ h => takeZeroFrame_keepsClock h)
      · exact .refl u
  · exact .refl s

/-- R238: an event record changes memory, its page and EVSEQ. -/
theorem logEvent_keepsClock (s : State) (x : CtxId) (kind die core arg : Nat) (kinst : Word) (detail : Nat) :
    KeepsClock s (logEvent s x kind die core arg kinst detail) := by
  have hx : ∀ f, KeepsClock s (modCtx s x f) := fun f => ⟨rfl, rfl, rfl⟩
  unfold logEvent
  simp only
  split
  · exact (hx _).trans (deviceFrame_keepsClock _ _ _)
  · exact ((hx _).trans (deviceFrame_keepsClock _ _ _)).trans (enterAll_keepsClock _ _ _)

theorem gradeEvents_keepsClock (s : State) (old new : Nat) : KeepsClock s (gradeEvents s old new) := by
  refine foldAll_keepsClock (fun s x => ?_) _ _
  split
  · exact .refl s
  all_goals exact logEvent_keepsClock s _ _ _ _ _ _ _

theorem addEnergy_keepsClock (s : State) (x : CtxId) (n : Nat) : KeepsClock s (addEnergy s x n) := by
  unfold addEnergy
  split <;> exact ⟨rfl, rfl, rfl⟩

theorem addKernelEnergy_keepsClock (s : State) (k : Word) (n : Nat) : KeepsClock s (addKernelEnergy s k n) := ⟨rfl, rfl, rfl⟩

/-- R319: the shares of a period reach contexts and kernels alone. -/
theorem shareEnergy_keepsClock (s : State) (m : Meter) : KeepsClock s (shareEnergy s m) := by
  have hb : ∀ (s : State) (b : BankShare), KeepsClock s (addKernelEnergy (addEnergy s b.ctx b.energy) b.kinst b.energy) :=
    fun s b => (addEnergy_keepsClock s _ _).trans (addKernelEnergy_keepsClock _ _ _)
  have hm : ∀ (s : State) (b : MemShare), KeepsClock s
      (foldAll (addEnergy s b.ctx b.energy) b.engines (fun s e => addKernelEnergy s e.1 e.2)) :=
    fun s b => (addEnergy_keepsClock s _ _).trans (foldAll_keepsClock (fun s _ => addKernelEnergy_keepsClock s _ _) _ _)
  exact (foldAll_keepsClock hb m.banks s).trans (foldAll_keepsClock hm m.memory _)

/-! ### The boundary -/

/-- The state in which a boundary sets the grade: the period that ends is closed, and the next one begins. -/
def openPeriod (s : State) (p : Nat) : State :=
  let s := noteBandMiss (closePeriod s p)
  { s with bud := { s.bud with cur := {
      power := powerNow s, band := bandNow s (powerNow s), response := responding s } } }

/-- The state that a boundary leaves, but for its mark. -/
def crossBoundary (s : State) (p : Nat) : State := announce (setGrade (openPeriod s p) p) p

theorem periodBoundary_due {s : State} (h : s.cal.boundary < period s) : exec .periodBoundary s
    = .next { crossBoundary s (period s) with cal := { (crossBoundary s (period s)).cal with boundary := period s } } :=
  if_neg (Nat.not_le.mpr h)

/-- A band miss that is logged adds to the log alone. -/
theorem noteBandMiss_log (s : State) : ∃ log, noteBandMiss s = { s with bud := { s.bud with log := log } } := by
  unfold noteBandMiss
  extract_lets w
  split
  · exact ⟨_, rfl⟩
  · exact ⟨s.bud.log, rfl⟩

/-- A period that closes leaves the curves and the measured periods as they were. -/
theorem autoMove_openPeriod (s : State) (p q : Nat) : autoMove (openPeriod s p) q = autoMove s q := by
  obtain ⟨log, h⟩ := noteBandMiss_log (closePeriod s p)
  rw [openPeriod, h]
  rfl

theorem gradeNow_openPeriod (s : State) (p : Nat) : gradeNow (openPeriod s p) = gradeNow s := by
  obtain ⟨log, h⟩ := noteBandMiss_log (closePeriod s p)
  rw [openPeriod, h]
  rfl

theorem openPeriod_power (s : State) (p : Nat) : (openPeriod s p).bud.cur.power = powerNow s := by
  obtain ⟨log, h⟩ := noteBandMiss_log (closePeriod s p)
  rw [openPeriod, h]
  rfl

theorem openPeriod_closed (s : State) (p : Nat) : (openPeriod s p).bud.closed.length = s.bud.closed.length + 1 := by
  obtain ⟨log, h⟩ := noteBandMiss_log (closePeriod s p)
  rw [openPeriod, h]
  simp [closePeriod, sumTarget]

theorem openPeriod_error (s : State) (p : Nat) : (openPeriod s p).bud.error = s.bud.error := by
  obtain ⟨log, h⟩ := noteBandMiss_log (closePeriod s p)
  rw [openPeriod, h]
  rfl

@[simp] theorem scheduleLevel_bud (s : State) (p : Nat) (l : Fin 4) : (scheduleLevel s p l).bud = s.bud := by
  unfold scheduleLevel
  simp only
  split <;> rfl

/-- A level change, scheduled or not, is no part of the budget. -/
theorem scheduleUnless_bud (c : Prop) [Decidable c] (s : State) (p : Nat) (l : Fin 4) :
    (if c then s else scheduleLevel s p l).bud = s.bud := by
  split
  · rfl
  · exact scheduleLevel_bud s p l

@[simp] theorem announce_bud (s : State) (p : Nat) : (announce s p).bud = s.bud := by
  unfold announce
  extract_lets
  split <;> rfl

/-- What a change of grade or rung writes of the budget beside the two: its record in the log. -/
theorem logChange_bud (s : State) (g g0 r r0 : Nat) :
    ∃ log, (if g = g0 then budgetLog s 6 r r0 (s.bud.total / 1000)
      else budgetLog (gradeEvents s g0 g) 5 g g0 (s.bud.total / 1000)).bud = { s.bud with log := log } := by
  split
  · exact ⟨_, rfl⟩
  · exact ⟨_, by rw [← (gradeEvents_keepsClock s g0 g).bud]; rfl⟩

/-- The rung that goes with a grade and an automatic state (R312, R314). -/
def rungOf (grade auto : Nat) : Nat := if grade = 0 then 0 else Nat.max 1 (autoRung auto)

/-- R311 to R314: what a boundary makes of the budget: the automatic state moves, and grade and rung follow it. -/
theorem setGrade_bud (s : State) (p : Nat) :
    (setGrade s p).bud.auto = autoMove s p
      ∧ (setGrade s p).bud.grade = Nat.max (gradeNow s) (autoGrade (autoMove s p))
      ∧ (setGrade s p).bud.rung = rungOf (Nat.max (gradeNow s) (autoGrade (autoMove s p))) (autoMove s p)
      ∧ (setGrade s p).bud.cur.power = s.bud.cur.power ∧ (setGrade s p).bud.closed = s.bud.closed
      ∧ (setGrade s p).bud.error = s.bud.error := by
  have hu : ∃ u, u = (if autoMove s p = s.bud.auto then s
      else { s with bud := { s.bud with auto := autoMove s p, lastMove := p } }) ∧ gradeNow u = gradeNow s
      ∧ u.bud.auto = autoMove s p ∧ u.bud.cur.power = s.bud.cur.power ∧ u.bud.closed = s.bud.closed
      ∧ u.bud.error = s.bud.error := by
    split
    · next h => exact ⟨s, rfl, rfl, h.symm, rfl, rfl, rfl⟩
    · exact ⟨_, rfl, rfl, rfl, rfl, rfl, rfl⟩
  obtain ⟨u, hu, hg, ha, hp, hc, he⟩ := hu
  have hr : ∀ g a, (if g = 0 then 0 else Nat.max 1 (autoRung a)) = rungOf g a := fun _ _ => rfl
  unfold setGrade
  simp only [← hu, hg, hr]
  split
  · next h =>
    simp only [Bool.and_eq_true, decide_eq_true_eq] at h
    exact ⟨ha, h.1.symm, h.2.symm, hp, hc, he⟩
  · obtain ⟨log, hl⟩ := logChange_bud { u with bud := { u.bud with
      grade := Nat.max (gradeNow s) (autoGrade (autoMove s p))
      rung := rungOf (Nat.max (gradeNow s) (autoGrade (autoMove s p))) (autoMove s p)
      changedAt := p, cur := { u.bud.cur with response := true } } }
      (Nat.max (gradeNow s) (autoGrade (autoMove s p))) u.bud.grade
      (rungOf (Nat.max (gradeNow s) (autoGrade (autoMove s p))) (autoMove s p)) u.bud.rung
    rw [scheduleUnless_bud, hl]
    exact ⟨ha, rfl, rfl, hp, hc, he⟩

/-! ### The slot -/

theorem drainWindowStart_due {s : State} (hd : inDrain s = true) (h : s.cal.drain ≤ period s) :
    exec .drainWindowStart s = .next { s with cal := { s.cal with drain := period s + 1 } } :=
  if_neg (by simp [hd, h])

/-- R323: the relock of a level change that begins in its window ends within it. -/
theorem levelChange_due {s : State} {n : Fin 4 × Nat} (hn : s.cal.nextLevel.find? (fun n => n.2 = period s) = some n)
    (h : phase s < 1024) :
    ∃ t, exec .levelChange s = .next t ∧ t.cal.level = n.1 ∧ t.cal.relock + phase s ≤ 1024 := by
  have hr := Nat.mod_lt Config.relockCycles (show 0 < 1025 - phase s by omega)
  simp only [exec, execLevelChange, hn, if_neg (Nat.not_le.mpr h)]
  exact ⟨_, rfl, rfl, by simp only; omega⟩

theorem refresh_due {s : State} (hs : inSlot s = true) (h1 : 1024 ≤ phase s) (h2 : phase s < 3584)
    (h : s.cal.refreshed ≤ period s) :
    exec .refresh s = .next { s with cal := { s.cal with refreshed := period s + 1 } } :=
  if_neg (by simp [hs, h1, h2, h])

theorem sensorSweep_due {s : State} {m : Meter} (hs : inSlot s = true) (h1 : 3584 ≤ phase s) (h2 : phase s < 3840)
    (hp : period s ≠ 0) (h : s.cal.swept ≤ period s) (hm : meterOk s m = true) :
    let u := shareEnergy (measured s m) m
    exec (.sensorSweep m) s = .next { u with
      bud := { u.bud with
        error := errorNow u, total := u.bud.total + m.total, unattributed := u.bud.unattributed + m.unattributed }
      cal := { u.cal with swept := period s + 1 } } :=
  if_neg (by simp [hs, h1, h2, hp, h, hm])

/-- A measured period leaves the total as it was. -/
theorem measured_total (s : State) (m : Meter) : (measured s m).bud.total = s.bud.total := by
  unfold measured
  split <;> rfl

end Sys2Proof.Machine

namespace Sys2Proof.Package

open Sys2Proof.Machine Sys2Proof.Claims

/-- Settles O42: each step is due by its hypotheses; what the boundary and the sweep leave of the budget is that of
`setGrade_bud` and `shareEnergy_keepsClock`. -/
theorem calendarEvents : Obligations.CalendarEvents := by
  intro s
  refine ⟨fun h => ?boundary, fun hd h => drainWindowStart_due hd h, fun n hn h => levelChange_due hn h,
    fun hs h1 h2 h => refresh_due hs h1 h2 h, fun m hs h1 h2 hp h hm => ?sweep,
    fun e k h => ?slotEnd, fun n o ho he => ?overrun⟩
  case boundary =>
    obtain ⟨ha, hg, hr, hp, hc, he⟩ := setGrade_bud (openPeriod s (period s)) (period s)
    rw [autoMove_openPeriod] at ha hg hr
    rw [gradeNow_openPeriod] at hg hr
    refine ⟨_, periodBoundary_due h, rfl, ?_⟩
    simp [crossBoundary, ha, hg, hr, hp, hc, he, openPeriod_power, openPeriod_closed, openPeriod_error, rungOf]
  case sweep =>
    refine ⟨_, sensorSweep_due hs h1 h2 hp h hm, rfl, rfl, ?_⟩
    simp only [(shareEnergy_keepsClock (measured s m) m).bud, measured_total]
  case slotEnd => simp only [exec, execSlotEnd, h]
  case overrun => simp [exec, execOverrunComplete, ho, he]

end Sys2Proof.Package
end

section
/-! The page fabric: pages of a migrator, moves, repairs, walks and the host (R212 to R228). -/

namespace Sys2Proof.Machine

open Sys2Proof Sys2Proof.Claims

/-! ### The operation at the head of a migrator -/

/-- R225: an operation with no page left, or a discarded one, ends once its status bytes are performed. -/
theorem migratorPage_ends {s : State} {d : DieId} {o : MigOp} {os : List MigOp} (h : (getDie s d).mgOps = o :: os)
    (hw : o.waiting = false) (hs : o.ws = false) (hc : o.count ≤ o.next ∨ o.discarded = true)
    (hf : statusFlying s o.ctx = false) :
    exec (.migratorPage d) s = .next (closeIfDone (finishMigr s d) o.kinst o.node) := by
  simp [exec, execMigratorPage, migratorOp, h, hw, hs, hc, hf]

/-- The operation at the head of a die's migrator has a page to treat. -/
structure TreatsPage (s : State) (d : DieId) (o : MigOp) : Prop where
  first : ∃ os, (getDie s d).mgOps = o :: os
  waiting : o.waiting = false
  ws : o.ws = false
  left : o.next < o.count
  discarded : o.discarded = false
  runs : enginesRun s = true

/-- R228: what becomes of a page is what its operation makes of it. -/
theorem migratorPage_eq {s : State} {d : DieId} {o : MigOp} (h : TreatsPage s d o) :
    migratorOp s d = match pageOf s d o with
      | .status u code => some (migrDone u d o.id o.next code)
      | .begun u => some (modDie u d (fun k => { k with mgOps := k.mgOps.map (fun p =>
          if p.id = o.id then { p with waiting := true } else p) }))
      | .again u => some u
      | .wait => none := by
  obtain ⟨⟨os, hos⟩, hw, hs, hl, hd, hr⟩ := h
  simp only [migratorOp, hos, hw, hs, hd, hr, Nat.not_le.mpr hl]
  rfl

/-- The page is answered with a status. -/
theorem migratorPage_status {s u : State} {d : DieId} {o : MigOp} {code : Nat} (h : TreatsPage s d o)
    (hp : pageOf s d o = .status u code) : exec (.migratorPage d) s = .next (migrDone u d o.id o.next code) := by
  simp only [exec, execMigratorPage, migratorPage_eq h, hp]

/-- The page begins a move, for which its operation waits. -/
theorem migratorPage_begun {s u : State} {d : DieId} {o : MigOp} (h : TreatsPage s d o) (hp : pageOf s d o = .begun u) :
    exec (.migratorPage d) s = .next (modDie u d (fun k => { k with
      mgOps := k.mgOps.map (fun p => if p.id = o.id then { p with waiting := true } else p) })) := by
  simp only [exec, execMigratorPage, migratorPage_eq h, hp]

theorem pageOf_capo {s : State} {d : DieId} {o : MigOp} (h : o.capo = true) :
    pageOf s d o = evictPage s o.ctx (o.first + 65536 * o.next) o.tier o.hsh o.home := by
  simp [pageOf, h]

theorem pageOf_zero {s : State} {d : DieId} {o : MigOp} (h : o.capo = false) (hz : o.zero = true) :
    pageOf s d o = pgzeroPage s o.ctx (o.first + 65536 * o.next) := by
  simp [pageOf, h, hz]

theorem pageOf_migr {s : State} {d : DieId} {o : MigOp} (h : o.capo = false) (hz : o.zero = false) :
    pageOf s d o = migrPage s (.migr d o.id o.next) o.ctx (o.first + 65536 * o.next) o.tier o.hsh o.home := by
  simp [pageOf, h, hz]

/-! ### One page (R217, R228) -/

section

variable {s : State} {x : CtxId} {va tier home : Nat} {hsh : Bool} {l : Leaf} {by_ : MoveBy}

theorem evictPage_refuses (hl : homeLeaf s x va = .leaf l) (hb : leafBad l = false)
    (h : ePSN l.entry = true ∨ eMV l.entry ≠ 0 ∨ ePIN l.entry = true ∨ eTIER l.entry = tier) :
    evictPage s x va tier hsh home = .status s 3 := by
  simp only [evictPage, hl, hb]
  rw [if_pos]
  obtain h | h | h | h := h <;> simp [h]

theorem evictPage_moves (hl : homeLeaf s x va = .leaf l) (hb : leafBad l = false) (hp : ePSN l.entry = false)
    (hm : eMV l.entry = 0) (hi : ePIN l.entry = false) (h1 : 1 < eTIER l.entry) (h4 : eTIER l.entry < 4)
    (ht : eTIER l.entry ≠ tier) (hg : l.large = false) : evictPage s x va tier hsh home
      = startMove s .capo x l (decide (eTIER l.entry < tier)) tier hsh (if hsh then 0 else home) := by
  have h0 : eTIER l.entry ≠ 0 := by omega
  have h1' : eTIER l.entry ≠ 1 := by omega
  have h4' : eTIER l.entry ≠ 4 := by omega
  simp [evictPage, hl, hb, hp, hm, hi, h0, h1', h4', ht, hg]

theorem pgzeroPage_refuses (hl : homeLeaf s x va = .leaf l) (h : eWR l.entry = false ∨ eSHR l.entry = 1) :
    pgzeroPage s x va = .status s 3 := by
  simp only [pgzeroPage, hl]
  rw [if_pos]
  obtain h | h := h <;> simp [h]

/-- R228: a page that PGZERO may treat: writable, the device's own, of no weight stack, and at rest. -/
theorem pgzeroPage_treats (hl : homeLeaf s x va = .leaf l) (hb : leafBad l = false) (hw : eWR l.entry = true)
    (hs : eSHR l.entry = 0) (h1 : eTIER l.entry ≠ 1) (hm : eMV l.entry = 0) (hf : frameBusy s l.entry = false)
    (hg : l.large = false) : pgzeroPage s x va =
      if ePIN l.entry then
        .status (updateLeaf (if eTIER l.entry = 0 then s else zeroFrame s l.entry) x l (eBit l.entry 7 false)) 0
      else if eTIER l.entry = 0 then
        (if ePSN l.entry then .status (updateLeaf s x l (eBit l.entry 7 false)) 0 else .status s 1)
      else
        let s' := updateLeaf s x l (eSet (eSet (eBit l.entry 7 false) 11 3 0) 36 28 (eTIER l.entry))
        .status (if ePSN l.entry && frameElsewhere s x l then s' else freePteFrame s' x l.entry) 0 := by
  simp [pgzeroPage, hl, hb, hw, hs, h1, hm, hf, hg]

theorem migrPage_refuses (hl : homeLeaf s x va = .leaf l) (h : eRD l.entry = false ∨ eSHR l.entry = 1) :
    migrPage s by_ x va tier hsh home = .status s 3 := by
  simp only [migrPage, hl]
  rw [if_pos]
  obtain h | h := h <;> simp [h]

section

variable (hl : homeLeaf s x va = .leaf l) (hb : leafBad l = false) (hr : eRD l.entry = true) (hs : eSHR l.entry = 0)
  (hp : ePSN l.entry = false) (hm : eMV l.entry = 0)

include hl hb hr hs hp hm

theorem migrPage_zero (ht : eTIER l.entry = 0) : migrPage s by_ x va tier hsh home = .status s 1 := by
  simp [migrPage, hl, hb, hr, hs, hp, hm, ht]

theorem migrPage_pinned (ht : eTIER l.entry ≠ 0) (hi : ePIN l.entry = true) :
    migrPage s by_ x va tier hsh home = .status s 3 := by
  simp [migrPage, hl, hb, hr, hs, hp, hm, ht, hi]

theorem migrPage_moves (hi : ePIN l.entry = false) (ht : eTIER l.entry = 2 ∨ eTIER l.entry = 3)
    (hn : ¬(eTIER l.entry = tier ∧ eHSH l.entry = hsh ∧ (hsh = true ∨ eHOME l.entry = home))) (hg : l.large = false) :
    migrPage s by_ x va tier hsh home
      = startMove s by_ x l (tier = 3 && eTIER l.entry = 2) tier hsh (if hsh then 0 else home) := by
  have h0 : eTIER l.entry ≠ 0 := by omega
  have h1 : eTIER l.entry ≠ 1 := by omega
  have h4 : eTIER l.entry ≠ 4 := by omega
  have hn' : (eTIER l.entry = tier && eHSH l.entry = hsh && (hsh || eHOME l.entry = home)) = false := by
    simpa [and_assoc] using hn
  simp only [migrPage, hl, hb, hr, hs, hp, hm, hi, h0, h1, h4, hn', hg]
  simp

end

end

/-! ### Moves and repairs (R217 to R219) -/

/-- R218: what a move that may end does. -/
theorem moveCommit_eq {s : State} {n : Nat} {m : Move} (h : s.ms.moves.find? (fun m => m.id == n && !m.repair) = some m) :
    exec (.moveCommit n) s =
      let e := homePte s.ms m.at_
      if eBit e 5 false ≠ eBit m.entry 5 false then .next (abandonMove s m 5)
      else if (eTIER e = 1 || m.tier = 1) && !wsStillOpen s m then .next (abandonMove s m 5)
      else if !enginesRun s || entryBusy s m.at_ || frameBusy s e || !moveReaches s m e then .fault .notEnabled
      else if 1 ≤ eTIER e && eTIER e ≤ 3 && s.ms.latent.contains (eFRAME e) then .next (meetError s (eFRAME e))
      else .next (commitMove s m) := by
  simp only [exec, execMoveCommit, h]

theorem moveCommit_stale {s : State} {n : Nat} {m : Move} (h : s.ms.moves.find? (fun m => m.id == n && !m.repair) = some m)
    (he : eBit (homePte s.ms m.at_) 5 false ≠ eBit m.entry 5 false) : exec (.moveCommit n) s = .next (abandonMove s m 5) := by
  rw [moveCommit_eq h]
  exact if_pos he

theorem moveCommit_shut {s : State} {n : Nat} {m : Move} (h : s.ms.moves.find? (fun m => m.id == n && !m.repair) = some m)
    (he : eBit (homePte s.ms m.at_) 5 false = eBit m.entry 5 false) (ht : eTIER (homePte s.ms m.at_) = 1 ∨ m.tier = 1)
    (hw : wsStillOpen s m = false) : exec (.moveCommit n) s = .next (abandonMove s m 5) := by
  rw [moveCommit_eq h]
  refine (if_neg (not_not_intro he)).trans (if_pos ?_)
  simp [ht, hw]

/-- R218: a move whose source holds still ends: it meets a latent error of the frame, or commits. -/
theorem moveCommit_still {s : State} {n : Nat} {m : Move} (h : s.ms.moves.find? (fun m => m.id == n && !m.repair) = some m)
    (he : eBit (homePte s.ms m.at_) 5 false = eBit m.entry 5 false)
    (hw : eTIER (homePte s.ms m.at_) = 1 ∨ m.tier = 1 → wsStillOpen s m = true) (hr : enginesRun s = true)
    (hb : entryBusy s m.at_ = false) (hf : frameBusy s (homePte s.ms m.at_) = false)
    (hm : moveReaches s m (homePte s.ms m.at_) = true) : exec (.moveCommit n) s =
      if 1 ≤ eTIER (homePte s.ms m.at_) && eTIER (homePte s.ms m.at_) ≤ 3
        && s.ms.latent.contains (eFRAME (homePte s.ms m.at_))
      then .next (meetError s (eFRAME (homePte s.ms m.at_))) else .next (commitMove s m) := by
  rw [moveCommit_eq h]
  refine (if_neg (not_not_intro he)).trans ((if_neg ?_).trans (if_neg ?_))
  · simpa using hw
  · simp [hr, hb, hf, hm]

theorem refetchComplete_some {s : State} {n : Nat} {m : Move} {ps : List (BitVec 44)}
    (h : s.ms.moves.find? (fun m => m.id == n && m.repair) = some m) (hp : ps.length = 16) (hb : (backing s m).isSome = true) :
    exec (.refetchComplete n (some ps)) s = .next (repairDone s m (refetchCells s ps)) := by
  obtain ⟨b, hb⟩ := Option.isSome_iff_exists.mp hb
  simp [exec, execRefetchComplete, h, hb, hp]

theorem refetchComplete_unbacked {s : State} {n : Nat} {m : Move} (ps : Option (List (BitVec 44)))
    (h : s.ms.moves.find? (fun m => m.id == n && m.repair) = some m) (hb : backing s m = none) :
    exec (.refetchComplete n ps) s = .next (repairFailed s m) := by
  cases ps <;> simp [exec, execRefetchComplete, h, hb]

theorem refetchComplete_none {s : State} {n : Nat} {m : Move}
    (h : s.ms.moves.find? (fun m => m.id == n && m.repair) = some m) :
    exec (.refetchComplete n none) s = .next (repairFailed s m) := by
  simp [exec, execRefetchComplete, h]

theorem repairTimeout_due {s : State} {n : Nat} {m : Move} (h : s.ms.moves.find? (fun m => m.id == n && m.repair) = some m)
    (hp : m.since + 64 ≤ period s) : exec (.repairTimeout n) s = .next (repairFailed s m) := by
  simp [exec, execRepairTimeout, h, hp]

/-! ### Walks, the host and the Capo -/

theorem pageWalk_due {s : State} {c : CoreId} {x : CtxId} (hd : (getDie s (dieOf c)).st = .up)
    (hx : bankCtx (getBank s c .active) = some x ∨ bankCtx (getBank s c .shadow) = some x) (va : VAddr) (v : Option Nat) :
    let es := walkEntries (tableFails s (dieOf c)) (readPte s.ms (dieOf c)) x va.toNat 3 1 (getCtx s x).root.toNat
    exec (.pageWalk c x va v) s = .next (modCore
      (modDie s (dieOf c) (fun k => { k with tlb := fillTlb (tlbRoom s (.tlb (dieOf c))) (v.getD 0) k.tlb es }))
      c (fun k => { k with tlb := fillTlb (tlbRoom s (.coreTlb c)) (v.getD 0) k.tlb es })) :=
  if_neg (by simpa [hd, or_iff_not_imp_left] using hx)

theorem hostFlipAccess_due {s : State} {x : CtxId} {va : VAddr} {l : Leaf} (hl : homeLeaf s x va.toNat = .leaf l)
    (hb : leafBad l = false) (hs : eSHR l.entry = 2) (ht : eTIER l.entry = 2 ∨ eTIER l.entry = 3) (hm : eMV l.entry = 0)
    (hp : ePSN l.entry = false) (hd : s.disp.linkDown = false) : exec (.hostFlipAccess x va) s
      = .next (if ePIN l.entry then s
          else beginMove s .host x l true 4 false 0 (Config.hostFrame x.val l.base % 2 ^ 28) true) := by
  simp only [exec, execHostFlipAccess, hl]
  rw [if_neg (by simpa [hb, hs, hm, hp, hd, or_iff_not_imp_left] using ht), apply_ite Host.Outcome.next]

theorem capoEvict_due {s : State} {x : CtxId} {va : VAddr} {l : Leaf} {t : Tier} {home : DieId}
    (hl : homeLeaf s x va.toNat = .leaf l) (hb : leafBad l = false) (ht : t = .hbm ∨ t = .lpddr)
    (hh : homeOk (Tier.num t) false home.val = true) (hp : presentNo s home.val = true) (hr : migRoom s 8 = true) :
    exec (.capoEvict x va t home) s
      = .next (enterMig s 8 { capoOp s x va.toNat with tier := Tier.num t, home := home.val }) := by
  have hn : Tier.num t = 2 ∨ Tier.num t = 3 := by obtain rfl | rfl := ht <;> simp [Tier.num]
  simp only [exec, execCapoEvict, hl]
  exact if_neg (by simpa [hb, hh, hp, hr, or_iff_not_imp_left] using hn)

end Sys2Proof.Machine

namespace Sys2Proof.Package

open Sys2Proof.Machine Sys2Proof.Claims

/-- Settles O38: each event is due by its hypotheses; the pages of a migrator's operation are those of `evictPage`,
`pgzeroPage` and `migrPage`. -/
theorem pageEvents : Obligations.PageEvents := by
  intro s
  refine ⟨fun d o os h hw hs hc hf => migratorPage_ends h hw hs hc hf, fun d o os l h hw hs hc hn hd hr hl hb => ?capo,
    fun d o os l h hw hs hc hn hd hr hl hb => ?page, fun n m h => ⟨fun he => moveCommit_stale h he,
      fun he ht hw => moveCommit_shut h he ht hw, fun he hw hr hb hf hm => ?still⟩,
    fun c x va v hd hx => pageWalk_due hd hx va v, fun n m h => ⟨fun ps hp hb => refetchComplete_some h hp hb,
      fun ps hb => refetchComplete_unbacked ps h hb, refetchComplete_none h, fun hp => repairTimeout_due h hp⟩,
    fun x va l hl hb => ⟨fun hs ht hm hp hd => hostFlipAccess_due hl hb hs ht hm hp hd,
      fun t home ht hh hp hr => capoEvict_due hl hb ht hh hp hr⟩, fun x h hh => if_pos hh⟩
  case capo =>
    have hp : TreatsPage s d o := ⟨⟨os, h⟩, hw, hs, hn, hd, hr⟩
    refine ⟨fun he => migratorPage_status hp ?_, fun u h1 h2 h3 h4 h5 h6 hg hm => migratorPage_begun hp ?_⟩
    · rw [pageOf_capo hc, evictPage_refuses hl hb he]
    · rw [pageOf_capo hc, evictPage_moves hl hb h1 h2 h3 h4 h5 h6 hg, hm]
  case page =>
    have hp : TreatsPage s d o := ⟨⟨os, h⟩, hw, hs, hn, hd, hr⟩
    refine ⟨fun hz => ⟨fun he => migratorPage_status hp ?_, fun hw hs h1 hm hf hg => ?_⟩,
      fun hz => ⟨fun he => migratorPage_status hp ?_, fun hr hs hn hm => ⟨fun ht => migratorPage_status hp ?_,
        fun ht hi => migratorPage_status hp ?_, fun hi ht hd hg u f hu => migratorPage_begun hp ?_⟩⟩⟩
    · rw [pageOf_zero hc hz, pgzeroPage_refuses hl he]
    · have hz := (pageOf_zero (s := s) (d := d) hc hz).trans (pgzeroPage_treats hl hb hw hs h1 hm hf hg)
      refine ⟨fun hi => migratorPage_status hp ?_, fun hi ht hn => migratorPage_status hp ?_,
        fun hi ht hn => migratorPage_status hp ?_⟩
      · rw [hz, if_pos hi]
      · simp [hz, hi, ht, hn]
      · have he : (ePSN l.entry && frameElsewhere s o.ctx l) = false := by simpa using hn
        simp [hz, hi, ht, he]
    · rw [pageOf_migr hc hz, migrPage_refuses hl he]
    · rw [pageOf_migr hc hz, migrPage_zero hl hb hr hs hn hm ht]
    · rw [pageOf_migr hc hz, migrPage_pinned hl hb hr hs hn hm ht hi]
    · rw [pageOf_migr hc hz, migrPage_moves hl hb hr hs hn hm hi ht hd hg, startMove, hu]
  case still =>
    rw [moveCommit_still h he hw hr hb hf hm]
    refine ⟨fun hn => if_neg ?_, fun h1 h3 hn => if_pos ?_⟩
    · simp only [hn, Bool.and_false]; decide
    · simp only [hn, h1, h3]; decide

end Sys2Proof.Package
end

section
/-! The frame of loads: GATHQ of null indices to a vector register (R144). -/

namespace Sys2Proof.Machine

open Sys2Proof Sys2Proof.Claims

/-! ### A gather of no element -/

theorem partsIndexed_null (s : State) (q : Req) (len : Nat) :
    ∀ n i, partsIndexed s q len i (List.replicate n none) = .ok (List.replicate n []) := by
  intro n
  induction n with
  | zero => exact fun _ => rfl
  | succ n ih =>
    intro i
    rw [List.replicate_succ, partsIndexed, ih]
    rfl

/-- R144: an access of null indices alone reads no page. -/
theorem indexedAccess_null (s : State) (g : Agent) (wr : Bool) (t : EType) (n : Nat) :
    indexedAccess s g wr t (List.replicate n none)
      = .ok (countMisses (served s (reqOf s g wr) []) g 0, List.replicate n []) := by
  simp [indexedAccess, partsIndexed_null, keysOf, bind, Except.bind]

/-- 64 null indices of 32 bits (R144). -/
def nullIndices : Vec := vecOf 32 (List.replicate 64 0x80000000)

/-- GATHQ with a vector register as its destination, in place of a queue. -/
def gatherToRegister : WordF := { etype := .s32, dst := .reg 0, srcA := .reg 1, srcB := .queue 12 false }

/-- L is about to evaluate a word, with null indices at the head of queue 12 and 1 in vector register 0 of X. -/
def nullGather : State :=
  { modBank State.reset 0 .active (fun _ => { ({} : Bank) with
      task := some placedTask
      l := { run := .running }
      vec := { ({} : VecRegs) with v := Vector.replicate 32 1 }
      q := Vector.replicate 16 { items := [{ val := nullIndices }], pushAt := 1 } }) with
    cur := { core := 0, bank := .active, stream := .l } }

theorem nullGather_ready : ready gatherToRegister false nullGather = true
    ∧ sourcesOk (begun nullGather 0) nullGather.cur [.reg 1, .queue 12 false] (dstPush (.reg 0)) = true := by
  decide +kernel

theorem nullGather_indices : indexAddrs .s32 (src nullGather gatherToRegister [.reg 1, .queue 12 false] 0)
    (whole (begun nullGather 0) nullGather.cur [.reg 1, .queue 12 false] 1) = List.replicate 64 none := by
  decide +kernel

/-- The word writes 0 to the register. -/
theorem nullGather_changes_register : (match exec (.gathq gatherToRegister) nullGather with
    | .next t => (bankOf t nullGather.cur).vec.v.get 0 != (bankOf nullGather nullGather.cur).vec.v.get 0
    | _ => false) = true := by
  decide +kernel

end Sys2Proof.Machine

namespace Sys2Proof.Package

open Sys2Proof.Machine Sys2Proof.Claims

/-- Refutes O48: the statement does not ask that the destination of LDQ, LDQS or GATHQ be a queue, as R140, R143 and R144 have
it. With a register there the word writes a vector register of X, which the frame keeps for a word of L: GATHQ of null
indices, which reads no memory, leaves 0 where v0 held 1. -/
theorem not_loadStoreFrame : ¬ Obligations.LoadStoreFrame := by
  intro h
  obtain ⟨hready, hsources⟩ := nullGather_ready
  obtain ⟨hloads, -⟩ := h gatherToRegister nullGather hready
  obtain ⟨-, -, -, hgather⟩ := hloads hsources _ ⟨[], 0, rfl, fun p hp => absurd hp List.not_mem_nil⟩
  have haccess := indexedAccess_null (begun nullGather 0) nullGather.cur false .s32 64
  obtain ⟨t, n, hexec, -, -, -, -, -, -, hv, -⟩ := hgather _ ((congrArg _ nullGather_indices).trans haccess)
  have hkept := hv 0 (fun hx => absurd hx (by decide))
  have hchanged := nullGather_changes_register
  rw [hexec] at hchanged
  simp [hkept] at hchanged

end Sys2Proof.Package
end

section
/-! The encoding round trip (R30, R39, R43, R46, R49): fields packed into words, the codes of operands, the opcode map. -/

namespace Sys2Proof.Machine

open Sys2Proof

/-! ### Fields packed into a word -/

/-- Values side by side in fields of given widths, the least significant first. -/
def pack : List Nat → List Nat → Nat
  | k :: ks, v :: vs => v + 2 ^ k * pack ks vs
  | _, _ => 0

/-- Every value lies within the width of its field. -/
def packFits (ks vs : List Nat) : Prop := List.Forall₂ (fun k v => v < 2 ^ k) ks vs

theorem pack_lt {ks vs : List Nat} (h : packFits ks vs) : pack ks vs < 2 ^ ks.sum := by
  induction h with
  | nil => exact Nat.one_pos
  | @cons k v ks vs hv _ ih =>
    calc v + 2 ^ k * pack ks vs < 2 ^ k * (1 + pack ks vs) := by
          rw [Nat.mul_add, Nat.mul_one]; exact Nat.add_lt_add_right hv _
      _ ≤ 2 ^ k * 2 ^ ks.sum := Nat.mul_le_mul_left _ (by omega)
      _ = 2 ^ (k :: ks).sum := by rw [List.sum_cons, Nat.pow_add]

/-- A field of a packed number is read above the widths of those before it. -/
theorem pack_field {ks vs : List Nat} (h : packFits ks vs) : ∀ (n : Nat) {k v : Nat}, ks[n]? = some k → vs[n]? = some v →
    pack ks vs / 2 ^ (ks.take n).sum % 2 ^ k = v := by
  induction h with
  | nil => exact fun n k v hk => nomatch hk
  | @cons k v ks vs hv _ ih =>
    intro n k' v' hk hv'
    cases n with
    | zero =>
      cases hk
      cases hv'
      simpa [pack] using Nat.mod_eq_of_lt hv
    | succ n =>
      have hd : pack (k :: ks) (v :: vs) / 2 ^ k = pack ks vs := by
        rw [pack, Nat.add_mul_div_left _ _ (Nat.two_pow_pos k), Nat.div_eq_of_lt hv, Nat.zero_add]
      rw [List.take_succ_cons, List.sum_cons, Nat.pow_add, ← Nat.div_div_eq_div_mul, hd]
      exact ih n hk hv'

/-- Bits [hi:lo] of a word packed from fields are the field that stands there. -/
theorem bits_pack {ks vs : List Nat} (h : packFits ks vs) (hw : ks.sum ≤ 128) (n : Nat) {v hi lo : Nat}
    (hk : ks[n]? = some (hi + 1 - lo)) (hl : (ks.take n).sum = lo) (hv : vs[n]? = some v) :
    bits (BitVec.ofNat 128 (pack ks vs)) hi lo = v := by
  have hlt : pack ks vs < 2 ^ 128 := (pack_lt h).trans_le (Nat.pow_le_pow_right Nat.two_pos hw)
  rw [bits, BitVec.toNat_ofNat, Nat.mod_eq_of_lt hlt, Nat.shiftRight_eq_div_pow, ← pack_field h n hk hv, hl]

theorem bit_eq_bits {n : Nat} (w : BitVec n) (i : Nat) : bit w i = decide (bits w i i = 1) := by
  simp [bit, bits, BitVec.getLsbD, Nat.testBit, Nat.shiftRight_eq_div_pow, Nat.one_and_eq_mod_two]
  rfl

/-- A bit that holds a truth value. -/
theorem bit_of_bits {n : Nat} {w : BitVec n} {i : Nat} {b : Bool} (h : bits w i i = b01 b) : bit w i = b := by
  rw [bit_eq_bits, h]
  cases b <;> rfl

end Sys2Proof.Machine

/-! ### Codes and operands (R31, R39, R43 to R45, R47) -/

namespace Sys2Proof

open Sys2Proof.Machine

theorem Tag.ofCode_code (t : Tag) : Tag.ofCode (Tag.code t) = some t := by cases t <;> rfl
theorem EType.ofCode_code (t : EType) : EType.ofCode (EType.code t) = some t := by cases t <;> rfl
theorem Scope.ofCode_code (x : Scope) : Scope.ofCode (Scope.code x) = some x := by cases x <;> rfl
theorem Order.ofCode_code (x : Order) : Order.ofCode (Order.code x) = some x := by cases x <;> rfl
theorem Fmt.ofCode_code (f : Fmt) : Fmt.ofCode (Fmt.code f) = some f := by cases f <;> rfl

theorem Tl.ofCode_code (t : Tl) : Tl.ofCode (Tl.code t) = some t := by
  cases t with
  | m => rfl
  | l k => revert k; decide
  | s k => revert k; decide
  | cp k => revert k; decide
  | mg => rfl
  | co => rfl

theorem Tag.code_lt (t : Tag) : Tag.code t < 2 ^ 3 := by cases t <;> decide
theorem EType.code_lt (t : EType) : EType.code t < 2 ^ 5 := by cases t <;> decide
theorem Scope.code_lt (x : Scope) : Scope.code x < 2 ^ 3 := by cases x <;> decide
theorem Order.code_lt (x : Order) : Order.code x < 2 ^ 3 := by cases x <;> decide
theorem Fmt.code_lt (f : Fmt) : Fmt.code f < 2 ^ 4 := by cases f <;> decide
theorem b01_lt (b : Bool) : b01 b < 2 ^ 1 := by cases b <;> decide

theorem Tl.code_lt (t : Tl) : Tl.code t < 19 := by cases t <;> simp only [Tl.code] <;> omega

theorem Operand.code_lt (o : Operand) : Operand.code o < 2 ^ 10 := by
  cases o with
  | queue n p => cases p <;> simp only [Operand.code] <;> simp <;> omega
  | short v => have := v.isLt; simp only [Operand.code]; omega
  | tl t => have := Tl.code_lt t; simp only [Operand.code]; omega
  | _ => simp only [Operand.code]; omega

/-- R39: the specifier of an operand names it. -/
theorem Operand.ofCode_code {o : Operand} (h : Operand.isLit o = false) : Operand.ofCode (Operand.code o) = some o := by
  cases o with
  | lit v => cases h
  | queue n p => revert n p; decide
  | short v =>
    have hv := v.isLt
    rw [Operand.code, Operand.ofCode]
    iterate 5 rw [if_neg (by omega)]
    rw [if_pos (by omega)]
    exact congrArg (some ∘ Operand.short) (BitVec.eq_of_toNat_eq (by rw [BitVec.toNat_ofNat]; omega))
  | tl t =>
    have ht := Tl.code_lt t
    rw [Operand.code, Operand.ofCode]
    iterate 8 rw [if_neg (by omega)]
    rw [if_pos (by omega), Nat.add_sub_cancel_left, Tl.ofCode_code]
    rfl
  | reg n | age n | mlc n | ring n | nb n => revert n; decide

/-- R42: a source field, read as litsel says, names the operand that it was made from. -/
theorem sourceOf_sourceBits (o : Operand) : sourceOf (Operand.isLit o) (sourceBits o) = some o := by
  cases hl : Operand.isLit o with
  | true => cases o <;> first | rfl | cases hl
  | false =>
    have hc := Operand.code_lt o
    have hb : (sourceBits o).toNat = Operand.code o := by
      have : sourceBits o = BitVec.ofNat 32 (Operand.code o) := by cases o <;> first | rfl | cases hl
      rw [this, BitVec.toNat_ofNat]; omega
    rw [sourceOf, if_neg (by decide), hb, if_pos (by simpa using hc), Operand.ofCode_code hl]

end Sys2Proof

/-! ### The fields of a word (R30, R43) -/

namespace Sys2Proof

open Sys2Proof.Machine

/-- The widths of a word's fields, from bit 0 up. -/
def wordWidths : List Nat := [32, 32, 10, 3, 3, 1, 5, 10, 4, 3, 1, 2, 9, 6, 1, 1, 1, 1, 3]

/-- The values of a word's fields, from bit 0 up. -/
def wordFields (op : Nat) (w : WordF) : List Nat :=
  [(sourceBits w.srcB).toNat, (sourceBits w.srcA).toNat, Operand.code w.srcC, Order.code w.order, Scope.code w.scope,
   b01 w.mfile, EType.code w.etype, Operand.code w.dst, w.mod.toNat, w.pidx.val, b01 w.pneg, litselOf w, op, w.wait.toNat,
   b01 w.par, b01 w.pal, b01 w.pbr, b01 w.pbl, Tag.code w.tag]

theorem litselOf_lt (w : WordF) : litselOf w < 2 ^ 2 := by
  unfold litselOf
  split
  · decide
  · split <;> decide

theorem wordBits_eq_pack (op : Nat) (w : WordF) :
    wordBits op w = BitVec.ofNat 128 (pack wordWidths (wordFields op w)) := by
  refine congrArg (BitVec.ofNat 128) ?_
  simp only [wordFields, wordWidths, pack]
  ring

theorem wordFields_fit {op : Nat} (h : op < 2 ^ 9) (w : WordF) : packFits wordWidths (wordFields op w) := by
  simp only [packFits, wordWidths, wordFields, List.forall₂_cons, List.forall₂_nil_left_iff, and_true]
  exact ⟨(sourceBits w.srcB).isLt, (sourceBits w.srcA).isLt, w.srcC.code_lt, w.order.code_lt, w.scope.code_lt, b01_lt _,
    w.etype.code_lt, w.dst.code_lt, w.mod.isLt, w.pidx.isLt, b01_lt _, litselOf_lt w, h, w.wait.isLt, b01_lt _, b01_lt _,
    b01_lt _, b01_lt _, w.tag.code_lt⟩

/-- Field n of a word, which stands at bits [hi:lo]. -/
theorem bits_wordBits {op : Nat} (h : op < 2 ^ 9) (w : WordF) (n : Nat) {v hi lo : Nat}
    (hk : wordWidths[n]? = some (hi + 1 - lo)) (hl : (wordWidths.take n).sum = lo) (hv : (wordFields op w)[n]? = some v) :
    bits (wordBits op w) hi lo = v := by
  rw [wordBits_eq_pack]
  exact bits_pack (wordFields_fit h w) (by decide) n hk hl hv

theorem tag_wordBits {op : Nat} (h : op < 2 ^ 9) (w : WordF) : bits (wordBits op w) 127 125 = Tag.code w.tag :=
  bits_wordBits h w 18 (by decide) (by decide) rfl

theorem opcode_wordBits {op : Nat} (h : op < 2 ^ 9) (w : WordF) : bits (wordBits op w) 114 106 = op :=
  bits_wordBits h w 12 (by decide) (by decide) rfl

/-- The operands of a word that has an encoding: at most one 32-bit literal, in srcA or srcB (R42). -/
structure LitsOk (w : WordF) : Prop where
  dst : Operand.isLit w.dst = false
  srcC : Operand.isLit w.srcC = false
  one : (Operand.isLit w.srcA && Operand.isLit w.srcB) = false

/-- litsel says which source is the literal. -/
theorem litselOf_eq {w : WordF} (h : LitsOk w) : (litselOf w != 3) = true
    ∧ (litselOf w == 1) = Operand.isLit w.srcA ∧ (litselOf w == 2) = Operand.isLit w.srcB := by
  have h1 := h.one
  unfold litselOf
  cases ha : Operand.isLit w.srcA <;> cases hb : Operand.isLit w.srcB <;> simp_all

section

variable {op : Nat} (hop : op < 2 ^ 9) (w : WordF)

include hop

/-- The truth values of a word. -/
theorem wordBits_flags : bit (wordBits op w) 124 = w.pbl ∧ bit (wordBits op w) 123 = w.pbr
    ∧ bit (wordBits op w) 122 = w.pal ∧ bit (wordBits op w) 121 = w.par ∧ bit (wordBits op w) 103 = w.pneg
    ∧ bit (wordBits op w) 80 = w.mfile := by
  have f (n : Nat) {b : Bool} {i : Nat} hk hl hv := bit_of_bits (bits_wordBits hop w n (v := b01 b) (hi := i) (lo := i) hk hl hv)
  exact ⟨f 17 (by decide) (by decide) rfl, f 16 (by decide) (by decide) rfl, f 15 (by decide) (by decide) rfl,
    f 14 (by decide) (by decide) rfl, f 10 (by decide) (by decide) rfl, f 5 (by decide) (by decide) rfl⟩

/-- The codes of a word's operands, type, scope and order, and litsel. -/
theorem wordBits_codes : bits (wordBits op w) 105 104 = litselOf w ∧ bits (wordBits op w) 95 86 = Operand.code w.dst
    ∧ bits (wordBits op w) 85 81 = EType.code w.etype ∧ bits (wordBits op w) 79 77 = Scope.code w.scope
    ∧ bits (wordBits op w) 76 74 = Order.code w.order ∧ bits (wordBits op w) 73 64 = Operand.code w.srcC := by
  have f := bits_wordBits hop w
  exact ⟨f 11 (by decide) (by decide) rfl, f 7 (by decide) (by decide) rfl, f 6 (by decide) (by decide) rfl,
    f 4 (by decide) (by decide) rfl, f 3 (by decide) (by decide) rfl, f 2 (by decide) (by decide) rfl⟩

/-- The numbers of a word. -/
theorem wordBits_numbers : bits (wordBits op w) 63 32 = (sourceBits w.srcA).toNat
    ∧ bits (wordBits op w) 31 0 = (sourceBits w.srcB).toNat ∧ bits (wordBits op w) 120 115 = w.wait.toNat
    ∧ bits (wordBits op w) 102 100 = w.pidx.val ∧ bits (wordBits op w) 99 96 = w.mod.toNat := by
  have f := bits_wordBits hop w
  exact ⟨f 1 (by decide) (by decide) rfl, f 0 (by decide) (by decide) rfl, f 13 (by decide) (by decide) rfl,
    f 9 (by decide) (by decide) rfl, f 8 (by decide) (by decide) rfl⟩

end

/-- The fields of a word are read as they were written. -/
theorem fieldsOf_wordBits {op : Nat} (hop : op < 2 ^ 9) {w : WordF} (h : LitsOk w) :
    fieldsOf w.tag (wordBits op w) = some w := by
  obtain ⟨h3, hA, hB⟩ := litselOf_eq h
  simp only [fieldsOf, wordBits_flags hop w, wordBits_codes hop w, wordBits_numbers hop w, h3, hA, hB,
    Operand.ofCode_code h.dst, Operand.ofCode_code h.srcC, EType.ofCode_code, Scope.ofCode_code, Order.ofCode_code,
    BitVec.ofNat_toNat, BitVec.setWidth_eq, sourceOf_sourceBits]
  simp [guard]

end Sys2Proof

/-! ### The opcode map (R49) -/

namespace Sys2Proof

open Sys2Proof.Machine

/-- A legal word of form f, and an opcode that names the instruction i in each of the form's streams. -/
def InRows (f : FormSpec) (op : Nat) (w : WordF) (i : Instr) : Prop :=
  formLegal f w = true ∧ op < 2 ^ 9 ∧ ∀ t ∈ f.streams, instrOf t op w = some i

theorem inRows_one {f : FormSpec} {op : Nat} {w : WordF} {i : Instr} {t : Tag} (h : formLegal f w = true)
    (hs : f.streams = [t]) (hop : op < 2 ^ 9) (ht : instrOf t op w = some i) : InRows f op w i :=
  ⟨h, hop, by rw [hs]; exact List.forall_mem_singleton.mpr ht⟩

theorem inRows_ls {f : FormSpec} {op : Nat} {w : WordF} {i : Instr} (h : formLegal f w = true)
    (hs : f.streams = ls) (hop : op < 2 ^ 9) (hl : instrOf .l op w = some i) (ht : instrOf .s op w = some i) :
    InRows f op w i :=
  ⟨h, hop, by rw [hs]; exact List.forall_mem_cons.mpr ⟨hl, List.forall_mem_singleton.mpr ht⟩⟩

theorem inRows_lxs {f : FormSpec} {op : Nat} {w : WordF} {i : Instr} (h : formLegal f w = true)
    (hs : f.streams = lxs) (hop : op < 2 ^ 9) (hl : instrOf .l op w = some i) (hx : instrOf .x op w = some i)
    (ht : instrOf .s op w = some i) : InRows f op w i :=
  ⟨h, hop, by
    rw [hs]; exact List.forall_mem_cons.mpr ⟨hl, List.forall_mem_cons.mpr ⟨hx, List.forall_mem_singleton.mpr ht⟩⟩⟩

/-- The mod field of a legal word is one that its form takes. -/
theorem formLegal_mod {f : FormSpec} {w : WordF} (h : formLegal f w = true) :
    f.modOk (w.mod.toNat % 8) = true ∨ f.modOk w.mod.toNat = true := by
  simp only [formLegal, Bool.and_eq_true, modLegal] at h
  obtain ⟨⟨⟨⟨⟨⟨⟨⟨⟨⟨⟨-, -⟩, hm⟩, -⟩, -⟩, -⟩, -⟩, -⟩, -⟩, -⟩, -⟩, -⟩ := h
  cases ht : w.tag <;> simp only [ht, Bool.and_eq_true] at hm
  · exact .inl hm.1
  · exact .inr hm
  · exact .inl hm.1
  · exact .inr hm

/-- What holds of every value of mod that a form takes holds of a legal word's. -/
theorem formLegal_forMod {f : FormSpec} {w : WordF} {p : BitVec 4 → Prop} (h : formLegal f w = true)
    (hp : ∀ m : BitVec 4, f.modOk (m.toNat % 8) = true ∨ f.modOk m.toNat = true → p m) : p w.mod :=
  hp _ (formLegal_mod h)

/-- An opcode that a bit of mod divides between two forms (R49). -/
theorem inRows_ite {f : FormSpec} {op : Nat} {w : WordF} {i j : Instr} {k : Nat} (b : Bool)
    (h : InRows f op w (if w.mod.getLsbD k then i else j))
    (hm : ∀ m : BitVec 4, f.modOk (m.toNat % 8) = true ∨ f.modOk m.toNat = true → m.getLsbD k = b) :
    InRows f op w (if b then i else j) := by
  rwa [formLegal_forMod (p := fun m => m.getLsbD k = b) h.1 hm] at h

/-- A form of YIELD, which mod[1:0] names (R252). -/
theorem inRows_yield {f : FormSpec} {op : Nat} {w : WordF} {i : Instr} (k : Nat) (h : InRows f op w (mkYield w))
    (hm : ∀ m : BitVec 4, f.modOk (m.toNat % 8) = true ∨ f.modOk m.toNat = true → m.toNat % 4 = k)
    (hi : w.mod.toNat % 4 = k → mkYield w = i) : InRows f op w i :=
  hi (formLegal_forMod (p := fun m => m.toNat % 4 = k) h.1 hm) ▸ h

/-- The rows of an instruction that is one word. -/
theorem wordOf_inRows {i : Instr} {op : Nat} {w : WordF} (hw : wordOf i = some (op, w)) (h : wellFormed i = true) :
    ∃ f, InRows f op w i := by
  cases i with
  | nop w | br w | call w | ret w | bri w | lbrk w | qlen w | tkpush w | tkpop w | gets w | sets w | trap w | brk w
  | cyc w | perf w | barinit w | bararr w | bartry w | gbararr w | gbartry w | waittl w | tlget w | setwt w
  | tuneq w | spawn w | renq w | klaunch w | kwait w | kretry w | qthaw w =>
    cases hw
    exact ⟨_, inRows_lxs h rfl (by decide) rfl rfl rfl⟩
  | mov w | add w | sub w | mul w | mulh w | div w | rem w | and w | or w | xor w | shl w | shr w | sra w | min w
  | max w | set w | sel w | madd w | scale w | clz w | popc w | bfx w | bfi w | qpush w | qpop w | qpeek w =>
    cases hw
    exact ⟨_, inRows_ls h rfl (by decide) rfl rfl⟩
  | ld w | ldqs w | gathq w | strm w | strmx w | rfill w | rfillg w | pref w | ldacq w | waitaddr w | rdrop w
  | rinit w | aadd w | afadd w | amin w | amax w | aand w | aor w | axor w | aswp w | acas w | aincw w | cpy w
  | cpyh w | migr w | pin w | unpin w | coll w | digest w | tlbinv w | pgzero w | st w | stqs w | scatq w | drn w
  | drnx w | rdrain w | redsp w | sendh w | strel w | zero w | clean w | inval w | vadd w | vsub w | vmul w
  | vmulh w | vmadd w | vsadd w | vssub w | vand w | vor w | vxor w | vandn w | vshl w | vshr w | vsra w | vmin w
  | vmax w | vabs w | vneg w | vclz w | vpopc w | vdot4 w | fadd w | fsub w | fmul w | ffma w | ffnma w | fmin w
  | fmax w | fabs w | fneg w | fdiv w | fsqrt w | fexp w | fexp2 w | flog2 w | ftanh w | frnd w | fclass w | vcmp w
  | fcmp w | mand w | mor w | mxor w | mnot w | mpopc w | mfirst w | vsel w | mset w | cvt w | pack w | unpack w
  | qenc w | qdec w | vbcast w | vshuf w | vrot w | vslide w | vredadd w | vredmax w | vredmin w | vscan w | viota w
  | vcmprs w | vexpnd w | vmov w | vlit w | vins w | vext w | pkset w | pkrand w | pktopk w | pkmerge w | pkdraw w
  | fence w | tend w | ktrig w | sync w =>
    cases hw
    exact ⟨_, inRows_one h rfl (by decide) rfl⟩
  | bc w =>
    cases hw
    by_cases hx : w.tag = .x
    · exact ⟨specBcX, inRows_one (by simpa [wellFormed, hx] using h) rfl (by decide) rfl⟩
    · exact ⟨specBc, inRows_lxs (by simpa [wellFormed, hx] using h) rfl (by decide) rfl rfl rfl⟩
  | loopSet w =>
    cases hw
    exact ⟨_, inRows_ite (k := 2) true (inRows_lxs h rfl (by decide) rfl rfl rfl) (by decide)⟩
  | loop w =>
    cases hw
    exact ⟨_, inRows_ite (k := 2) false (inRows_lxs h rfl (by decide) rfl rfl rfl) (by decide)⟩
  | kcancelTask w =>
    cases hw
    exact ⟨_, inRows_ite (k := 0) false (inRows_lxs h rfl (by decide) rfl rfl rfl) (by decide)⟩
  | kcancelKern w =>
    cases hw
    exact ⟨_, inRows_ite (k := 0) true (inRows_lxs h rfl (by decide) rfl rfl rfl) (by decide)⟩
  | ldq w | stq w =>
    cases hw
    exact ⟨_, inRows_ite (k := 0) false (inRows_one h rfl (by decide) rfl) (by decide)⟩
  | ldqDec w | stqEnc w =>
    cases hw
    exact ⟨_, inRows_ite (k := 0) true (inRows_one h rfl (by decide) rfl) (by decide)⟩
  | yieldTl w =>
    cases hw
    exact ⟨_, inRows_yield 0 (inRows_one h rfl (by decide) rfl) (by decide) (fun hm => by simp only [mkYield, hm])⟩
  | yieldNb w =>
    cases hw
    exact ⟨_, inRows_yield 1 (inRows_one h rfl (by decide) rfl) (by decide) (fun hm => by simp only [mkYield, hm])⟩
  | yieldGb w =>
    cases hw
    exact ⟨_, inRows_yield 2 (inRows_one h rfl (by decide) rfl) (by decide) (fun hm => by simp only [mkYield, hm])⟩
  | yieldArr w =>
    cases hw
    exact ⟨_, inRows_yield 3 (inRows_one h rfl (by decide) rfl) (by decide) (fun hm => by simp only [mkYield, hm])⟩
  | _ => cases hw

/-- No destination is a literal. -/
theorem dstOk_lit (t : Tag) (k : DstK) (v : BitVec 32) : dstOk t k (.lit v) = false := by cases k <;> rfl

/-- What a legal word's form says of its tag and its operands. -/
theorem formLegal_tag_lits {f : FormSpec} {w : WordF} (h : formLegal f w = true) : w.tag ∈ f.streams ∧ LitsOk w := by
  simp only [formLegal, Bool.and_eq_true, decide_eq_true_eq, headerLegal, Bool.not_eq_true'] at h
  obtain ⟨⟨⟨⟨⟨⟨⟨⟨⟨⟨⟨⟨⟨⟨⟨⟨-, -⟩, hone⟩, -⟩, -⟩, -⟩, htag⟩, -⟩, -⟩, -⟩, -⟩, hdst⟩, -⟩, -⟩, -⟩, hC⟩, -⟩ := h
  refine ⟨htag, ?_, hC, hone⟩
  cases hd : w.dst with
  | lit v => rw [hd, dstOk_lit] at hdst; cases hdst
  | _ => rfl

/-- A word is read once its tag, its fields and its opcode are. -/
theorem decodeWord_ok {raw : IWord} {tag : Tag} {w : WordF} {i : Instr} (ht : Tag.ofCode (bits raw 127 125) = some tag)
    (hf : fieldsOf tag raw = some w) (hr : instrOf tag (bits raw 114 106) w = some i) (h : wellFormed i = true) :
    decodeWord raw = .ok i := by
  simp only [decodeWord, ht, hf, hr, h, if_true]

/-- R32, R50: a well-formed word is read as the instruction that it encodes. -/
theorem decodeWord_wordBits {i : Instr} {op : Nat} {w : WordF} (hw : wordOf i = some (op, w)) (h : wellFormed i = true) :
    op < 2 ^ 9 ∧ decodeWord (wordBits op w) = .ok i := by
  obtain ⟨f, hf, hop, hrow⟩ := wordOf_inRows hw h
  obtain ⟨htag, hlits⟩ := formLegal_tag_lits hf
  refine ⟨hop, decodeWord_ok (tag := w.tag) ?_ (fieldsOf_wordBits hop hlits) ?_ h⟩
  · rw [tag_wordBits hop, Tag.ofCode_code]
  · rw [opcode_wordBits hop, hrow _ htag]

end Sys2Proof

/-! ### Records (R46, R48, R177) -/

namespace Sys2Proof

open Sys2Proof.Machine

/-- The widths of the fields of a record's first word, from bit 0 up. -/
def recWidths0 : List Nat :=
  [16, 16, 16, 16, 8, 1, 1, 2, 4, 3, 1, 2, 1, 1, 4, 4, 4, 3, 1, 2, 9, 6, 1, 1, 1, 1, 3]

/-- The values of those fields; bits [71:64] and [105:104] are zero. -/
def recFields0 (op : Nat) (r : RecF) : List Nat :=
  [r.t0.toNat, r.t1.toNat, r.t2.toNat, r.t3.toNat, 0, b01 r.accum, b01 r.sat, r.rnd.toNat, Fmt.code r.fmtO,
   r.sparse.toNat, b01 r.hside, r.had.toNat, b01 r.sgnB, b01 r.sgnA, Fmt.code r.fmtB, Fmt.code r.fmtA, r.mod.toNat,
   r.pidx.val, b01 r.pneg, 0, op, r.wait.toNat, b01 r.par, b01 r.pal, b01 r.pbr, b01 r.pbl, 3]

/-- The widths of the fields of a record's second word, from bit 0 up. -/
def recWidths1 : List Nat := [64, 37, 2, 1, 2, 1, 2, 1, 6, 3, 3, 3, 3]

/-- The values of those fields; bits [100:64] are zero. -/
def recFields1 (r : RecF) : List Nat :=
  [r.aStr.toNat, 0, r.lvD.toNat, b01 r.popD, r.lvB.toNat, b01 r.popB, r.lvA.toNat, b01 r.popA, r.tile.toNat, r.ringD.val,
   r.ringB.val, r.ringA.val, 3]

theorem recWord0_eq_pack (op : Nat) (r : RecF) : recWord0 op r = BitVec.ofNat 128 (pack recWidths0 (recFields0 op r)) := by
  refine congrArg (BitVec.ofNat 128) ?_
  simp only [recFields0, recWidths0, pack]
  ring

theorem recWord1_eq_pack (r : RecF) : recWord1 r = BitVec.ofNat 128 (pack recWidths1 (recFields1 r)) := by
  refine congrArg (BitVec.ofNat 128) ?_
  simp only [recFields1, recWidths1, pack]
  ring

theorem recStrides_eq_pack (v : BitVec 64) : recStrides v = BitVec.ofNat 128 (pack [64, 61, 3] [v.toNat, 0, 3]) := by
  refine congrArg (BitVec.ofNat 128) ?_
  simp only [pack]
  ring

theorem recFields0_fit {op : Nat} (h : op < 2 ^ 9) (r : RecF) : packFits recWidths0 (recFields0 op r) := by
  simp only [packFits, recWidths0, recFields0, List.forall₂_cons, List.forall₂_nil_left_iff, and_true]
  exact ⟨r.t0.isLt, r.t1.isLt, r.t2.isLt, r.t3.isLt, by decide, b01_lt _, b01_lt _, r.rnd.isLt, r.fmtO.code_lt,
    r.sparse.isLt, b01_lt _, r.had.isLt, b01_lt _, b01_lt _, r.fmtB.code_lt, r.fmtA.code_lt, r.mod.isLt, r.pidx.isLt,
    b01_lt _, by decide, h, r.wait.isLt, b01_lt _, b01_lt _, b01_lt _, b01_lt _, by decide⟩

theorem recFields1_fit (r : RecF) : packFits recWidths1 (recFields1 r) := by
  simp only [packFits, recWidths1, recFields1, List.forall₂_cons, List.forall₂_nil_left_iff, and_true]
  exact ⟨r.aStr.isLt, by decide, r.lvD.isLt, b01_lt _, r.lvB.isLt, b01_lt _, r.lvA.isLt, b01_lt _, r.tile.isLt, r.ringD.isLt,
    r.ringB.isLt, r.ringA.isLt, by decide⟩

/-- Field n of a record's first word. -/
theorem bits_recWord0 {op : Nat} (h : op < 2 ^ 9) (r : RecF) (n : Nat) {v hi lo : Nat}
    (hk : recWidths0[n]? = some (hi + 1 - lo)) (hl : (recWidths0.take n).sum = lo) (hv : (recFields0 op r)[n]? = some v) :
    bits (recWord0 op r) hi lo = v := by
  rw [recWord0_eq_pack]
  exact bits_pack (recFields0_fit h r) (by decide) n hk hl hv

/-- Field n of a record's second word. -/
theorem bits_recWord1 (r : RecF) (n : Nat) {v hi lo : Nat} (hk : recWidths1[n]? = some (hi + 1 - lo))
    (hl : (recWidths1.take n).sum = lo) (hv : (recFields1 r)[n]? = some v) : bits (recWord1 r) hi lo = v := by
  rw [recWord1_eq_pack]
  exact bits_pack (recFields1_fit r) (by decide) n hk hl hv

theorem recStrides_fields (v : BitVec 64) : bits (recStrides v) 63 0 = v.toNat ∧ bits (recStrides v) 124 64 = 0
    ∧ bits (recStrides v) 127 125 = 3 := by
  have hfit : packFits [64, 61, 3] [v.toNat, 0, 3] :=
    .cons v.isLt (.cons (by decide) (.cons (by decide) .nil))
  rw [recStrides_eq_pack]
  exact ⟨bits_pack hfit (by decide) 0 (by decide) (by decide) rfl, bits_pack hfit (by decide) 1 (by decide) (by decide) rfl,
    bits_pack hfit (by decide) 2 (by decide) (by decide) rfl⟩

theorem recWord1_fields (r : RecF) : bits (recWord1 r) 127 125 = 3 ∧ bits (recWord1 r) 100 64 = 0
    ∧ bits (recWord1 r) 124 122 = r.ringA.val ∧ bits (recWord1 r) 121 119 = r.ringB.val
    ∧ bits (recWord1 r) 118 116 = r.ringD.val ∧ bits (recWord1 r) 115 110 = r.tile.toNat
    ∧ bits (recWord1 r) 108 107 = r.lvA.toNat ∧ bits (recWord1 r) 105 104 = r.lvB.toNat
    ∧ bits (recWord1 r) 102 101 = r.lvD.toNat ∧ bits (recWord1 r) 63 0 = r.aStr.toNat := by
  have f := bits_recWord1 r
  exact ⟨f 12 (by decide) (by decide) rfl, f 1 (by decide) (by decide) rfl, f 11 (by decide) (by decide) rfl,
    f 10 (by decide) (by decide) rfl, f 9 (by decide) (by decide) rfl, f 8 (by decide) (by decide) rfl,
    f 6 (by decide) (by decide) rfl, f 4 (by decide) (by decide) rfl, f 2 (by decide) (by decide) rfl,
    f 0 (by decide) (by decide) rfl⟩

theorem recWord1_pops (r : RecF) : bit (recWord1 r) 109 = r.popA ∧ bit (recWord1 r) 106 = r.popB
    ∧ bit (recWord1 r) 103 = r.popD :=
  ⟨bit_of_bits (bits_recWord1 r 7 (by decide) (by decide) rfl), bit_of_bits (bits_recWord1 r 5 (by decide) (by decide) rfl),
    bit_of_bits (bits_recWord1 r 3 (by decide) (by decide) rfl)⟩

section

variable {op : Nat} (hop : op < 2 ^ 9) (r : RecF)

include hop

/-- The header of a record's first word, and the zero bits of it. -/
theorem recWord0_header : bits (recWord0 op r) 127 125 = 3 ∧ bits (recWord0 op r) 105 104 = 0 ∧ bits (recWord0 op r) 71 64 = 0
    ∧ bits (recWord0 op r) 114 106 = op ∧ bits (recWord0 op r) 120 115 = r.wait.toNat
    ∧ bits (recWord0 op r) 102 100 = r.pidx.val ∧ bits (recWord0 op r) 99 96 = r.mod.toNat := by
  have f := bits_recWord0 hop r
  exact ⟨f 26 (by decide) (by decide) rfl, f 19 (by decide) (by decide) rfl, f 4 (by decide) (by decide) rfl,
    f 20 (by decide) (by decide) rfl, f 21 (by decide) (by decide) rfl, f 17 (by decide) (by decide) rfl,
    f 16 (by decide) (by decide) rfl⟩

/-- The formats and numbers of a record's first word. -/
theorem recWord0_fields : bits (recWord0 op r) 95 92 = Fmt.code r.fmtA ∧ bits (recWord0 op r) 91 88 = Fmt.code r.fmtB
    ∧ bits (recWord0 op r) 79 76 = Fmt.code r.fmtO ∧ bits (recWord0 op r) 85 84 = r.had.toNat
    ∧ bits (recWord0 op r) 82 80 = r.sparse.toNat ∧ bits (recWord0 op r) 75 74 = r.rnd.toNat
    ∧ bits (recWord0 op r) 63 48 = r.t3.toNat ∧ bits (recWord0 op r) 47 32 = r.t2.toNat
    ∧ bits (recWord0 op r) 31 16 = r.t1.toNat ∧ bits (recWord0 op r) 15 0 = r.t0.toNat := by
  have f := bits_recWord0 hop r
  exact ⟨f 15 (by decide) (by decide) rfl, f 14 (by decide) (by decide) rfl, f 8 (by decide) (by decide) rfl,
    f 11 (by decide) (by decide) rfl, f 9 (by decide) (by decide) rfl, f 7 (by decide) (by decide) rfl,
    f 3 (by decide) (by decide) rfl, f 2 (by decide) (by decide) rfl, f 1 (by decide) (by decide) rfl,
    f 0 (by decide) (by decide) rfl⟩

/-- The truth values of a record's first word. -/
theorem recWord0_flags : bit (recWord0 op r) 124 = r.pbl ∧ bit (recWord0 op r) 123 = r.pbr ∧ bit (recWord0 op r) 122 = r.pal
    ∧ bit (recWord0 op r) 121 = r.par ∧ bit (recWord0 op r) 103 = r.pneg ∧ bit (recWord0 op r) 87 = r.sgnA
    ∧ bit (recWord0 op r) 86 = r.sgnB ∧ bit (recWord0 op r) 83 = r.hside ∧ bit (recWord0 op r) 73 = r.sat
    ∧ bit (recWord0 op r) 72 = r.accum := by
  have f (n : Nat) {b : Bool} {i : Nat} hk hl hv := bit_of_bits (bits_recWord0 hop r n (v := b01 b) (hi := i) (lo := i) hk hl hv)
  exact ⟨f 25 (by decide) (by decide) rfl, f 24 (by decide) (by decide) rfl, f 23 (by decide) (by decide) rfl,
    f 22 (by decide) (by decide) rfl, f 18 (by decide) (by decide) rfl, f 13 (by decide) (by decide) rfl,
    f 12 (by decide) (by decide) rfl, f 10 (by decide) (by decide) rfl, f 6 (by decide) (by decide) rfl,
    f 5 (by decide) (by decide) rfl⟩

end

/-- The fields of a record are read as they were written. -/
theorem recFieldsOf_recWords {op : Nat} (hop : op < 2 ^ 9) (r : RecF) :
    recFieldsOf (recWord0 op r) (recWord1 r) (recStrides r.bStr) (recStrides r.tStr) = some r := by
  simp only [recFieldsOf, recWord0_header hop r, recWord0_fields hop r, recWord0_flags hop r, recWord1_fields r,
    recWord1_pops r, recStrides_fields, Fmt.ofCode_code, BitVec.ofNat_toNat, BitVec.setWidth_eq]
  simp [guard]

/-- R177: the opcode of a record names it. -/
theorem recOf_recOfInstr {i : Instr} {op : Nat} {r : RecF} (h : recOfInstr i = some (op, r)) :
    op < 2 ^ 9 ∧ recOf op r = some i := by
  cases i with
  | mma r | mmas r | mhad r | mclr r | mlda r | msta r | mscl r | madda r | mxp r =>
    cases h
    exact ⟨by decide, rfl⟩
  | _ => cases h

/-- A record is read once its fields and its opcode are. -/
theorem decodeRecord_ok {w0 w1 w2 w3 : IWord} {r : RecF} {i : Instr}
    (ht : bits w1 127 125 = 3 ∧ bits w2 127 125 = 3 ∧ bits w3 127 125 = 3) (hf : recFieldsOf w0 w1 w2 w3 = some r)
    (hr : recOf (bits w0 114 106) r = some i) (h : wellFormed i = true) : decodeRecord w0 w1 w2 w3 = .ok i := by
  simp [decodeRecord, ht, hf, hr, h]

/-- R46, R48: a well-formed record is read from its four words. -/
theorem decodeRecord_recWords {i : Instr} {op : Nat} {r : RecF} (hr : recOfInstr i = some (op, r))
    (h : wellFormed i = true) :
    op < 2 ^ 9 ∧ decodeRecord (recWord0 op r) (recWord1 r) (recStrides r.bStr) (recStrides r.tStr) = .ok i := by
  obtain ⟨hop, hi⟩ := recOf_recOfInstr hr
  obtain ⟨-, -, -, hop0, -⟩ := recWord0_header hop r
  refine ⟨hop, decodeRecord_ok ⟨?_, ?_, ?_⟩ (recFieldsOf_recWords hop r) (by rw [hop0, hi]) h⟩
  · exact (recWord1_fields r).1
  · exact (recStrides_fields r.bStr).2.2
  · exact (recStrides_fields r.tStr).2.2

/-! ### Bytes (R4, R28) -/

theorem ofBytes_toBytes (n : Nat) : ∀ v, ofBytes (toBytes n v) = v % 256 ^ n := by
  induction n with
  | zero => exact fun v => (Nat.mod_one v).symm
  | succ n ih =>
    intro v
    have hv : v % 256 ^ (n + 1) = v % 256 + 256 * (v / 256 % 256 ^ n) := by rw [Nat.pow_succ', Nat.mod_mul]
    rw [toBytes, ofBytes, ih, BitVec.toNat_ofNat, hv]

/-- The bytes of a word are read as the word, whatever follows them. -/
theorem wordOfBytes_toBytes (w : IWord) (bs : List Byte) : wordOfBytes (toBytes 16 w.toNat ++ bs) = w := by
  rw [wordOfBytes, List.take_left' (toBytes_length 16 _), ofBytes_toBytes]
  exact BitVec.eq_of_toNat_eq (by rw [BitVec.toNat_ofNat]; have := w.isLt; omega)

theorem drop_toBytes (w : IWord) (bs : List Byte) : (toBytes 16 w.toNat ++ bs).drop 16 = bs :=
  List.drop_left' (toBytes_length 16 _)

/-- The tag of a word is not that of a record. -/
theorem Tag.code_ne_record (t : Tag) : (Tag.code t == 3) = false := by cases t <;> rfl

/-- R32: the bytes of one word that is not part of a record. -/
theorem decode_word {w : IWord} {i : Instr} (ht : (bits w 127 125 == 3) = false) (h : decodeWord w = .ok i)
    (more : List Byte) : decode (toBytes 16 w.toNat ++ more) = .ok (i, more) := by
  have hlen : ¬ (toBytes 16 w.toNat ++ more).length < 16 := by
    rw [List.length_append, toBytes_length]; omega
  simp only [decode, if_neg hlen, wordOfBytes_toBytes, ht, Bool.false_eq_true, if_false, h, drop_toBytes]

/-- R46: the bytes of a record. -/
theorem decode_record {w0 w1 w2 w3 : IWord} {i : Instr} (ht : bits w0 127 125 = 3) (h : decodeRecord w0 w1 w2 w3 = .ok i)
    (more : List Byte) : decode (toBytes 16 w0.toNat ++ (toBytes 16 w1.toNat ++ (toBytes 16 w2.toNat
      ++ (toBytes 16 w3.toNat ++ more)))) = .ok (i, more) := by
  have hlen : ∀ n ≤ 64, ¬ (toBytes 16 w0.toNat ++ (toBytes 16 w1.toNat ++ (toBytes 16 w2.toNat
      ++ (toBytes 16 w3.toNat ++ more)))).length < n := by
    intro n hn
    simp only [List.length_append, toBytes_length]; omega
  have h32 (bs : List Byte) : bs.drop 32 = (bs.drop 16).drop 16 := by rw [List.drop_drop]
  have h48 (bs : List Byte) : bs.drop 48 = ((bs.drop 16).drop 16).drop 16 := by rw [List.drop_drop, List.drop_drop]
  have h64 (bs : List Byte) : bs.drop 64 = (((bs.drop 16).drop 16).drop 16).drop 16 := by
    rw [List.drop_drop, List.drop_drop, List.drop_drop]
  simp only [decode, if_neg (hlen 16 (by decide)), if_neg (hlen 64 (by decide)), wordOfBytes_toBytes, ht, h32, h48, h64,
    drop_toBytes, h, beq_self_eq_true, if_true]

end Sys2Proof

namespace Sys2Proof.Package

open Sys2Proof.Machine Sys2Proof.Claims

/-- Settles O60: an instruction that has an encoding is one word, which `decodeWord_wordBits` reads back, or a record, which
`decodeRecord_recWords` does. -/
theorem decodeEncode : Obligations.DecodeEncode := by
  intro i more h hne
  cases hw : wordOf i with
  | some p =>
    obtain ⟨op, w⟩ := p
    obtain ⟨hop, hd⟩ := decodeWord_wordBits hw h
    have hb : encodeBytes i = toBytes 16 (wordBits op w).toNat := by simp [encodeBytes, encode, hw]
    rw [hb]
    exact decode_word (by rw [tag_wordBits hop, Tag.code_ne_record]) hd more
  | none =>
    cases hr : recOfInstr i with
    | some p =>
      obtain ⟨op, r⟩ := p
      obtain ⟨hop, hd⟩ := decodeRecord_recWords hr h
      have hb : encodeBytes i ++ more = toBytes 16 (recWord0 op r).toNat ++ (toBytes 16 (recWord1 r).toNat
          ++ (toBytes 16 (recStrides r.bStr).toNat ++ (toBytes 16 (recStrides r.tStr).toNat ++ more))) := by
        simp [encodeBytes, encode, hw, hr]
      rw [hb]
      exact decode_record (recWord0_header hop r).1 hd more
    | none => exact absurd (by simp [encode, hw, hr]) hne

end Sys2Proof.Package
end

section
/-! Events of a stream (R33, R84, R85, R96, R208, R370). -/

namespace Sys2Proof.Machine

open Sys2Proof Sys2Proof.Claims

theorem isStalled_moves {x : StreamSt} (h : isStalled x = true) : x.moves = true := by
  unfold isStalled at h
  unfold StreamSt.moves
  split at h
  · next hr => rw [hr]
  all_goals cases h

section

variable {s : State} {g : Agent}

theorem wordResume_due {t : State} (hr : mayResume (stOf s g) = true) (hs : (stOf s g).suspended = false)
    (ht : (bankOf s g).task.isSome = true) (hk : struck s g.core g.bank = false) (hw : wordNow s g = some t) :
    exec (.wordResume g) s = .next (modStOf s g (fun y => { y with run := .running })) := by
  have hn : (bankOf s g).task.isNone = false := by rw [← Option.not_isSome, ht]; rfl
  simp [exec, execWordResume, hr, hs, hn, hk, hw]

theorem waitaddrWake_due {w : Watch} (hw : (stOf s g).watching = some w) (ht : isStalled (stOf s g) = true)
    (hs : (stOf s g).suspended = false) (h : lineHit s g = true ∨ slotEndAfter s w.since ≤ s.cal.cycle) :
    exec (.waitaddrWake g) s
      = .next (modStOf s g (fun y => { y with run := .running, watching := none, stalledFor := 0 })) := by
  simp only [exec, execWaitaddrWake, hw]
  refine if_pos ?_
  obtain h | h := h <;> simp [ht, hs, h]

theorem deferredFault_due {d : Deferred} {ds : List Deferred} (hd : (stOf s g).deferred = d :: ds)
    (ht : isStalled (stOf s g) = true) (hs : (stOf s g).suspended = false) (hp : (stOf s g).pending = none) :
    exec (.deferredFault g) s = .next (takeDeferred s g d ds) := by
  simp [exec, execDeferredFault, hd, ht, hs, hp]

theorem streamStop_due {z : Freeze} (hz : (getAux s g.core g.bank).freeze = some z) (hd : z.done = false)
    (ht : isStalled (stOf s g) = true) (hp : (stOf s g).pending = none) (hs : (stOf s g).suspended = false)
    (h : 64 ≤ (stOf s g).stalledFor) :
    exec (.streamStop g) s = .next (freezeIfStill (modStOf s g stopHere) g.core g.bank) := by
  have hdue : stopDue s g z = true := by simp [stopDue, isStalled_moves ht, ht, hp, hs, h]
  simp [exec, execStreamStop, hz, hd, hdue]

/-- R96: a word past step 8 does what its answer says, on an issue cycle. -/
theorem responseReturn_due {p : Pending} {t : State} (hp : (stOf s g).pending = some p) (hi : issueNow s g.core = true)
    (hr : s.cal.relock = 0) (ht : returned s g p = some t) : exec (.responseReturn g) s = .next t := by
  simp [exec, execResponseReturn, hp, hi, hr, ht]

/-- R187: the loss of a die that an atomic's mask names fails its word. -/
theorem returned_lost {p : Pending} {d : DieId} (hf : p.failed = none) (hk : p.kind = .atomic)
    (hl : lostDie s p.word.scope (wordMask s g p.word) = some d) :
    ∃ t, returned s g p = some (wordFault t g (flt .dielost 0 (w64 d.val)) false false) := by
  simp only [returned, hf, hk, returnReg, hl]
  exact ⟨_, rfl⟩

end

end Sys2Proof.Machine

namespace Sys2Proof.Package

open Sys2Proof.Machine Sys2Proof.Claims

/-- Settles O33: each event is due by its hypotheses; a word past step 8 ends as `returned` says of its kind. -/
theorem streamEvents : Obligations.StreamEvents := by
  intro g s
  refine ⟨fun t hr hs ht hk hw => wordResume_due hr hs ht hk hw, fun w hw ht hs h => waitaddrWake_due hw ht hs h,
    fun d ds hd ht hs hp => deferredFault_due hd ht hs hp, fun z hz hd ht hp hs h => streamStop_due hz hd ht hp hs h,
    fun p hp hf hi hr => ⟨fun v hk hl hv ha => responseReturn_due hp hi hr ?seen, fun d hk hl => ?lost,
      fun hk hv => responseReturn_due hp hi hr ?answer⟩,
    fun p f hp hf hi hr => responseReturn_due hp hi hr ?failed⟩
  case seen => simp [returned, hf, hk, returnReg, hl, hv, ha]
  case lost =>
    obtain ⟨t, ht⟩ := returned_lost hf hk hl
    exact ⟨t, responseReturn_due hp hi hr ht⟩
  case answer => obtain hk | hk := hk <;> simp [returned, hf, hk, hv]
  case failed => simp only [returned, hf]

end Sys2Proof.Package
end

section
/-! The turn of a stream: the word that it fetches, skips, finds reserved or undecodable, or runs (R29 to R33, R84). -/

namespace Sys2Proof.Machine

open Sys2Proof Sys2Proof.Claims

/-! ### What a fetch finds (R29, R31, R32, R48) -/

section

variable {t : State} {g : Agent} {bs : List Byte}

theorem fetchInstr_skip (hb : fetchBytes t g ((stOf t g).pc.setWidth 64) 16 = .ok bs)
    (hf : fateOf g.stream (ofBytes bs / 2 ^ 125 % 8) = .skip) : fetchInstr t g = .skip := by
  simp only [fetchInstr, hb, hf]

theorem fetchInstr_reserved (hb : fetchBytes t g ((stOf t g).pc.setWidth 64) 16 = .ok bs)
    (hf : fateOf g.stream (ofBytes bs / 2 ^ 125 % 8) = .reserved) : fetchInstr t g = .stop (illop t (ofBytes bs)) := by
  simp only [fetchInstr, hb, hf]

end

/-! ### The step of a stream's turn -/

section

variable {s : State} {g : Agent} {rest : List Turn}

theorem step_word (ha : s.agenda = .word g :: rest) : step s = evalHere exec { s with agenda := rest } g := by
  simp only [step, nextTurn, ha, wordTurn]

variable (ha : s.agenda = .word g :: rest) (hm : mayEvaluate { s with agenda := rest, cur := g } g = true)
  (hl : (stOf { s with agenda := rest, cur := g } g).latch = none)

include ha hm hl

/-- A word that the stream does not execute is skipped (R31). -/
theorem step_skip (hf : fetchInstr (textServed { s with agenda := rest, cur := g } g) g = .skip) :
    step s = .next (skipWord (textServed { s with agenda := rest, cur := g } g) g) := by
  simp only [step_word ha, evalHere, hm, hl, hf, Bool.not_true, Bool.false_eq_true, if_false]

/-- A fetch that stops faults or stalls, unless QTHAW has thawed the word (R251). -/
theorem step_stop {x : Stop} (hf : fetchInstr (textServed { s with agenda := rest, cur := g } g) g = .stop x)
    (ht : (stOf (textServed { s with agenda := rest, cur := g } g) g).thaw = false) : step s = .next (fetchStop g x) := by
  simp only [step_word ha, evalHere, hm, hl, hf, ht, Bool.not_true, Bool.false_eq_true, if_false]

end

/-- R32, R371: the fault of a word that does not decode. -/
theorem fetchStop_illop (g : Agent) (t : State) (raw : Nat) : fetchStop g (illop t raw)
    = wordFault t g { flt .illop 0 (w64 (raw / 2 ^ 64 % 2 ^ 64)) (w64 (raw % 2 ^ 64)) with
        unit := if raw / 2 ^ 125 % 8 = 4 then 3 else 0 } false false := rfl

/-! ### The fates of tags (R31) -/

/-- The codes that every stream finds reserved are 5 to 7. -/
theorem fateOf_reserved {t : Stream} {tag : Nat} (h : fateOf t tag = .reserved) : tag ≠ 4 := by
  rintro rfl
  cases t <;> cases h

end Sys2Proof.Machine

namespace Sys2Proof.Package

open Sys2Proof.Machine Sys2Proof.Claims

/-- Settles O51: the fates are read off their table, and the step of a word that is skipped or reserved is that of
`step_skip` and `step_stop`. -/
theorem tagFates : Obligations.TagFates := by
  refine ⟨fun t tag ht => ?table, fun s g rest bs ha => fun hm hl hb => ⟨fun hf => ?skips, fun hf ht => ?reserved⟩⟩
  case table => cases t <;> interval_cases tag <;> rfl
  case skips => exact step_skip ha hm hl (fetchInstr_skip hb hf)
  case reserved =>
    rw [step_stop ha hm hl (fetchInstr_reserved hb hf) ht, fetchStop_illop, if_neg (fateOf_reserved hf)]
    rfl

/-- Settles O59: each worked encoding is decoded by computation. -/
theorem specWordsDecode : Obligations.SpecWordsDecode := by
  refine ⟨?_, ?_⟩
  · unfold specWords
    decide +kernel
  · decide +kernel

end Sys2Proof.Package
end

section
/-! The step of a decoded word settles the scratchpad's races: a NOP after a racing write (R92, R110). -/

namespace Sys2Proof.Machine

open Sys2Proof Sys2Proof.Claims

/-- The stream L of the active bank of core 0. -/
def racingAgent : Agent := { core := 0, bank := .active, stream := .l }

/-- A NOP of L at the head of the agenda, and a scratchpad byte that the same stream has replaced on this cycle. -/
def racingNop : State :=
  modCore (placeInstr State.reset (List.replicate 16 0)) 0 (fun k => { k with
    racing := [{ by_ := some racingAgent, free := 0, unit := 1, cell := (0, 0) }] })

/-- The state from which the turn of the NOP begins, its text fetched. -/
def racingFetched : State := textServed { racingNop with agenda := [], cur := racingAgent } racingAgent

theorem racingNop_agenda : racingNop.agenda = [.word racingAgent] := rfl

theorem racingNop_evaluates : mayEvaluate { racingNop with agenda := [], cur := racingAgent } racingAgent = true
    ∧ (stOf { racingNop with agenda := [], cur := racingAgent } racingAgent).latch = none := by
  decide +kernel

theorem racingNop_bytes : fetchBytes racingFetched racingAgent ((stOf racingFetched racingAgent).pc.setWidth 64) 16
    = .ok (List.replicate 16 0) := by
  decide +kernel

theorem nop_decodes : decode (List.replicate 16 0) = .ok (.nop {}, []) := by
  decide +kernel

/-- What the step leaves races no more. -/
theorem racingNop_settles : (match step racingNop with
    | .next t => (getCore t 0).racing.isEmpty
    | _ => false) = true := by
  decide +kernel

/-- NOP itself, run from the state that the statement names, leaves the race. -/
theorem racingNop_keeps : (match exec (.nop {}) (modStOf racingFetched racingAgent (fun x => { x with latch := some (.nop {}) })) with
    | .next t => (getCore t 0).racing.isEmpty
    | _ => false) = false := by
  decide +kernel

end Sys2Proof.Machine

namespace Sys2Proof.Package

open Sys2Proof.Machine Sys2Proof.Claims

/-- Refutes O58: the step of a fetched word also settles the scratchpad's races of its stream (`latchWord`), which the
statement's state does not: after the step of a NOP the race is gone, where NOP run from the statement's state keeps it. -/
theorem not_stepRunsDecoded : ¬ Obligations.StepRunsDecoded := by
  intro h
  obtain ⟨hword, -, -⟩ := h racingNop []
  obtain ⟨hm, hl⟩ := racingNop_evaluates
  obtain ⟨hrun, -⟩ := hword racingAgent (List.replicate 16 0) (.nop {}) [] racingNop_agenda hm hl racingNop_bytes
    (by decide +kernel)
  have hstep := hrun (by decide +kernel) nop_decodes
  have hsettles := racingNop_settles
  rw [hstep] at hsettles
  exact absurd (hsettles.symm.trans racingNop_keeps) (by decide)

end Sys2Proof.Package
end

section
/-! What the beginning of a wait leaves of the state (R33 steps 3 and 4, R35). -/

namespace Sys2Proof.Machine

open Sys2Proof Sys2Proof.Claims

/-- Steps 3 and 4 that pass begin the word's wait at most. -/
theorem passSlipWait_ok {s t : State} {g : Agent} {v : BitVec 6} {b : Bool} (h : passSlipWait s g v b = .ok t) :
    t = s ∨ t = beginWait s g v := by
  unfold passSlipWait at h
  simp only at h
  split at h
  · cases h
  · split at h
    · cases h; exact .inl rfl
    · split at h
      · cases h
      · cases h
      · split at h
        · split at h
          · cases h; exact .inr rfl
          · cases h
        · cases h; exact .inr rfl

/-- What s and every beginning of a wait give stands once steps 3 and 4 have passed. -/
theorem begun_induct {p : State → Prop} {s : State} {v : BitVec 6} (h : slipAndWaitPass s v false = true) (hs : p s)
    (hb : p (beginWait s s.cur v)) : p (begun s v) := by
  obtain he | he := passSlipWait_ok (slipAndWaitPass_begun h) <;> rw [he]
  · exact hs
  · exact hb

theorem begun_cal {s : State} {v : BitVec 6} (h : slipAndWaitPass s v false = true) : (begun s v).cal = s.cal :=
  begun_induct (p := fun t => t.cal = s.cal) h rfl rfl

/-- Steps 3 and 4 of a word that is ready pass. -/
theorem ready_passes {w : WordF} {perLane : Bool} {s : State} (h : ready w perLane s = true) :
    slipAndWaitPass s w.wait false = true := by
  simp only [ready, readyWith, Bool.and_eq_true] at h
  exact h.1.2

end Sys2Proof.Machine
end

section
/-! A word of L or S whose predicate is false (R33 step 6, R36, R107). -/

namespace Sys2Proof.Machine

open Sys2Proof Sys2Proof.Claims

/-- Step 6 of R33: a false predicate commits the token moves, and so does a word that QTHAW has thawed (R251). -/
theorem evalWord_falsePredicate {pbl pbr pal par : Bool} {wait : BitVec 6} {pidx : Fin 8} {pneg : Bool} {words : Nat}
    {w : WordF} {form n : Nat} {right : Bool} {body : State → Agent → Res Done} {s : State}
    (hm : mayEvaluate s s.cur = true) (hd : (stOf s s.cur).deferred = []) (hp : slipAndWaitPass s wait false = true)
    (ht : tokensReady (bankOf (begun s wait) s.cur) s.cur.stream s.cal.cycle (tokensOf pbl pbr pal par form n right) = true)
    (hb : tokensBad (bankOf (begun s wait) s.cur) s.cur.stream (tokensOf pbl pbr pal par form n right) = false)
    (hpb : predicateBad (bankOf (begun s wait) s.cur) s.cur.stream pidx = false)
    (hpr : predicate (bankOf (begun s wait) s.cur) s.cur.stream pidx pneg = false) :
    evalWord pbl pbr pal par wait pidx pneg false words w form n right body s
      = .next (commitWord (begun s wait) s.cur (tokensOf pbl pbr pal par form n right) [] none words) := by
  simp only [evalWord, hm, hd, slipAndWaitPass_begun hp, begun_cal hp, ht, hb, hpb, hpr, Bool.not_true, Bool.false_eq_true, if_false,
    Bool.not_false, Bool.false_and, Bool.true_and, if_true, ite_self]

/-- The tokens that a word of an opcode moves: its token bits, and those of TKPUSH and TKPOP (R36, R107). -/
def wordTokens (op : Nat) (w : WordF) : Tokens :=
  tokensOf w.pbl w.pbr w.pal w.par (if op = 0x064 then 1 else if op = 0x065 then 2 else 0) (shortNat w.srcA)
    (w.mod.getLsbD 0)

/-- The outcome r is that of a word with a predicate and these tokens. -/
def RunsPredicated (r : Out) (op : Nat) (w : WordF) (s : State) : Prop :=
  ∃ form n right body, tokensOf w.pbl w.pbr w.pal w.par form n right = wordTokens op w
    ∧ r = evalWord w.pbl w.pbr w.pal w.par w.wait w.pidx w.pneg false 1 w form n right body s

section

variable {op : Nat} (hop : op ≠ 0x064 ∧ op ≠ 0x065) (w : WordF) (s : State)

include hop

theorem runWord_runsPredicated (body : State → Agent → Res Done) : RunsPredicated (runWord w false body s) op w s :=
  ⟨0, 0, false, body, by simp [wordTokens, tokensOf, hop], rfl⟩

theorem scalarForm_runsPredicated (srcs : List Operand) (f : State → Agent → Word) :
    RunsPredicated (scalarForm w srcs f s) op w s := runWord_runsPredicated hop w s _

theorem unForm_runsPredicated (f : Word → Word) : RunsPredicated (unForm w f s) op w s :=
  scalarForm_runsPredicated hop w s _ _

theorem binForm_runsPredicated (f : Word → Word → Word) : RunsPredicated (binForm w f s) op w s :=
  scalarForm_runsPredicated hop w s _ _

theorem triForm_runsPredicated (f : Word → Word → Word → Word) : RunsPredicated (triForm w f s) op w s :=
  scalarForm_runsPredicated hop w s _ _

theorem takeForm_runsPredicated (o : Operand) : RunsPredicated (takeForm w o s) op w s := runWord_runsPredicated hop w s _

theorem trapForm_runsPredicated (b : Bool) : RunsPredicated (trapForm w b s) op w s := runWord_runsPredicated hop w s _

theorem atomicWord_runsPredicated (a : AOp) : RunsPredicated (atomicWord w a s) op w s := runWord_runsPredicated hop w s _

theorem affineForm_runsPredicated (f : EngForm) (o : Operand) (b : Bool) : RunsPredicated (affineForm w f o b s) op w s :=
  runWord_runsPredicated hop w s _

theorem pinForm_runsPredicated (b : Bool) : RunsPredicated (pinForm w b s) op w s := runWord_runsPredicated hop w s _

theorem cleanForm_runsPredicated : RunsPredicated (cleanForm w s) op w s := runWord_runsPredicated hop w s _

theorem onFrozen_runsPredicated (n : Nat) (f : State → CtxId → FrozenAt × Task × Freeze → State) :
    RunsPredicated (onFrozen w n f s) op w s := runWord_runsPredicated hop w s _

end

theorem runTokens_runsPredicated {op form : Nat} (w : WordF) (s : State)
    (h : (if op = 0x064 then 1 else if op = 0x065 then 2 else 0) = form) : RunsPredicated (runTokens w form s) op w s :=
  ⟨form, _, _, _, by rw [wordTokens, h], rfl⟩

/-- A word of another tag than L or S is none of theirs (R31). -/
theorem formLegal_not_ls {f : FormSpec} {w : WordF} {t : Tag} (h : formLegal f w = true) (hs : f.streams = [t])
    (hl : t ≠ .l) (hr : t ≠ .s) : ¬ (w.tag = .l ∨ w.tag = .s) := by
  have ht := (formLegal_tag_lits h).1
  rw [hs, List.mem_singleton] at ht
  rw [ht]
  exact not_or.mpr ⟨hl, hr⟩

/-- Every word of L or S runs with a predicate (R36). -/
theorem runsPredicated {i : Instr} {op : Nat} {w : WordF} (hw : wordOf i = some (op, w)) (h : wellFormed i = true)
    (ht : w.tag = .l ∨ w.tag = .s) (s : State) : RunsPredicated (exec i s) op w s := by
  cases i with
  | nop w | br w | bc w | call w | ret w | bri w | loopSet w | loop w | lbrk w | qpush w | qlen w | gets w | sets w
  | barinit w | bararr w | bartry w | gbararr w | gbartry w | waittl w | tlget w | setwt w | spawn w | renq w
  | klaunch w | kwait w | kcancelKern w | ld w | ldq w | ldqDec w | ldqs w | gathq w | rfill w | rfillg w | pref w
  | ldacq w | waitaddr w | rdrop w | rinit w | cpy w | cpyh w | migr w | coll w | digest w | tlbinv w | pgzero w
  | st w | stq w | stqEnc w | stqs w | scatq w | rdrain w | redsp w | sendh w | strel w | zero w =>
    cases hw
    dsimp only [exec]
    exact runWord_runsPredicated (by decide) w s _
  | cyc w | perf w | tuneq w =>
    cases hw
    dsimp only [exec]
    exact scalarForm_runsPredicated (by decide) w s _ _
  | mov w | clz w | popc w =>
    cases hw
    dsimp only [exec]
    exact unForm_runsPredicated (by decide) w s _
  | add w | sub w | mul w | mulh w | div w | rem w | and w | or w | xor w | shl w | shr w | sra w | min w | max w
  | set w | scale w | bfx w =>
    cases hw
    dsimp only [exec]
    exact binForm_runsPredicated (by decide) w s _
  | sel w | madd w | bfi w =>
    cases hw
    dsimp only [exec]
    exact triForm_runsPredicated (by decide) w s _
  | qpop w | qpeek w =>
    cases hw
    dsimp only [exec]
    exact takeForm_runsPredicated (by decide) w s _
  | trap w | brk w =>
    cases hw
    dsimp only [exec]
    exact trapForm_runsPredicated (by decide) w s _
  | aadd w | afadd w | amin w | amax w | aand w | aor w | axor w | aswp w | acas w | aincw w =>
    cases hw
    dsimp only [exec]
    exact atomicWord_runsPredicated (by decide) w s _
  | strm w | strmx w | drn w | drnx w =>
    cases hw
    dsimp only [exec]
    exact affineForm_runsPredicated (by decide) w s _ _ _
  | pin w | unpin w =>
    cases hw
    dsimp only [exec]
    exact pinForm_runsPredicated (by decide) w s _
  | clean w | inval w =>
    cases hw
    dsimp only [exec]
    exact cleanForm_runsPredicated (by decide) w s
  | kretry w | kcancelTask w | qthaw w =>
    cases hw
    dsimp only [exec]
    exact onFrozen_runsPredicated (by decide) w s _ _
  | tkpush w | tkpop w =>
    cases hw
    dsimp only [exec]
    exact runTokens_runsPredicated w s rfl
  | vadd w | vsub w | vmul w | vmulh w | vmadd w | vsadd w | vssub w | vand w | vor w | vxor w | vandn w | vshl w
  | vshr w | vsra w | vmin w | vmax w | vabs w | vneg w | vclz w | vpopc w | vdot4 w | fadd w | fsub w | fmul w
  | ffma w | ffnma w | fmin w | fmax w | fabs w | fneg w | fdiv w | fsqrt w | fexp w | fexp2 w | flog2 w | ftanh w
  | frnd w | fclass w | vcmp w | fcmp w | mand w | mor w | mxor w | mnot w | mpopc w | mfirst w | vsel w | mset w
  | cvt w | pack w | unpack w | qenc w | qdec w | vbcast w | vshuf w | vrot w | vslide w | vredadd w | vredmax w
  | vredmin w | vscan w | viota w | vcmprs w | vexpnd w | vmov w | vlit w | vins w | vext w | pkset w | pkrand w
  | pktopk w | pkmerge w | pkdraw w =>
    cases hw
    exact absurd ht (formLegal_not_ls (t := .x) h rfl (by decide) (by decide))
  | fence w | tend w | ktrig w | sync w | yieldTl w | yieldNb w | yieldGb w | yieldArr w =>
    cases hw
    exact absurd ht (formLegal_not_ls (t := .b) h rfl (by decide) (by decide))
  | _ => cases hw

end Sys2Proof.Machine

namespace Sys2Proof.Package

open Sys2Proof.Machine Sys2Proof.Claims

/-- Settles O49: every word of L or S runs with a predicate (`runsPredicated`), and a false one commits its tokens alone
(`evalWord_falsePredicate`). -/
theorem falsePredicate : Obligations.FalsePredicate := by
  intro i op w s hw hf ht hx t toks hm hd hp hr hb hpb hpr
  obtain ⟨form, n, right, body, htoks, hexec⟩ := runsPredicated hw hf ht s
  have htoks : tokensOf w.pbl w.pbr w.pal w.par form n right = toks := htoks
  rw [hexec, ← htoks]
  exact evalWord_falsePredicate hm hd hp (htoks ▸ hr) (htoks ▸ hb) hpb hpr

end Sys2Proof.Package
end

section
/-! The checks of an access at address 2⁵² of an element of 4 bits (R134, R135, R139). -/

namespace Sys2Proof.Machine

open Sys2Proof Sys2Proof.Claims

/-- LD of a type of 4 bits, which R139 does not have: its element has 0 bytes. -/
def nibbleLoad : WordF := { etype := .s4, srcA := .reg 1, srcB := .short 0 }

/-- L is about to evaluate a word, with 2⁵² in a1. -/
def farAddress : State :=
  { modBank State.reset 0 .active (fun _ => { ({} : Bank) with
      task := some placedTask
      l := { run := .running }
      a := { ({} : AFiles) with l := Vector.replicate 32 (2 ^ 52) } }) with
    cur := { core := 0, bank := .active, stream := .l } }

theorem farAddress_ready : ready nibbleLoad false farAddress = true
    ∧ sourcesOk (begun farAddress 0) farAddress.cur [.reg 1, .short 0] (dstPush (.reg 0)) = true := by
  decide +kernel

/-- The address of the load. -/
def farLoadAddress : Word :=
  src farAddress nibbleLoad [.reg 1, .short 0] 0 + src farAddress nibbleLoad [.reg 1, .short 0] 1

/-- It is past the range, and no multiple of 0. -/
theorem farLoadAddress_toNat : farLoadAddress.toNat = 2 ^ 52 := by
  decide +kernel

/-- The code of the fault that the bank of L reports. -/
def reportedCode (s : State) : Option Code := (getAux s 0 .active).freeze.map (·.info.code)

theorem farAddress_reports : reportedCode (wordFault (begun farAddress 0) farAddress.cur (flt .notmapped farLoadAddress) false false)
      = some .notmapped
    ∧ reportedCode (wordFault (begun farAddress 0) farAddress.cur (flt .align farLoadAddress 0) false false) = some .align := by
  decide +kernel

end Sys2Proof.Machine

namespace Sys2Proof.Package

open Sys2Proof.Machine Sys2Proof.Claims

/-- Refutes O50: the statement does not ask that the type be one of R139's. An element of 4 bits has 0 bytes, so its access
at 2⁵² lies past the range by the first clause and ends within it by the third, which asks for ALIGN where the first asks for
NOTMAPPED. -/
theorem not_earlyFaults : ¬ Obligations.EarlyFaults := by
  intro h
  obtain ⟨hready, hsources⟩ := farAddress_ready
  obtain ⟨hfar, -, hwithin⟩ := h.2 nibbleLoad farAddress false hready hsources
  have hrange := hfar farLoadAddress_toNat.ge
  obtain ⟨halign, -⟩ := hwithin farLoadAddress_toNat.le
  have haligned := halign (ne_of_eq_of_ne ((Nat.mod_zero _).trans farLoadAddress_toNat) (by decide))
  have hsame := congrArg reportedCode (Host.Outcome.next.inj (hrange.symm.trans haligned))
  obtain ⟨hnotmapped, haligns⟩ := farAddress_reports
  exact absurd (hnotmapped.symm.trans (hsame.trans haligns)) (by decide)

end Sys2Proof.Package
end

section
/-! The frame of what happens within one bank (R33): what a bank keeps when some of its parts are replaced, what the wait of a
word and its commit keep, and how such steps compose. -/

namespace Sys2Proof.Machine

open Sys2Proof Sys2Proof.Claims

/-! ### A bank alone changes -/

theorem vset_get_same {α : Type} {n : Nat} (v : Vector α n) (i : Fin n) : vset v i (v.get i) = v := by
  simp [vset, Vector.get_eq_getElem]

theorem setBank_bank (k : Core) (b : BankId) : k.setBank b (k.bank b) = k := by cases b <;> rfl

theorem modCore_modCore (s : State) (c : CoreId) (f h : Core → Core) :
    modCore (modCore s c f) c h = modCore s c (fun k => h (f k)) := by
  simp only [modCore, setCore, getCore, vset_get_self]
  simp [vset]

theorem modBank_modBank (s : State) (c : CoreId) (b : BankId) (f h : Bank → Bank) :
    modBank (modBank s c b f) c b h = modBank s c b (fun k => h (f k)) := by
  simp only [modBank, setBank, getBank, modCore_modCore, getCore_modCore]
  cases b <;> rfl

theorem bankOf_modBankOf (s : State) (g : Agent) (f : Bank → Bank) : bankOf (modBankOf s g f) g = f (bankOf s g) :=
  getBank_modBank ..

theorem onlyItsBank_refl (s : State) (g : Agent) : onlyItsBank s s g := by
  simp only [onlyItsBank, modBank, setBank, modCore, setCore, bankOf, getBank, getCore, setBank_bank, vset_get_same]

theorem onlyItsBank_modBankOf (s : State) (g : Agent) (f : Bank → Bank) : onlyItsBank s (modBankOf s g f) g := by
  rw [onlyItsBank, bankOf_modBankOf]
  rfl

theorem onlyItsBank_trans {s t u : State} {g : Agent} (h : onlyItsBank s t g) (h' : onlyItsBank t u g) :
    onlyItsBank s u g := by
  rw [onlyItsBank] at h h' ⊢
  rw [h, modBank_modBank] at h'
  exact h'

/-! ### Parts of a bank replaced -/

theorem st_setSt_ne (k : Bank) {t u : Stream} (x : StreamSt) (h : u ≠ t) : (k.setSt t x).st u = k.st u := by
  cases t <;> cases u <;> first | rfl | exact absurd rfl h

theorem regs_setRegs_ne (k : Bank) {t u : Stream} (x : StreamRegs) (h : u ≠ t) : (k.setRegs t x).regs u = k.regs u := by
  cases t <;> cases u <;> first | rfl | exact absurd rfl h

section

variable {g : Agent} {k k' k'' : Bank} {w : WordF} {srcs : List Operand} {dst : Operand}

theorem bankKeeps_trans (h : bankKeeps g k k' w srcs dst) (h' : bankKeeps g k' k'' w srcs dst) :
    bankKeeps g k k'' w srcs dst := by
  obtain ⟨task, eng, pk, others, wt, nb, last, badWt, perf, lc, q, tk, deferred, suspended⟩ := h
  obtain ⟨task', eng', pk', others', wt', nb', last', badWt', perf', lc', q', tk', deferred', suspended'⟩ := h'
  exact ⟨task'.trans task, eng'.trans eng, pk'.trans pk,
    fun t ht => ⟨(others' t ht).1.trans (others t ht).1, (others' t ht).2.trans (others t ht).2⟩,
    wt'.trans wt, nb'.trans nb, last'.trans last, badWt'.trans badWt, fun i hi => (perf' i hi).trans (perf i hi),
    fun i hi => (lc' i hi).trans (lc i hi), fun n hn hd => (q' n hn hd).trans (q n hn hd), fun ht => (tk' ht).trans (tk ht),
    deferred'.trans deferred, suspended'.trans suspended⟩

theorem scalarRegistersKeep_trans (h : scalarRegistersKeep g k k' dst) (h' : scalarRegistersKeep g k' k'' dst) :
    scalarRegistersKeep g k k'' dst := by
  obtain ⟨hs, ha, hv, hh, hm⟩ := h
  obtain ⟨hs', ha', hv', hh', hm'⟩ := h'
  exact ⟨hs'.trans hs, fun t n ht hd => (ha' t n ht hd).trans (ha t n ht hd), fun n hd => (hv' n hd).trans (hv n hd),
    fun hd => (hh' hd).trans (hh hd), hm'.trans hm⟩

theorem bankKeeps_of_eq (htask : k'.task = k.task) (heng : k'.eng = k.eng) (hpk : k'.pk = k.pk)
    (hst : ∀ t, k'.st t = k.st t) (hregs : ∀ t, k'.regs t = k.regs t)
    (hq : ∀ q, q ∉ popsOf srcs → (∀ p, dst ≠ .queue q p) → k'.q.get q = k.q.get q)
    (ht : bitTokens w = { popL := 0, popR := 0, pushL := 0, pushR := 0 } → k'.tk = k.tk) : bankKeeps g k k' w srcs dst := by
  have hr := hregs g.stream
  have hs := hst g.stream
  exact ⟨htask, heng, hpk, fun t _ => ⟨hst t, hregs t⟩, by rw [hr], by rw [hr], by rw [hr], by rw [hr], fun _ _ => by rw [hr],
    fun _ _ => by rw [hr], hq, ht, by rw [hs], by rw [hs]⟩

/-- The register files, the special registers, the queues and the tokens are apart from all else of a bank. -/
theorem bankKeeps_files (k : Bank) (w : WordF) (a : AFiles) (v : VecRegs) (r : BankSregs) {q : Vector (Fifo Entry) 16}
    {tk : Vector (Fifo Bool) 6} (hq : ∀ n, n ∉ popsOf srcs → (∀ p, dst ≠ .queue n p) → q.get n = k.q.get n)
    (ht : bitTokens w = { popL := 0, popR := 0, pushL := 0, pushR := 0 } → tk = k.tk) :
    bankKeeps g k { k with a := a, vec := v, sregs := r, q := q, tk := tk } w srcs dst := by
  have hst : ∀ t, ({ k with a := a, vec := v, sregs := r, q := q, tk := tk } : Bank).st t = k.st t := by
    rintro (_ | _ | _) <;> rfl
  have hregs : ∀ t, ({ k with a := a, vec := v, sregs := r, q := q, tk := tk } : Bank).regs t = k.regs t := by
    rintro (_ | _ | _) <;> rfl
  exact bankKeeps_of_eq rfl rfl rfl hst hregs hq ht

/-- A stream moves, its deferred faults and its suspension as they were. -/
theorem bankKeeps_setSt (k : Bank) (w : WordF) (srcs : List Operand) (dst : Operand) {x : StreamSt}
    (hd : x.deferred = (k.st g.stream).deferred) (hs : x.suspended = (k.st g.stream).suspended) :
    bankKeeps g k (k.setSt g.stream x) w srcs dst := by
  obtain ⟨c, b, t⟩ := g
  have hr : (k.setSt t x).regs t = k.regs t := regs_setSt ..
  refine ⟨?_, ?_, ?_, fun u hu => ⟨st_setSt_ne k x hu, regs_setSt ..⟩, by rw [hr], by rw [hr], by rw [hr], by rw [hr],
    fun _ _ => by rw [hr], fun _ _ => by rw [hr], fun q _ _ => ?_, fun _ => ?_, by rw [st_setSt, hd], by rw [st_setSt, hs]⟩ <;>
    cases t <;> rfl

/-- Of a stream's registers the destination's loop counter changes, and the first counter. -/
theorem bankKeeps_setRegs (k : Bank) (w : WordF) (srcs : List Operand) {lc : Vector Word 4} (bad : BitVec 4)
    {perf : Vector Word 8} (hp : ∀ i : Fin 8, i ≠ 0 → perf.get i = (k.regs g.stream).perf.get i)
    (hl : ∀ i : Fin 4, (∀ m, dst = .mlc m → Fin.ofNat 4 m.val ≠ i) → lc.get i = (k.regs g.stream).lc.get i) :
    bankKeeps g k (k.setRegs g.stream { k.regs g.stream with lc := lc, badLc := bad, perf := perf }) w srcs dst := by
  obtain ⟨c, b, t⟩ := g
  have hregs : ∀ r, (k.setRegs t r).regs t = r := regs_setRegs k t
  have hst : ∀ r, (k.setRegs t r).st t = k.st t := st_setRegs k t t
  refine ⟨?_, ?_, ?_, fun u hu => ⟨st_setRegs .., regs_setRegs_ne k _ hu⟩, by rw [hregs], by rw [hregs], by rw [hregs],
    by rw [hregs],
    fun i hi => by rw [hregs]; exact hp i hi, fun i hi => by rw [hregs]; exact hl i hi, fun q _ _ => ?_, fun _ => ?_,
    by rw [hst], by rw [hst]⟩ <;> cases t <;> rfl

theorem areg_of_a_eq (ha : k'.a = k.a) (t : Stream) (n : Fin 32) : k'.areg t n = k.areg t n := by
  cases t <;> simp only [Bank.areg, ha]

theorem scalarRegistersKeep_of_eq (dst : Operand) (ha : k'.a = k.a) (hv : k'.vec = k.vec) (hs : k'.sregs = k.sregs) :
    scalarRegistersKeep g k k' dst :=
  ⟨hs, fun t n _ _ => areg_of_a_eq ha t n, fun n _ => by rw [hv], fun _ => by rw [hv], by rw [hv]⟩

/-! ### The stages of a word -/

theorem bankKeeps_pushQ (k : Bank) (w : WordF) (srcs : List Operand) (q : Fin 16) (p : Bool) (n : Nat) (es : List Entry) :
    bankKeeps g k (pushQ k q n es) w srcs (.queue q p) :=
  bankKeeps_files k w k.a k.vec k.sregs
    (fun r _ hd => (vmod_get k.q q r _).trans (if_neg (fun h => hd p (congrArg (Operand.queue · p) h)))) (fun _ => rfl)

theorem bankKeeps_setLc (k : Bank) (w : WordF) (srcs : List Operand) (n : Fin 8) (v : Word) :
    bankKeeps g k (setLc k g.stream (Fin.ofNat 4 n.val) v) w srcs (.mlc n) :=
  bankKeeps_setRegs k w srcs _ (fun _ _ => rfl) (fun _ hi => (vset_get ..).trans (if_neg (hi n rfl)))

theorem popAll_q (k : Bank) (n : Nat) {pops : List (Fin 16)} {q : Fin 16} (h : q ∉ pops) :
    (popAll k n pops).q.get q = k.q.get q := by
  induction pops generalizing k with
  | nil => rfl
  | cons r rs ih =>
    rw [List.mem_cons, not_or] at h
    obtain ⟨hr, hrs⟩ := h
    exact (ih (popQ k r n 1) hrs).trans ((vmod_get ..).trans (if_neg (Ne.symm hr)))

/-- Pops change the queues alone. -/
theorem popAll_eq (k : Bank) (n : Nat) (pops : List (Fin 16)) : popAll k n pops = { k with q := (popAll k n pops).q } := by
  induction pops generalizing k with
  | nil => rfl
  | cons r rs ih => rw [popAll, ih (popQ k r n 1)]; rfl

/-- The moves of tokens change the tokens alone. -/
theorem moveTokens_eq (k : Bank) (t : Stream) (n : Nat) (x : Tokens) :
    moveTokens k t n x = { k with tk := (moveTokens k t n x).tk } := rfl

theorem moveTokens_none (k : Bank) (t : Stream) (n : Nat) :
    moveTokens k t n { popL := 0, popR := 0, pushL := 0, pushR := 0 } = k := by
  simp [moveTokens, Fifo.pop, Fifo.push, vmod, vset_get_same]

/-- R33 step 9 in the bank. -/
def commitBank (k : Bank) (t : Stream) (n : Nat) (toks : Tokens) (pops : List (Fin 16)) (next : Option VAddr) (words : Nat) :
    Bank :=
  let k := moveTokens (popAll k n pops) t n toks
  let x := k.st t
  let k := k.setSt t (advance x (next.getD (x.pc + BitVec.ofNat 52 (16 * words))) (slipCount x + words))
  k.modRegs t (fun r => countPerf r 0)

theorem commitWord_eq (s : State) (g : Agent) (toks : Tokens) (pops : List (Fin 16)) (next : Option VAddr) (words : Nat) :
    commitWord s g toks pops next words
      = modBankOf s g (fun k => commitBank k g.stream s.cal.cycle toks pops next words) := rfl

theorem bankKeeps_commitBank (k : Bank) (g : Agent) (w : WordF) (srcs : List Operand) (dst : Operand) (n : Nat)
    (next : Option VAddr) (words : Nat) :
    bankKeeps g k (commitBank k g.stream n (bitTokens w) (popsOf srcs) next words) w srcs dst := by
  let k1 := popAll k n (popsOf srcs)
  let k2 := moveTokens k1 g.stream n (bitTokens w)
  have h1 : bankKeeps g k k1 w srcs dst := by
    rw [show k1 = _ from popAll_eq k n _]
    exact bankKeeps_files k w k.a k.vec k.sregs (fun q hq _ => popAll_q k n hq) (fun _ => rfl)
  have h2 : bankKeeps g k1 k2 w srcs dst :=
    bankKeeps_files k1 w k1.a k1.vec k1.sregs (fun _ _ _ => rfl)
      (fun ht => congrArg Bank.tk ((congrArg (moveTokens k1 g.stream n) ht).trans (moveTokens_none ..)))
  have h3 := bankKeeps_setSt (g := g) k2 w srcs dst
    (x := advance (k2.st g.stream) (next.getD ((k2.st g.stream).pc + BitVec.ofNat 52 (16 * words)))
      (slipCount (k2.st g.stream) + words)) rfl rfl
  exact bankKeeps_trans (bankKeeps_trans (bankKeeps_trans h1 h2) h3)
    (bankKeeps_setRegs _ w srcs _ (fun i hi => (vmod_get ..).trans (if_neg hi.symm)) (fun _ _ => rfl))

/-- The commit leaves the files of registers. -/
theorem commitBank_files (k : Bank) (t : Stream) (n : Nat) (toks : Tokens) (pops : List (Fin 16)) (next : Option VAddr)
    (words : Nat) : (commitBank k t n toks pops next words).a = k.a ∧ (commitBank k t n toks pops next words).vec = k.vec
      ∧ (commitBank k t n toks pops next words).sregs = k.sregs := by
  unfold commitBank
  rw [moveTokens_eq, popAll_eq]
  cases t <;> exact ⟨rfl, rfl, rfl⟩

/-! ### Scalar registers -/

theorem scalarRegistersKeep_setA (k : Bank) {n : Fin 32} (v : Word) (hx : g.stream ≠ .x) :
    scalarRegistersKeep g k (setA k g.stream n v) (.reg n) := by
  obtain ⟨c, b, t⟩ := g
  have hget : ∀ (m : Fin 32) (f : Vector Word 32), Operand.reg n ≠ .reg m → (vset f n v).get m = f.get m := fun m f hm =>
    (vset_get ..).trans (if_neg (fun h => hm (congrArg Operand.reg h)))
  cases t with
  | x => exact absurd rfl hx
  | l =>
    refine ⟨rfl, fun u m hu hd => ?_, fun _ _ => rfl, fun _ => rfl, rfl⟩
    cases u with
    | l => exact hget m _ (hd rfl)
    | x => exact absurd rfl hu
    | s => rfl
  | s =>
    refine ⟨rfl, fun u m hu hd => ?_, fun _ _ => rfl, fun _ => rfl, rfl⟩
    cases u with
    | l => rfl
    | x => exact absurd rfl hu
    | s => exact hget m _ (hd rfl)

theorem scalarRegistersKeep_setV (k : Bank) {n : Fin 32} (v : Vec) (hx : g.stream = .x) :
    scalarRegistersKeep g k (setV k n v) (.reg n) :=
  ⟨rfl, fun t n _ _ => areg_of_a_eq rfl t n, fun _ hm => (vset_get ..).trans (if_neg (fun h => hm hx (congrArg Operand.reg h))),
    fun _ => rfl, rfl⟩

theorem agePush_files (r : VecRegs) (v : Vec) : (agePush r v).v = r.v ∧ (agePush r v).m = r.m := by
  simp only [agePush, and_self]

theorem scalarRegistersKeep_agePush (k : Bank) (n : Fin 16) (v : Vec) :
    scalarRegistersKeep g k { k with vec := agePush k.vec v } (.age n) :=
  ⟨rfl, fun t m _ _ => areg_of_a_eq rfl t m, fun _ _ => by rw [(agePush_files k.vec v).1], fun h => (h n rfl).elim,
    (agePush_files k.vec v).2⟩

theorem setLc_files (k : Bank) (t : Stream) (n : Fin 4) (v : Word) :
    (setLc k t n v).a = k.a ∧ (setLc k t n v).vec = k.vec ∧ (setLc k t n v).sregs = k.sregs := by
  cases t <;> exact ⟨rfl, rfl, rfl⟩

end

/-! ### What a word leaves around its effect -/

/-- From s to t the bank of g alone changes, and of it only what a word may change: the frame of the scalar words. -/
def wordKeeps (g : Agent) (w : WordF) (srcs : List Operand) (dst : Operand) (s t : State) : Prop :=
  onlyItsBank s t g ∧ bankKeeps g (bankOf s g) (bankOf t g) w srcs dst
    ∧ scalarRegistersKeep g (bankOf s g) (bankOf t g) dst

section

variable {g : Agent} {w : WordF} {srcs : List Operand} {dst : Operand} {s t u : State}

theorem wordKeeps_trans (h : wordKeeps g w srcs dst s t) (h' : wordKeeps g w srcs dst t u) : wordKeeps g w srcs dst s u := by
  obtain ⟨ho, hb, hr⟩ := h
  obtain ⟨ho', hb', hr'⟩ := h'
  exact ⟨onlyItsBank_trans ho ho', bankKeeps_trans hb hb', scalarRegistersKeep_trans hr hr'⟩

theorem wordKeeps_modBankOf {f : Bank → Bank} (hb : bankKeeps g (bankOf s g) (f (bankOf s g)) w srcs dst)
    (hr : scalarRegistersKeep g (bankOf s g) (f (bankOf s g)) dst) : wordKeeps g w srcs dst s (modBankOf s g f) := by
  rw [wordKeeps, bankOf_modBankOf]
  exact ⟨onlyItsBank_modBankOf s g f, hb, hr⟩

theorem bankKeeps_refl (k : Bank) : bankKeeps g k k w srcs dst :=
  bankKeeps_of_eq rfl rfl rfl (fun _ => rfl) (fun _ => rfl) (fun _ _ _ => rfl) (fun _ => rfl)

theorem wordKeeps_refl (s : State) : wordKeeps g w srcs dst s s :=
  ⟨onlyItsBank_refl s g, bankKeeps_refl _, scalarRegistersKeep_of_eq dst rfl rfl rfl⟩

theorem wordKeeps_modStOf {f : StreamSt → StreamSt} (hd : (f (stOf s g)).deferred = (stOf s g).deferred)
    (hs : (f (stOf s g)).suspended = (stOf s g).suspended) : wordKeeps g w srcs dst s (modStOf s g f) := by
  apply wordKeeps_modBankOf (bankKeeps_setSt _ w srcs dst hd hs)
  apply scalarRegistersKeep_of_eq <;> cases g.stream <;> rfl

/-- A wait changes the stream alone. -/
theorem wordKeeps_beginWait (v : BitVec 6) : wordKeeps g w srcs dst s (beginWait s g v) := by
  refine wordKeeps_modStOf ?_ ?_ <;> split <;> rfl

theorem wordKeeps_begun {v : BitVec 6} (h : slipAndWaitPass s v false = true) :
    wordKeeps s.cur w srcs dst s (begun s v) :=
  begun_induct h (wordKeeps_refl s) (wordKeeps_beginWait v)

theorem wordKeeps_commitWord (s : State) (next : Option VAddr) (words : Nat) :
    wordKeeps g w srcs dst s (commitWord s g (bitTokens w) (popsOf srcs) next words) := by
  obtain ⟨ha, hv, hs⟩ := commitBank_files (bankOf s g) g.stream s.cal.cycle (bitTokens w) (popsOf srcs) next words
  rw [commitWord_eq]
  exact wordKeeps_modBankOf (bankKeeps_commitBank ..) (scalarRegistersKeep_of_eq dst ha hv hs)

theorem wordKeeps_pushQ (s : State) (q : Fin 16) (p : Bool) (n : Nat) (es : List Entry) :
    wordKeeps g w srcs (.queue q p) s (modBankOf s g (fun k => pushQ k q n es)) :=
  wordKeeps_modBankOf (bankKeeps_pushQ ..) (scalarRegistersKeep_of_eq _ rfl rfl rfl)

theorem wordKeeps_setLc (s : State) {n : Fin 4} {m : Fin 8} (v : Word) (h : Fin.ofNat 4 m.val = n) :
    wordKeeps g w srcs (.mlc m) s (modBankOf s g (fun k => setLc k g.stream n v)) := by
  obtain ⟨ha, hv, hr⟩ := setLc_files (bankOf s g) g.stream n v
  exact wordKeeps_modBankOf (h ▸ bankKeeps_setLc ..) (scalarRegistersKeep_of_eq _ ha hv hr)

theorem wordKeeps_vec (s : State) {f : Bank → VecRegs}
    (hr : scalarRegistersKeep g (bankOf s g) { bankOf s g with vec := f (bankOf s g) } dst) :
    wordKeeps g w srcs dst s (modBankOf s g (fun k => { k with vec := f k })) :=
  wordKeeps_modBankOf (bankKeeps_files _ w _ _ _ (fun _ _ _ => rfl) (fun _ => rfl)) hr

theorem wordKeeps_setA (s : State) (n : Fin 32) (v : Word) (hx : g.stream ≠ .x) :
    wordKeeps g w srcs (.reg n) s (modBankOf s g (fun k => setA k g.stream n v)) := by
  refine wordKeeps_modBankOf ?_ (scalarRegistersKeep_setA _ v hx)
  unfold setA
  cases g.stream <;> exact bankKeeps_files _ w _ _ _ (fun _ _ _ => rfl) (fun _ => rfl)

/-- A scalar result changes its destination alone. -/
theorem wordKeeps_writeScalar (s : State) (dst : Operand) (v : Word) :
    wordKeeps g w srcs dst s (writeScalar s g dst v) := by
  have hsame : wordKeeps g w srcs dst s (modBankOf s g (fun k => k)) :=
    wordKeeps_modBankOf (bankKeeps_refl _) (scalarRegistersKeep_of_eq _ rfl rfl rfl)
  obtain ⟨c, b, t⟩ := g
  cases dst with
  | reg n => cases t with
    | x => exact wordKeeps_vec s (scalarRegistersKeep_setV _ _ rfl)
    | l => exact wordKeeps_setA s n v nofun
    | s => exact wordKeeps_setA s n v nofun
  | mlc n => cases t with
    | x => exact hsame
    | l => exact wordKeeps_setLc s v rfl
    | s => exact wordKeeps_setLc s v rfl
  | age n => exact wordKeeps_vec s (scalarRegistersKeep_agePush ..)
  | queue q p => exact wordKeeps_pushQ ..
  | _ => exact hsame

/-- Around its effect a word that is ready begins its wait and commits, which its frame allows. -/
theorem wordKeeps_commits {perLane : Bool} (hr : ready w perLane s = true)
    (ht : wordKeeps s.cur w srcs dst (begun s w.wait) t) (next : Option VAddr) :
    wordKeeps s.cur w srcs dst s (commits w s t srcs next) :=
  wordKeeps_trans (wordKeeps_trans (wordKeeps_begun (ready_passes hr)) ht) (wordKeeps_commitWord t next 1)

/-- The outcome of a word that completes within its frame. -/
def Framed (r : Out) (w : WordF) (srcs : List Operand) (dst : Operand) (s : State) : Prop :=
  ∃ t, r = .next t ∧ wordKeeps s.cur w srcs dst s t

section

variable {perLane : Bool} {next : Option VAddr} {body : State → Agent → Res Done} (hr : ready w perLane s = true)

include hr

/-- A word that is ready and whose effect leaves its bank's task commits that effect. -/
theorem runWord_commits (hb : body (begun s w.wait) s.cur = .ok (.commit t (popsOf srcs) next))
    (ht : (bankOf t s.cur).task = (bankOf (begun s w.wait) s.cur).task) :
    runWord w perLane body s = .next (commits w s t srcs next) := by
  rw [runWord_ready hr, hb, finishWord_commit (ht ▸ ready_task hr), commits]

/-- A word that is ready and whose effect lies within its frame completes within its frame. -/
theorem runWord_framed (hb : body (begun s w.wait) s.cur = .ok (.commit t (popsOf srcs) next))
    (ht : wordKeeps s.cur w srcs dst (begun s w.wait) t) : Framed (runWord w perLane body s) w srcs dst s :=
  ⟨_, runWord_commits hr hb ht.2.1.1, wordKeeps_commits hr ht next⟩

end

end

end Sys2Proof.Machine
end

section
/-! The frame of the scalar forms (R33, R103). -/

namespace Sys2Proof.Machine

open Sys2Proof Sys2Proof.Claims

/-- A form with one scalar result that goes on to its effect completes within its frame. -/
theorem Framed.of_scalarReady {w : WordF} {srcs : List Operand} {s : State} (h : scalarReady w srcs s = true)
    (f : State → Agent → Word) : Framed (scalarForm w srcs f s) w srcs w.dst s := by
  rw [scalarReady, Bool.and_eq_true] at h
  obtain ⟨hr, hs⟩ := h
  exact ⟨_, scalarForm_ready hr hs, wordKeeps_commits hr (wordKeeps_writeScalar ..) none⟩

theorem exec_oneSource (w : WordF) (s : State) : ∀ p ∈ oneSource, ∃ f, exec (p.1 w) s = unForm w f s := by
  simp only [oneSource, List.forall_mem_cons, List.not_mem_nil, false_imp_iff, implies_true, and_true]
  refine ⟨?_, ?_, ?_⟩ <;> dsimp only [exec] <;> exact ⟨_, rfl⟩

theorem exec_twoSources (w : WordF) (s : State) : ∀ p ∈ twoSources, ∃ f, exec (p.1 w) s = binForm w f s := by
  simp only [twoSources, List.forall_mem_cons, List.not_mem_nil, false_imp_iff, implies_true, and_true]
  refine ⟨?_, ?_, ?_, ?_, ?_, ?_, ?_, ?_, ?_, ?_, ?_, ?_, ?_, ?_, ?_, ?_, ?_⟩ <;> dsimp only [exec] <;> exact ⟨_, rfl⟩

theorem exec_threeSources (w : WordF) (s : State) : ∀ p ∈ threeSources, ∃ f, exec (p.1 w) s = triForm w f s := by
  simp only [threeSources, List.forall_mem_cons, List.not_mem_nil, false_imp_iff, implies_true, and_true]
  refine ⟨?_, ?_, ?_⟩ <;> dsimp only [exec] <;> exact ⟨_, rfl⟩

end Sys2Proof.Machine

namespace Sys2Proof.Package

open Sys2Proof.Machine Sys2Proof.Claims

/-- Settles O45: every form of the three tables is a scalar form, and a scalar form keeps its frame. -/
theorem scalarFrame : Obligations.ScalarFrame := by
  intro w s p hp hready
  simp only [List.mem_append, List.mem_map] at hp
  obtain (⟨q, hq, rfl⟩ | ⟨q, hq, rfl⟩) | ⟨q, hq, rfl⟩ := hp
  · obtain ⟨f, hf⟩ := exec_oneSource w s q hq
    exact hf ▸ Framed.of_scalarReady hready _
  · obtain ⟨f, hf⟩ := exec_twoSources w s q hq
    exact hf ▸ Framed.of_scalarReady hready _
  · obtain ⟨f, hf⟩ := exec_threeSources w s q hq
    exact hf ▸ Framed.of_scalarReady hready _

end Sys2Proof.Package
end

section
/-! The frame of the control words, of the words of special registers and counters, and of the queue words (R33, R100, R101,
R104 to R106, R108, R109, R303). -/

namespace Sys2Proof.Machine

open Sys2Proof Sys2Proof.Claims

section

variable {w : WordF} {srcs : List Operand} {s : State}

theorem branchTaken_scalar {g : Stream} (hg : g ≠ .x) (m : BitVec 4) (a : Word) :
    branchTaken g m a = bcCond (m.toNat % 8) a := by
  have hm : m.toNat % 8 < 8 := Nat.mod_lt _ (by decide)
  cases g with
  | x => exact absurd rfl hg
  | l | s =>
    simp only [branchTaken]
    generalize m.toNat % 8 = n at hm
    interval_cases n <;> rw [Bool.eq_iff_iff] <;> simp [bcCond, BitVec.slt]

theorem branchTaken_vector (m : BitVec 4) (a : Word) : branchTaken .x m a = bcMask (m.toNat % 4) a := by
  have hm : m.toNat % 4 < 4 := Nat.mod_lt _ (by decide)
  simp only [branchTaken]
  generalize m.toNat % 4 = n at hm
  interval_cases n <;> rw [Bool.eq_iff_iff] <;> simp [bcMask]

/-- The condition of BC, as the statements and as the model write it. -/
theorem branchTaken_eq (g : Stream) (w : WordF) (a : Word) :
    branchTaken g w.mod a = if g = .x then bcMask (w.mod.toNat % 4) a else bcCond (mod3 w) a := by
  split
  · next h => rw [h, branchTaken_vector]
  · next h => exact branchTaken_scalar h w.mod a

theorem wordKeeps_setLink (s : State) {g : Agent} (v : Word) : wordKeeps g w srcs (.reg 31) s (setLink s g v) := by
  obtain ⟨c, b, t⟩ := g
  cases t with
  | x => exact wordKeeps_vec s (scalarRegistersKeep_setV _ _ rfl)
  | l => exact wordKeeps_setA s 31 v nofun
  | s => exact wordKeeps_setA s 31 v nofun

theorem wordKeeps_putLc (s : State) {g : Agent} (n : Fin 4) (v : Word) :
    wordKeeps g w srcs (.mlc (Fin.castLE (by omega) n)) s (putLc s g n v) :=
  wordKeeps_setLc s v (Fin.ext (Nat.mod_eq_of_lt n.isLt))

theorem branchTarget_ok {o : Operand} (h : inRange (target s w o) = true) :
    ∃ pc, branchTarget (begun s w.wait) s.cur o = .ok pc := by
  rw [inRange, Bool.and_eq_true, decide_eq_true_iff, decide_eq_true_iff] at h
  exact ⟨_, if_pos h⟩

/-- R104: an address that a jump may take. -/
def lands (a : Word) : Bool := a.toNat % 16 == 0 && a.toNat < 2 ^ 52

theorem checkTarget_ok {a : Word} (h : lands a = true) (t : State) : checkTarget t a = .ok (a.setWidth 52) := by
  rw [lands, Bool.and_eq_true, beq_iff_eq, decide_eq_true_iff] at h
  obtain ⟨h16, h52⟩ := h
  rw [checkTarget, if_neg (not_not.mpr h16), if_neg (not_le.mpr h52)]

variable (hr : ready w false s = true)

include hr

theorem nop_framed : Framed (exec (.nop w) s) w [] (.short 0) s := by
  dsimp only [exec]
  exact runWord_framed (srcs := []) hr rfl (wordKeeps_refl _)

theorem br_framed (h : inRange (target s w w.srcA) = true) : Framed (exec (.br w) s) w [] (.short 0) s := by
  obtain ⟨pc, hpc⟩ := branchTarget_ok h
  dsimp only [exec]
  exact runWord_framed (srcs := []) hr (by simp only [hpc]; rfl) (wordKeeps_refl _)

theorem call_framed (h : inRange (target s w w.srcA) = true) : Framed (exec (.call w) s) w [] (.reg 31) s := by
  obtain ⟨pc, hpc⟩ := branchTarget_ok h
  dsimp only [exec]
  exact runWord_framed (srcs := []) hr (by simp only [hpc]; rfl) (wordKeeps_setLink ..)

theorem lbrk_framed (h : inRange (target s w w.srcA) = true) :
    Framed (exec (.lbrk w) s) w [] (.mlc (Fin.castLE (by omega) (lcNo w))) s := by
  obtain ⟨pc, hpc⟩ := branchTarget_ok h
  dsimp only [exec]
  exact runWord_framed (srcs := []) hr (by simp only [hpc]; rfl) (wordKeeps_putLc ..)

theorem loopSet_framed (h : sourcesOk (begun s w.wait) s.cur [w.srcA] [] = true) :
    Framed (exec (.loopSet w) s) w [w.srcA] (.mlc (Fin.castLE (by omega) (lcNo w))) s := by
  dsimp only [exec]
  exact runWord_framed hr (by simp only [takeSources_ok h]; rfl) (wordKeeps_putLc ..)

theorem loop_framed (hb : (regsOf (begun s w.wait) s.cur).badLc.getLsbD (lcNo w).val = false)
    (h : ((regsOf (begun s w.wait) s.cur).lc.get (lcNo w)).toNat ≤ 1 ∨ inRange (target s w w.srcA) = true) :
    Framed (exec (.loop w) s) w [] (.mlc (Fin.castLE (by omega) (lcNo w))) s := by
  dsimp only [exec]
  by_cases h1 : 1 < ((regsOf (begun s w.wait) s.cur).lc.get (lcNo w)).toNat
  · obtain ⟨pc, hpc⟩ := branchTarget_ok (h.resolve_left (not_le.mpr h1))
    exact runWord_framed (srcs := []) hr (by simp only [hb, h1, hpc]; rfl) (wordKeeps_putLc ..)
  · exact runWord_framed (srcs := []) hr (by simp only [hb, h1]; rfl) (wordKeeps_putLc ..)

theorem bc_framed (h : sourcesOk (begun s w.wait) s.cur [w.srcA] [] = true)
    (ht : branchTaken s.cur.stream w.mod (scal (begun s w.wait) s.cur w [w.srcA] 0) = false
      ∨ inRange (target s w w.srcB) = true) :
    Framed (exec (.bc w) s) w [w.srcA] (.short 0) s := by
  dsimp only [exec]
  cases hc : branchTaken s.cur.stream w.mod (scal (begun s w.wait) s.cur w [w.srcA] 0) with
  | true =>
    obtain ⟨pc, hpc⟩ := branchTarget_ok (ht.resolve_left (ne_of_eq_of_ne hc Bool.true_eq_false.mp))
    rw [branchTaken_eq] at hc
    exact runWord_framed hr (by simp only [takeSources_ok h, hpc, hc]; rfl) (wordKeeps_refl _)
  | false =>
    rw [branchTaken_eq] at hc
    exact runWord_framed hr (by simp only [takeSources_ok h, hc]; rfl) (wordKeeps_refl _)

theorem ret_framed (h : sourcesOk (begun s w.wait) s.cur [.reg 31] [] = true)
    (hl : lands (scal (begun s w.wait) s.cur w [.reg 31] 0) = true) :
    Framed (exec (.ret w) s) w [] (.short 0) s := by
  dsimp only [exec]
  exact runWord_framed (srcs := []) hr (by simp only [takeSources_ok h, checkTarget_ok hl]; rfl) (wordKeeps_refl _)

theorem bri_framed (h : sourcesOk (begun s w.wait) s.cur [w.srcA] [] = true)
    (hl : lands (scal (begun s w.wait) s.cur w [w.srcA] 0) = true) :
    Framed (exec (.bri w) s) w [w.srcA] (.short 0) s := by
  dsimp only [exec]
  exact runWord_framed hr (by simp only [takeSources_ok h, checkTarget_ok hl]; rfl) (wordKeeps_refl _)

theorem waittl_framed (h : sourcesOk (begun s w.wait) s.cur [w.srcB] [] = true)
    (hv : (scal (begun s w.wait) s.cur w [w.srcB] 0).toNat
      ≤ (tlValue (begun s w.wait) s.cur.core s.cur.bank (tlNo w.srcA)).toNat) :
    Framed (exec (.waittl w) s) w [w.srcB] (.short 0) s := by
  dsimp only [exec]
  exact runWord_framed hr (by simp only [takeSources_ok h]; rw [if_neg (not_lt.mpr hv)]; rfl) (wordKeeps_refl _)

theorem gets_framed (h : sourcesOk (begun s w.wait) s.cur [] (dstPush w.dst) = true)
    (hb : sregBad (bankOf (begun s w.wait) s.cur).sregs (sregOf w) = false) :
    Framed (exec (.gets w) s) w [] w.dst s := by
  dsimp only [exec]
  exact runWord_framed (srcs := []) hr (by simp only [takeSources_ok h, hb]; rfl) (wordKeeps_writeScalar ..)

theorem tlget_framed (h : sourcesOk (begun s w.wait) s.cur [] (dstPush w.dst) = true) :
    Framed (exec (.tlget w) s) w [] w.dst s := by
  dsimp only [exec]
  exact runWord_framed (srcs := []) hr (by simp only [takeSources_ok h]; rfl) (wordKeeps_writeScalar ..)

theorem scalarForm_framed (h : sourcesOk (begun s w.wait) s.cur srcs (dstPush w.dst) = true) (f : State → Agent → Word) :
    Framed (scalarForm w srcs f s) w srcs w.dst s :=
  Framed.of_scalarReady (Bool.and_eq_true_iff.mpr ⟨hr, h⟩) f

theorem cyc_framed (h : sourcesOk (begun s w.wait) s.cur [] (dstPush w.dst) = true) :
    Framed (exec (.cyc w) s) w [] w.dst s := by
  dsimp only [exec]
  exact scalarForm_framed hr h _

theorem perf_framed (h : sourcesOk (begun s w.wait) s.cur [] (dstPush w.dst) = true) :
    Framed (exec (.perf w) s) w [] w.dst s := by
  dsimp only [exec]
  exact scalarForm_framed hr h _

theorem tuneq_framed (h : sourcesOk (begun s w.wait) s.cur [] (dstPush w.dst) = true) :
    Framed (exec (.tuneq w) s) w [] w.dst s := by
  dsimp only [exec]
  exact scalarForm_framed hr h _

theorem qpush_framed (h : sourcesOk (begun s w.wait) s.cur [w.srcA] [(queueNo w.dst, mod3 w + 1)] = true) :
    Framed (exec (.qpush w) s) w [w.srcA] (.queue (queueNo w.dst) false) s := by
  dsimp only [exec]
  exact runWord_framed hr (by simp only [takeSources_ok h]; rfl) (wordKeeps_pushQ ..)

/-- R106: a try finds its queue empty and takes srcB in its place. -/
def findsEmpty (w : WordF) (s : State) : Bool :=
  let k := bankOf (begun s w.wait) s.cur
  let q := queueNo w.srcA
  w.mod.getLsbD 0 && queueReader q == s.cur.stream && !boundFor k q s.cur.stream
    && (k.q.get q).seen (now (begun s w.wait)) == 0

theorem takeForm_framed {o : Operand} (he : (if findsEmpty w s then [w.srcB] else [o]) = srcs)
    (h : sourcesOk (begun s w.wait) s.cur srcs (dstPush w.dst) = true) : Framed (takeForm w o s) w srcs w.dst s := by
  simp only [findsEmpty, Bool.and_assoc, beq_eq_decide (α := Nat)] at he
  refine runWord_framed (next := none) hr ?_ (wordKeeps_writeScalar _ _ (scal (begun s w.wait) s.cur w srcs 0))
  simp only [Bool.and_assoc, he, takeSources_ok h]
  rfl

theorem qlen_framed (h : sourcesOk (begun s w.wait) s.cur [] (dstPush w.dst) = true)
    (hq : queueReader (queueNo w.srcA) = s.cur.stream ∨ queueWriter (queueNo w.srcA) = s.cur.stream) :
    Framed (exec (.qlen w) s) w [] w.dst s := by
  dsimp only [exec]
  by_cases h1 : queueReader (queueNo w.srcA) = s.cur.stream
  · exact runWord_framed (srcs := []) hr (by simp only [takeSources_ok h, h1]; rfl) (wordKeeps_writeScalar ..)
  · exact runWord_framed (srcs := []) hr (by simp only [takeSources_ok h, h1, hq.resolve_left h1]; rfl)
      (wordKeeps_writeScalar ..)

end

/-! ### Special registers and the wait table -/

theorem getLsbD_clear {m : Nat} (x : BitVec m) {n i : Nat} (h : i ≠ n) :
    (x &&& ~~~((1 : BitVec m) <<< n)).getLsbD i = x.getLsbD i := by
  by_cases hi : i < m
  · have hb : ((1 : BitVec m) <<< n).getLsbD i = false := by
      rw [BitVec.getLsbD_shiftLeft]
      by_cases hn : i < n
      · simp [hn]
      · simp [hn, Nat.sub_ne_zero_of_lt (lt_of_le_of_ne (not_lt.mp hn) h.symm)]
    rw [BitVec.getLsbD_and, BitVec.getLsbD_not, hb]
    simp [hi]
  · simp [BitVec.getLsbD_of_ge _ _ (not_lt.mp hi)]

theorem ofCode_num (r : SReg) : SReg.ofCode (BitVec.ofNat 8 r.num) = some r := by cases r <;> rfl

theorem SReg.num_injective : Function.Injective SReg.num := fun a b h =>
  Option.some.inj ((ofCode_num a).symm.trans ((congrArg (fun n => SReg.ofCode (BitVec.ofNat 8 n)) h).trans (ofCode_num b)))

theorem writeSreg_bad (x : BankSregs) (q : SReg) (n : Nat) (v : Word) :
    (writeSreg x q n v).bad = x.bad &&& ~~~((1 : BitVec 64) <<< q.num) := by cases q <;> rfl

theorem sregBad_writeSreg (x : BankSregs) {q r : SReg} (n : Nat) (v : Word) (h : r ≠ q) :
    sregBad (writeSreg x q n v) r = sregBad x r := by
  rw [sregBad, writeSreg_bad, getLsbD_clear _ (fun hn => h (SReg.num_injective hn)), sregBad]

/-- What a read of a special register finds in the bank's own fields of them. -/
def sregFields (x : BankSregs) : SReg → List Nat
  | .slipw => [x.slipw.toNat, x.slipOld.toNat, x.slipAt]
  | .fpstat => [x.fpstat.toNat]
  | .mstat => [x.mstat.toNat]
  | .srseed => [x.srseed.toNat]
  | .xsrpos => [x.xsrpos.toNat]
  | .msrpos => [x.msrpos.toNat]
  | _ => []

theorem sregFields_writeSreg (x : BankSregs) {q r : SReg} (n : Nat) (v : Word) (h : r ≠ q) :
    sregFields (writeSreg x q n v) r = sregFields x r := by
  cases r with
  | slipw | fpstat | mstat | srseed | xsrpos | msrpos => cases q <;> first | rfl | exact absurd rfl h
  | _ => rfl

theorem accres_modBank (s : State) (c : CoreId) (b : BankId) (f : Bank → Bank) :
    (getCore (modBank s c b f) c).accres = (getCore s c).accres := by
  cases b <;> simp [modBank, setBank, Core.setBank]

/-- A special register reads as before where its fields, the task and all beside the bank are as before. -/
theorem readSreg_congr {s t : State} {g : Agent} {r : SReg} (ho : onlyItsBank s t g)
    (ht : (bankOf t g).task = (bankOf s g).task)
    (hr : sregFields (bankOf t g).sregs r = sregFields (bankOf s g).sregs r) : readSreg t g r = readSreg s g r := by
  have hcal : t.cal = s.cal := ho ▸ rfl
  have hctxs : t.ctxs = s.ctxs := ho ▸ rfl
  have hacc : (getCore t g.core).accres = (getCore s g.core).accres := ho ▸ accres_modBank ..
  cases r with
  | slipw | fpstat | mstat | srseed | xsrpos | msrpos =>
    simp only [sregFields, List.cons.injEq, BitVec.toNat_inj, and_true] at hr
    simp only [readSreg, hcal, hr]
  | _ => simp only [readSreg, bankCtx, getCtx, ht, hctxs, hacc]

section

variable {g : Agent} {w : WordF} {srcs : List Operand} {dst : Operand} {k k' : Bank}

theorem scalarRegistersKeep_sregs (h : scalarRegistersKeep g k k' dst) (r : BankSregs) :
    scalarRegistersKeep g { k with sregs := r } { k' with sregs := r } dst := by
  obtain ⟨-, ha, hv, hh, hm⟩ := h
  refine ⟨rfl, fun t n ht hd => ?_, hv, hh, hm⟩
  have := ha t n ht hd
  cases t <;> exact this

theorem bankKeeps_waitTable (h : bankKeeps g k k' w srcs dst) (wt : Vector WtEntry 8) (bad : BitVec 8) :
    bankKeeps g (k.modRegs g.stream (fun r => { r with wt := wt, badWt := bad }))
      (k'.modRegs g.stream (fun r => { r with wt := wt, badWt := bad })) w srcs dst := by
  obtain ⟨c, b, t⟩ := g
  obtain ⟨task, eng, pk, others, -, nb, last, -, perf, lc, q, tk, deferred, suspended⟩ := h
  have hothers : ∀ x y u, u ≠ t → (k'.setRegs t y).st u = (k.setRegs t x).st u
      ∧ (k'.setRegs t y).regs u = (k.setRegs t x).regs u := fun x y u hu => by
    rw [st_setRegs, st_setRegs, regs_setRegs_ne _ _ hu, regs_setRegs_ne _ _ hu]
    exact others u hu
  cases t <;> exact ⟨task, eng, pk, hothers _ _, rfl, nb, last, rfl, perf, lc, q, tk, deferred, suspended⟩

end

/-- SETS changes its special register within the frame of its bank. -/
theorem sets_framed {w : WordF} {s : State} (hr : ready w false s = true)
    (h : sourcesOk (begun s w.wait) s.cur [w.srcB] [] = true) (hw : SReg.writable (sregOf w) = true) :
    ∃ t, exec (.sets w) s = .next t ∧ onlyItsBank s t s.cur
      ∧ bankKeeps s.cur (bankOf s s.cur) (bankOf t s.cur) w [w.srcB] (.short 0)
      ∧ scalarRegistersKeep s.cur { bankOf s s.cur with sregs := (bankOf t s.cur).sregs } (bankOf t s.cur) (.short 0)
      ∧ ∀ r, r ≠ sregOf w → readSreg t s.cur r = readSreg s s.cur r
        ∧ sregBad (bankOf t s.cur).sregs r = sregBad (bankOf s s.cur).sregs r := by
  let s1 := begun s w.wait
  let v := scal s1 s.cur w [w.srcB] 0
  let f (k : Bank) : Bank := { k with sregs := writeSreg k.sregs (sregOf w) s1.cal.cycle v }
  let t := modBankOf s1 s.cur f
  have hexec : exec (.sets w) s = .next (commits w s t [w.srcB] none) := by
    dsimp only [exec]
    exact runWord_commits hr (by simp only [takeSources_ok h, hw]; rfl) (modBankOf_task fun _ => rfl)
  obtain ⟨ho1, hb1, hk1⟩ := wordKeeps_begun (w := w) (srcs := [w.srcB]) (dst := .short 0) (ready_passes hr)
  obtain ⟨ho3, hb3, hk3⟩ := wordKeeps_commitWord (g := s.cur) (w := w) (srcs := [w.srcB]) (dst := .short 0) t none 1
  have ht : bankOf t s.cur = f (bankOf s1 s.cur) := bankOf_modBankOf ..
  have hb2 : bankKeeps s.cur (bankOf s1 s.cur) (bankOf t s.cur) w [w.srcB] (.short 0) :=
    ht ▸ bankKeeps_files _ w _ _ _ (fun _ _ _ => rfl) (fun _ => rfl)
  have ho := onlyItsBank_trans ho1 (onlyItsBank_trans (onlyItsBank_modBankOf s1 s.cur f) ho3)
  have hb := bankKeeps_trans hb1 (bankKeeps_trans hb2 hb3)
  have hsregs : (bankOf (commits w s t [w.srcB] none) s.cur).sregs
      = writeSreg (bankOf s s.cur).sregs (sregOf w) s1.cal.cycle v := by
    rw [commits, hk3.1, ht, ← hk1.1]
  refine ⟨_, hexec, ho, hb, ?_, fun r hne => ⟨readSreg_congr ho hb.1 ?_, ?_⟩⟩
  · refine scalarRegistersKeep_trans (scalarRegistersKeep_sregs hk1 _) ?_
    rw [hsregs, ← hk1.1]
    rw [ht] at hk3
    exact hk3
  · rw [hsregs, sregFields_writeSreg _ _ _ hne]
  · rw [hsregs, sregBad_writeSreg _ _ _ hne]

/-- SETWT changes its entry of the wait table within the frame of its bank. -/
theorem setwt_framed {w : WordF} {s : State} (hr : ready w false s = true)
    (h : sourcesOk (begun s w.wait) s.cur [w.srcB] [] = true) :
    ∃ t, exec (.setwt w) s = .next t ∧ onlyItsBank s t s.cur
      ∧ bankKeeps s.cur ((bankOf s s.cur).modRegs s.cur.stream (fun r => { r with
          wt := (regsOf t s.cur).wt, badWt := (regsOf t s.cur).badWt })) (bankOf t s.cur) w [w.srcB] (.short 0)
      ∧ scalarRegistersKeep s.cur (bankOf s s.cur) (bankOf t s.cur) (.short 0)
      ∧ ∀ i : Fin 8, i ≠ Fin.ofNat 8 (mod3 w) → (regsOf t s.cur).wt.get i = (regsOf s s.cur).wt.get i
        ∧ (regsOf t s.cur).badWt.getLsbD i.val = (regsOf s s.cur).badWt.getLsbD i.val := by
  let s1 := begun s w.wait
  let e : WtEntry := { ctr := BitVec.ofNat 5 (Tl.id (tlNo w.srcA)), target := scal s1 s.cur w [w.srcB] 0 }
  let n : Fin 8 := Fin.ofNat 8 (mod3 w)
  let wt := vset (regsOf s1 s.cur).wt n e
  let bad := (regsOf s1 s.cur).badWt &&& ~~~((1 : BitVec 8) <<< n.val)
  let t := modRegsOf s1 s.cur (fun r => { r with wt := vset r.wt n e, badWt := r.badWt &&& ~~~((1 : BitVec 8) <<< n.val) })
  have hexec : exec (.setwt w) s = .next (commits w s t [w.srcB] none) := by
    dsimp only [exec]
    exact runWord_commits hr (by simp only [takeSources_ok h]; rfl) (modBankOf_task fun _ => modRegs_task ..)
  obtain ⟨ho1, hb1, hk1⟩ := wordKeeps_begun (w := w) (srcs := [w.srcB]) (dst := .short 0) (ready_passes hr)
  obtain ⟨ho3, hb3, hk3⟩ := wordKeeps_commitWord (g := s.cur) (w := w) (srcs := [w.srcB]) (dst := .short 0) t none 1
  have ht : bankOf t s.cur = (bankOf s1 s.cur).modRegs s.cur.stream (fun r => { r with wt := wt, badWt := bad }) :=
    bankOf_modBankOf ..
  have htr : (bankOf t s.cur).regs s.cur.stream = { regsOf s1 s.cur with wt := wt, badWt := bad } := by
    rw [ht]
    exact regs_setRegs ..
  have ⟨_, _, _, _, hwt1, _, _, hbad1, _⟩ := hb1
  have ⟨_, _, _, _, hwt3, _, _, hbad3, _⟩ := hb3
  have hwt : (regsOf (commits w s t [w.srcB] none) s.cur).wt = wt := hwt3.trans (congrArg StreamRegs.wt htr)
  have hbad : (regsOf (commits w s t [w.srcB] none) s.cur).badWt = bad := hbad3.trans (congrArg StreamRegs.badWt htr)
  have hk2 : scalarRegistersKeep s.cur (bankOf s1 s.cur) (bankOf t s.cur) (.short 0) := by
    rw [ht]
    apply scalarRegistersKeep_of_eq <;> cases s.cur.stream <;> rfl
  refine ⟨_, hexec, onlyItsBank_trans ho1 (onlyItsBank_trans (onlyItsBank_modBankOf ..) ho3), ?_,
    scalarRegistersKeep_trans hk1 (scalarRegistersKeep_trans hk2 hk3), fun i hi => ⟨?_, ?_⟩⟩
  · rw [hwt, hbad]
    exact bankKeeps_trans (bankKeeps_waitTable hb1 wt bad) (ht ▸ hb3)
  · rw [hwt, vset_get, if_neg hi.symm]
    exact congrArg (fun v => v.get i) hwt1
  · rw [hbad, getLsbD_clear _ (fun h => hi (Fin.ext h))]
    exact congrArg (fun v => v.getLsbD i.val) hbad1

end Sys2Proof.Machine

namespace Sys2Proof.Package

open Sys2Proof.Machine Sys2Proof.Claims

/-- Settles O47: each word's effect lies within its frame, and so do the wait before it and the commit after it. -/
theorem controlFrame : Obligations.ControlFrame := by
  intro w s hr
  refine ⟨?_, ?_⟩
  · simp only [List.forall_mem_cons, List.not_mem_nil, false_imp_iff, implies_true, and_true]
    refine ⟨fun _ => nop_framed hr, br_framed hr, call_framed hr, lbrk_framed hr, loopSet_framed hr, fun h => ?loop,
      fun h => ?bc, fun h => ?ret, fun h => ?bri, fun h => ?waittl, fun h => ?gets, cyc_framed hr,
      perf_framed hr, tlget_framed hr, tuneq_framed hr, qpush_framed hr,
      fun h => ?qpop, fun h => ?qpopEmpty, fun h => ?qpeek, fun h => ?qpeekEmpty, fun h => ?qlen⟩
    all_goals obtain ⟨h1, h2⟩ := Bool.and_eq_true_iff.mp h
    case qlen => exact qlen_framed hr h1 ((Bool.or_eq_true_iff.mp h2).imp eq_of_beq eq_of_beq)
    case loop =>
      exact loop_framed hr (Bool.not_eq_true' _ ▸ h1) ((Bool.or_eq_true_iff.mp h2).imp_left of_decide_eq_true)
    case bc => exact bc_framed hr h1 ((Bool.or_eq_true_iff.mp h2).imp_left (Bool.not_eq_true' _).mp)
    case ret => exact ret_framed hr h1 h2
    case bri => exact bri_framed hr h1 h2
    case waittl => exact waittl_framed hr h1 (of_decide_eq_true h2)
    case gets => exact gets_framed hr h1 ((Bool.not_eq_true' _).mp h2)
    all_goals dsimp only [exec]
    case qpop => exact takeForm_framed hr (if_neg (Bool.eq_false_iff.mp ((Bool.not_eq_true' _).mp h1))) h2
    case qpopEmpty => exact takeForm_framed hr (if_pos h1) h2
    case qpeek => exact takeForm_framed hr (if_neg (Bool.eq_false_iff.mp ((Bool.not_eq_true' _).mp h1))) h2
    case qpeekEmpty => exact takeForm_framed hr (if_pos h1) h2
  · exact fun h => ⟨sets_framed hr h, setwt_framed hr h⟩

end Sys2Proof.Package
end

section
/-! The frame of the element-wise vector forms (R33, R37, R112, R116, R117, R119 to R122). -/

namespace Sys2Proof.Machine

open Sys2Proof Sys2Proof.Claims

/-! ### The bits that a lane mask selects -/

/-- A bit of a vector is one of its element's. -/
theorem ofElems_testBit (n : Nat) (es : List Nat) (j : Nat) {i : Nat} (hi : i < n) :
    (ofElems n es).testBit (n * j + i) = ((es[j]?).getD 0).testBit i := by
  induction es generalizing j with
  | nil => simp [ofElems]
  | cons e es ih =>
    rw [ofElems, Nat.add_comm, Nat.testBit_two_pow_mul_add _ (Nat.mod_lt _ (Nat.two_pow_pos n))]
    cases j with
    | zero => simp [hi]
    | succ j =>
      rw [if_neg (by rw [Nat.mul_succ]; omega), show n * (j + 1) + i - n = n * j + i by rw [Nat.mul_succ]; omega, ih]
      simp

/-- R112: bit i of lane j is selected as the mask's bit of the lane says. -/
theorem selBits_getLsbD (n : Nat) (m : Word) (j : Fin 64) (i : Fin 32) :
    (selBits n m).getLsbD (32 * j.val + i.val) = m.getLsbD (if n = 64 then j.val / 2 * 2 else j.val) := by
  have hb : 32 * j.val + i.val < 2048 := by omega
  rw [selBits, vecOf, BitVec.getLsbD_ofNat, ofElems_testBit 32 _ _ i.isLt]
  simp only [hb, decide_true, Bool.true_and, List.getElem?_map, List.getElem?_range j.isLt, Option.map_some, Option.getD_some]
  cases m.getLsbD (if n = 64 then j.val / 2 * 2 else j.val) with
  | false => simp
  | true => exact (Nat.testBit_two_pow_sub_one 32 i).trans (decide_eq_true i.isLt)

/-! ### A vector result -/

section

variable {g : Agent} {w : WordF} {srcs : List Operand} {s : State}

theorem writeVec_onlyItsBank (s : State) (o : Operand) (sel v : Vec) : onlyItsBank s (writeVec s g o sel v) g :=
  onlyItsBank_modBankOf ..

theorem writeVec_bankKeeps (s : State) (o : Operand) (sel v : Vec) :
    bankKeeps g (bankOf s g) (bankOf (writeVec s g o sel v) g) w srcs o := by
  have hvec : ∀ (k : Bank) (r : VecRegs), bankKeeps g k { k with vec := r } w srcs o := fun k r =>
    bankKeeps_files k w k.a r k.sregs (fun _ _ _ => rfl) (fun _ => rfl)
  rw [writeVec, bankOf_modBankOf]
  cases o with
  | reg n => exact hvec ..
  | age n => exact hvec ..
  | queue q p => exact bankKeeps_pushQ ..
  | _ => exact bankKeeps_refl _

theorem setV_getLsbD (k : Bank) (n : Fin 32) (sel v : Vec) {b : Nat} (hb : b < 2048) (hs : sel.getLsbD b = false) :
    ((setV k n ((v &&& sel) ||| (k.vec.v.get n &&& ~~~sel))).vec.v.get n).getLsbD b = (k.vec.v.get n).getLsbD b := by
  rw [setV, vset_get_self, BitVec.getLsbD_or, BitVec.getLsbD_and, BitVec.getLsbD_and, BitVec.getLsbD_not, hs]
  simp only [hb, Bool.and_false, Bool.false_or, Bool.not_false, decide_true, Bool.and_true]

/-- A vector result changes vector registers alone, of its destination the selected bits alone. -/
theorem writeVec_registers (s : State) (o : Operand) (sel v : Vec) :
    let k := bankOf s g
    let k' := bankOf (writeVec s g o sel v) g
    k'.a = k.a ∧ k'.sregs = k.sregs ∧ k'.vec.m = k.vec.m ∧ (∀ n, o ≠ .reg n → k'.vec.v.get n = k.vec.v.get n)
      ∧ (∀ n b, o = .reg n → b < 2048 → sel.getLsbD b = false → (k'.vec.v.get n).getLsbD b = (k.vec.v.get n).getLsbD b)
      ∧ ((∀ n, o ≠ .age n) → k'.vec.h = k.vec.h) := by
  intro k k'
  have hk' : k' = _ := (congrArg (bankOf · g) (writeVec.eq_def s g o sel v)).trans (bankOf_modBankOf ..)
  clear_value k'
  subst hk'
  cases o with
  | reg m =>
    refine ⟨rfl, rfl, rfl, fun n hn => ?_, fun n b hn hb hs => ?_, fun _ => rfl⟩
    · exact (vset_get ..).trans (if_neg (fun h => hn (congrArg Operand.reg h)))
    · cases hn
      exact setV_getLsbD _ m sel v hb hs
  | age m =>
    obtain ⟨hv, hm⟩ := agePush_files k.vec (v &&& sel)
    exact ⟨rfl, rfl, hm, fun n _ => congrArg (Vector.get · n) hv, nofun, fun h => (h m rfl).elim⟩
  | _ => exact ⟨rfl, rfl, rfl, fun _ _ => rfl, nofun, fun _ => rfl⟩

theorem setFp_bank (s : State) (f : Flagset) : bankOf (setFp s g f) g
    = { bankOf s g with sregs := { (bankOf s g).sregs with fpstat := (bankOf s g).sregs.fpstat ||| f.setWidth 64 } } :=
  bankOf_modBankOf ..

theorem putElems_onlyItsBank (s : State) (n : Nat) (rs : List (Nat × Flagset)) : onlyItsBank s (putElems s g w n rs) g :=
  onlyItsBank_trans (t := setFp s g (selFlags n (laneMask (bankOf s g) w) rs)) (onlyItsBank_modBankOf ..)
    (writeVec_onlyItsBank ..)

theorem putElems_bankKeeps (s : State) (n : Nat) (rs : List (Nat × Flagset)) :
    bankKeeps g (bankOf s g) (bankOf (putElems s g w n rs) g) w srcs w.dst := by
  refine bankKeeps_trans ?_ (writeVec_bankKeeps ..)
  rw [setFp_bank]
  exact bankKeeps_files _ w _ _ _ (fun _ _ _ => rfl) (fun _ => rfl)

theorem and_or_same (x y : Word) : x &&& (x ||| y) = x := by
  ext i
  simp only [BitVec.getElem_and, BitVec.getElem_or]
  cases x[i] <;> rfl

/-- The elements of a result change the selected lanes of its destination, and flags of FPSTAT are set. -/
theorem putElems_registers (s : State) (rs : List (Nat × Flagset)) :
    vectorRegistersKeep (bankOf s g) (bankOf (putElems s g w (EType.width w.etype) rs) g) w := by
  obtain ⟨ha, hr, hm, hv, hlanes, hh⟩ := writeVec_registers (g := g)
    (setFp s g (selFlags (EType.width w.etype) (laneMask (bankOf s g) w) rs)) w.dst
    (selBits (EType.width w.etype) (laneMask (bankOf s g) w)) (vecOf (EType.width w.etype) (rs.map (·.1)))
  rw [setFp_bank] at ha hr hm hv hlanes hh
  refine ⟨ha, hm, hv, fun n j i hn hl => hlanes n _ hn (by omega) ((selBits_getLsbD ..).trans hl), hh, ?_, ?_⟩
  · exact congrArg (fun r : BankSregs => { r with fpstat := (bankOf s g).sregs.fpstat }) hr
  · exact (congrArg (fun r : BankSregs => (bankOf s g).sregs.fpstat &&& r.fpstat) hr).trans (and_or_same ..)

theorem vectorRegistersKeep_congr {k k1 k2 k3 : Bank} (h : vectorRegistersKeep k1 k2 w)
    (h1 : k1.a = k.a ∧ k1.vec = k.vec ∧ k1.sregs = k.sregs) (h3 : k3.a = k2.a ∧ k3.vec = k2.vec ∧ k3.sregs = k2.sregs) :
    vectorRegistersKeep k k3 w := by
  obtain ⟨ha1, hv1, hr1⟩ := h1
  obtain ⟨ha3, hv3, hr3⟩ := h3
  simp only [vectorRegistersKeep, laneMask, ha1, hv1, hr1] at h
  simp only [vectorRegistersKeep, laneMask, ha3, hv3, hr3]
  exact h

/-- The wait of a word leaves the registers. -/
theorem begun_files {v : BitVec 6} (h : slipAndWaitPass s v false = true) :
    (bankOf (begun s v) s.cur).a = (bankOf s s.cur).a ∧ (bankOf (begun s v) s.cur).vec = (bankOf s s.cur).vec
      ∧ (bankOf (begun s v) s.cur).sregs = (bankOf s s.cur).sregs := by
  refine begun_induct (p := fun t => (bankOf t s.cur).a = (bankOf s s.cur).a ∧ (bankOf t s.cur).vec = (bankOf s s.cur).vec
    ∧ (bankOf t s.cur).sregs = (bankOf s s.cur).sregs) h ⟨rfl, rfl, rfl⟩ ?_
  rw [beginWait, modStOf, bankOf_modBankOf]
  cases s.cur.stream <;> exact ⟨rfl, rfl, rfl⟩

/-- The outcome of a word of X that completes within the frame of an element-wise form. -/
def VectorFramed (r : Out) (w : WordF) (srcs : List Operand) (s : State) : Prop :=
  ∃ t, r = .next t ∧ onlyItsBank s t s.cur ∧ bankKeeps s.cur (bankOf s s.cur) (bankOf t s.cur) w srcs w.dst
    ∧ vectorRegistersKeep (bankOf s s.cur) (bankOf t s.cur) w

theorem mapForm_commits {rounds : Bool} (h : vectorReady w srcs (dstPush w.dst) true s = true)
    (hm : (if rounds then srMarked (bankOf (begun s w.wait) s.cur).sregs w.mod.toNat else none) = none)
    (f : State → Agent → Nat → (Nat → Nat) → Nat × Flagset) :
    ∃ rs, mapForm w srcs f s rounds
      = .next (commits w s (putElems (begun s w.wait) s.cur w (EType.width w.etype) rs) srcs none) := by
  simp only [vectorReady, Bool.and_eq_true, Bool.not_eq_true'] at h
  obtain ⟨⟨hr, hd⟩, hs⟩ := h
  dsimp only [mapForm, runX]
  refine ⟨_, runWord_commits hr (by simp only [hd, hm, takeSources_ok hs]; rfl) ?_⟩
  exact (putElems_bankKeeps (w := w) (srcs := srcs) ..).1

/-- A form of X whose elements are functions of its sources' elements completes within its frame. -/
theorem mapForm_framed {rounds : Bool} (h : vectorReady w srcs (dstPush w.dst) true s = true)
    (hm : (if rounds then srMarked (bankOf (begun s w.wait) s.cur).sregs w.mod.toNat else none) = none)
    (f : State → Agent → Nat → (Nat → Nat) → Nat × Flagset) : VectorFramed (mapForm w srcs f s rounds) w srcs s := by
  obtain ⟨rs, hrs⟩ := mapForm_commits h hm f
  simp only [vectorReady, Bool.and_eq_true] at h
  have hp := ready_passes h.1.1
  let t := putElems (begun s w.wait) s.cur w (EType.width w.etype) rs
  obtain ⟨ho1, hb1, -⟩ := wordKeeps_begun (w := w) (srcs := srcs) (dst := w.dst) hp
  obtain ⟨ho3, hb3, -⟩ := wordKeeps_commitWord (g := s.cur) (w := w) (srcs := srcs) (dst := w.dst) t none 1
  have hk3 := commitBank_files (bankOf t s.cur) s.cur.stream t.cal.cycle (bitTokens w) (popsOf srcs) none 1
  refine ⟨_, hrs, onlyItsBank_trans ho1 (onlyItsBank_trans (putElems_onlyItsBank ..) ho3),
    bankKeeps_trans hb1 (bankKeeps_trans (putElems_bankKeeps ..) hb3),
    vectorRegistersKeep_congr (putElems_registers _ rs) (begun_files hp) ?_⟩
  rw [commits, commitWord_eq, bankOf_modBankOf]
  exact hk3

theorem mapForm_framed_of_roundReady (h : roundReady w srcs (dstPush w.dst) s = true)
    (f : State → Agent → Nat → (Nat → Nat) → Nat × Flagset) : VectorFramed (mapForm w srcs f s true) w srcs s := by
  rw [roundReady, Bool.and_eq_true] at h
  obtain ⟨hv, hm⟩ := h
  exact mapForm_framed (rounds := true) hv (Option.isNone_iff_eq_none.mp hm) f

theorem mapForm_framed_of_vectorReady (h : vectorReady w srcs (dstPush w.dst) true s = true)
    (f : State → Agent → Nat → (Nat → Nat) → Nat × Flagset) : VectorFramed (mapForm w srcs f s) w srcs s :=
  mapForm_framed h (if_neg Bool.false_ne_true) f

theorem exec_vectorInt (w : WordF) (s : State) : ∀ p ∈ vectorInt, ∃ f, exec (p.1 w) s = intForm w p.2.1 f s := by
  simp only [vectorInt, List.forall_mem_cons, List.not_mem_nil, false_imp_iff, implies_true, and_true]
  refine ⟨?_, ?_, ?_, ?_, ?_, ?_, ?_, ?_, ?_, ?_, ?_, ?_, ?_, ?_, ?_, ?_, ?_, ?_, ?_, ?_⟩ <;> dsimp only [exec] <;>
    exact ⟨_, rfl⟩

theorem exec_vectorRounded (w : WordF) (s : State) :
    ∀ p ∈ vectorRounded, ∃ f, exec (p.1 w) s = floatForm w p.2.1 f s := by
  simp only [vectorRounded, List.forall_mem_cons, List.not_mem_nil, false_imp_iff, implies_true, and_true]
  refine ⟨?_, ?_, ?_, ?_, ?_, ?_⟩ <;> dsimp only [exec] <;> exact ⟨_, rfl⟩

/-- The exact forms, which have at most two sources. -/
theorem exec_vectorExact (w : WordF) (s : State) :
    ∀ p ∈ vectorExact, p.2.1 ≤ 2 ∧ ∃ f, exec (p.1 w) s = exactForm w p.2.1 f s := by
  simp only [vectorExact, List.forall_mem_cons, List.not_mem_nil, false_imp_iff, implies_true, and_true]
  refine ⟨?_, ?_, ?_, ?_, ?_⟩ <;> dsimp only [exec] <;> exact ⟨by decide, _, rfl⟩

theorem exec_vectorFun (w : WordF) (s : State) : ∀ p ∈ vectorFun, ∃ f, exec (p.1 w) s = fun1Form w f s := by
  simp only [vectorFun, List.forall_mem_cons, List.not_mem_nil, false_imp_iff, implies_true, and_true]
  refine ⟨?_, ?_, ?_, ?_, ?_⟩ <;> dsimp only [exec] <;> exact ⟨_, rfl⟩

theorem take_two_of_le {n : Nat} (a b c : Operand) (h : n ≤ 2) : [a, b].take n = [a, b, c].take n := by
  interval_cases n <;> rfl

end

end Sys2Proof.Machine

namespace Sys2Proof.Package

open Sys2Proof.Machine Sys2Proof.Claims

/-- Settles O46: every form of the tables makes its elements from those of its sources, and such a form keeps its frame. -/
theorem vectorFrame : Obligations.VectorFrame := by
  intro w s
  dsimp only
  intro p hp hready
  simp only [List.mem_append, List.mem_map, List.mem_singleton] at hp
  obtain (((⟨q, hq, rfl⟩ | ⟨q, hq, rfl⟩) | ⟨q, hq, rfl⟩) | ⟨q, hq, rfl⟩) | rfl := hp
  all_goals dsimp only at hready ⊢
  · obtain ⟨f, hf⟩ := exec_vectorInt w s q hq
    change VectorFramed (exec (q.1 w) s) w (([w.srcA, w.srcB, w.srcC]).take q.2.1) s
    rw [hf, intForm]
    exact mapForm_framed_of_vectorReady hready _
  · obtain ⟨f, hf⟩ := exec_vectorRounded w s q hq
    change VectorFramed (exec (q.1 w) s) w (([w.srcA, w.srcB, w.srcC]).take q.2.1) s
    rw [hf, floatForm]
    exact mapForm_framed_of_roundReady hready _
  · obtain ⟨hn, f, hf⟩ := exec_vectorExact w s q hq
    change VectorFramed (exec (q.1 w) s) w (([w.srcA, w.srcB, w.srcC]).take q.2.1) s
    rw [hf, exactForm, take_two_of_le w.srcA w.srcB w.srcC hn]
    exact mapForm_framed_of_vectorReady hready _
  · obtain ⟨f, hf⟩ := exec_vectorFun w s q hq
    change VectorFramed (exec (q.1 w) s) w [w.srcA] s
    rw [hf, fun1Form]
    exact mapForm_framed_of_roundReady hready _
  · dsimp only [exec, execFclass]
    exact mapForm_framed_of_vectorReady hready _

end Sys2Proof.Package
end

section
/-! The results of the scalar forms: the model's arithmetic of integers is the table's of words (R103). -/

namespace Sys2Proof.Machine

open Sys2Proof Sys2Proof.Claims

/-! ### Comparisons -/

theorem below_eq (u : Bool) (a b : Word) : below u a b = if u then a.ult b else a.slt b := by
  cases u <;> rfl

theorem below_asymm {u : Bool} {a b : Word} (h : below u a b = true) : below u b a = false := by
  cases u
  · simp only [below, Bool.false_eq_true, if_false, decide_eq_false_iff_not, decide_eq_true_iff, not_lt] at h ⊢
    exact h.le
  · simp only [below, if_true, decide_eq_false_iff_not, decide_eq_true_iff, not_lt] at h ⊢
    exact h.le

/-- Words of which neither is below the other are the same. -/
theorem eq_of_not_below {u : Bool} {a b : Word} (h : below u a b = false) (h' : below u b a = false) : a = b := by
  cases u
  · simp only [below, Bool.false_eq_true, if_false, decide_eq_false_iff_not, not_lt] at h h'
    exact BitVec.eq_of_toInt_eq (le_antisymm h' h)
  · simp only [below, if_true, decide_eq_false_iff_not, not_lt] at h h'
    exact BitVec.eq_of_toNat_eq (le_antisymm h' h)

/-- The smaller of two words, whichever of equal ones is taken. -/
theorem smaller_eq (u : Bool) (a b : Word) : (if below u b a then b else a) = if below u a b then a else b := by
  cases h : below u a b with
  | true => rw [below_asymm h]; rfl
  | false =>
    cases h' : below u b a with
    | true => rfl
    | false => exact eq_of_not_below h h'

theorem not_below_signed (a b : Word) : (!below false a b) = b.sle a := by
  simp [below, BitVec.sle, ← decide_not]

theorem not_below_unsigned (a b : Word) : (!below true a b) = b.ule a := by
  simp [below, BitVec.ule, ← decide_not]

/-! ### Products and quotients -/

theorem setWidth_eq_ofInt (a : Word) : a.setWidth 128 = BitVec.ofInt 128 a.toNat := by
  rw [BitVec.ofInt_natCast, BitVec.ofNat_toNat]

theorem highHalf_ofInt (z : Int) : (BitVec.ofInt 128 z >>> 64).setWidth 64 = BitVec.ofInt 64 (z / 2 ^ 64) := by
  apply BitVec.eq_of_toNat_eq
  simp only [BitVec.toNat_setWidth, BitVec.toNat_ushiftRight, BitVec.toNat_ofInt, Nat.shiftRight_eq_div_pow]
  omega

/-- The exact product is that of the factors extended to 128 bits. -/
theorem mulHigh_eq (m : Nat) (a b : Word) : mulHigh m a b
    = (((if m = 1 then a.setWidth 128 else a.signExtend 128)
        * (if m = 0 then b.signExtend 128 else b.setWidth 128)) >>> 64).setWidth 64 := by
  have hx : (if m = 1 then a.setWidth 128 else a.signExtend 128)
      = BitVec.ofInt 128 (if m = 1 then (a.toNat : Int) else a.toInt) := by
    split
    · exact setWidth_eq_ofInt a
    · rfl
  have hy : (if m = 0 then b.signExtend 128 else b.setWidth 128)
      = BitVec.ofInt 128 (if m = 0 then b.toInt else (b.toNat : Int)) := by
    split
    · rfl
    · exact setWidth_eq_ofInt b
  rw [hx, hy, ← BitVec.ofInt_mul, highHalf_ofInt, mulHigh]

theorem divWord_eq (u : Bool) (a b : Word) :
    divWord u a b = if b = 0 then BitVec.allOnes 64 else if u then a / b else a.sdiv b := by
  unfold divWord
  congr 2
  · rw [← BitVec.toNat_udiv, BitVec.ofNat_toNat, BitVec.setWidth_eq]
  · exact BitVec.eq_of_toInt_eq (by rw [BitVec.toInt_ofInt, BitVec.toInt_sdiv])

theorem remWord_eq (u : Bool) (a b : Word) : remWord u a b = if b = 0 then a else if u then a % b else a.srem b := by
  unfold remWord
  congr 2
  · rw [← BitVec.toNat_umod, BitVec.ofNat_toNat, BitVec.setWidth_eq]
  · rw [← BitVec.toInt_srem, BitVec.ofInt_toInt]

theorem shiftLeft_eq_mul_pow (b : Word) (n : Nat) : b <<< n = b * BitVec.ofNat 64 (2 ^ n) := by
  rw [BitVec.shiftLeft_eq_mul_twoPow]
  exact congrArg (b * ·) (BitVec.eq_of_toNat_eq (BitVec.toNat_twoPow ..))

/-! ### Counts of bits -/

theorem clzWord_eq (a : Word) : w64 (clzWord a) = a.clz := by
  unfold clzWord w64
  split
  · next h => subst h; decide
  · next h =>
    have h0 : a.toNat ≠ 0 := fun h0 => h (BitVec.eq_of_toNat_eq h0)
    have hlo : 63 - a.clz.toNat ≤ a.toNat.log2 :=
      (Nat.le_log2 h0).mpr (BitVec.two_pow_sub_clz_le_toNat_of_ne_zero (by decide) h)
    have hhi : a.toNat.log2 < 64 - a.clz.toNat := (Nat.log2_lt h0).mpr BitVec.toNat_lt_two_pow_sub_clz
    apply BitVec.eq_of_toNat_eq
    rw [BitVec.toNat_ofNat, Nat.mod_eq_of_lt (by omega)]
    omega

theorem popWord_eq (a : Word) : w64 (popWord a) = BitVec.ofNat 64 ((List.range 64).countP (fun i => a.getLsbD i)) :=
  congrArg w64 List.countP_eq_length_filter.symm

/-! ### Fields of bits -/

theorem toNat_and_63 (b : Word) : (b &&& 63).toNat = b.toNat % 64 := by
  rw [BitVec.toNat_and]
  exact Nat.and_two_pow_sub_one_eq_mod b.toNat 6

theorem bits_5_0 (b : Word) : bits b 5 0 = (b &&& 63).toNat := (toNat_and_63 b).symm

theorem bits_13_8 (b : Word) : bits b 13 8 = (b >>> 8 &&& 63).toNat := by
  rw [toNat_and_63, BitVec.toNat_ushiftRight]
  rfl

theorem fieldWidth_le (b : Word) : (b &&& 63).toNat + 1 ≤ 64 := by
  rw [toNat_and_63]
  exact Nat.mod_lt _ (by decide)

theorem lowMask_getLsbD {n i : Nat} (hn : n ≤ 64) : (BitVec.allOnes 64 >>> (64 - n)).getLsbD i = decide (i < n) := by
  rw [BitVec.getLsbD_ushiftRight, BitVec.getLsbD_allOnes]
  exact decide_eq_decide.mpr (by omega)

theorem lowMask_eq {n : Nat} (hn : n ≤ 64) : BitVec.allOnes 64 >>> (64 - n) = BitVec.ofNat 64 (2 ^ n - 1) := by
  refine BitVec.eq_of_getLsbD_eq fun i hi => ?_
  rw [lowMask_getLsbD hn, BitVec.getLsbD_ofNat, Nat.testBit_two_pow_sub_one, decide_eq_true hi, Bool.true_and]

theorem and_lowMask_eq (a : Word) {n : Nat} (p : Nat) (hn : n ≤ 64) :
    (a >>> p) &&& (BitVec.allOnes 64 >>> (64 - n)) = BitVec.ofNat 64 (a.toNat / 2 ^ p % 2 ^ n) := by
  refine BitVec.eq_of_getLsbD_eq fun i hi => ?_
  rw [BitVec.getLsbD_and, lowMask_getLsbD hn, BitVec.getLsbD_ofNat, BitVec.getLsbD_ushiftRight, Nat.testBit_mod_two_pow,
    ← Nat.shiftRight_eq_div_pow, Nat.testBit_shiftRight, decide_eq_true hi, Bool.true_and, Bool.and_comm]
  rfl

theorem sext64_eq_signExtend {n : Nat} (hn : 0 < n) (v : Nat) : sext64 n v = (BitVec.ofNat n v).signExtend 64 := by
  have hp : 2 ^ n = 2 * 2 ^ (n - 1) := by rw [← Nat.pow_succ', Nat.succ_eq_add_one, Nat.sub_add_cancel hn]
  rw [sext64, BitVec.signExtend, BitVec.toInt, BitVec.toNat_ofNat]
  congr 1
  exact if_congr (by omega) rfl rfl

/-- A field of n bits is extended by its sign bit in the bits above it. -/
theorem sext64_eq_or {n v : Nat} (hn : 0 < n) (h64 : n ≤ 64) (hv : v < 2 ^ n) : sext64 n v
    = if (BitVec.ofNat 64 v).getLsbD (n - 1) then BitVec.ofNat 64 v ||| ~~~(BitVec.allOnes 64 >>> (64 - n))
      else BitVec.ofNat 64 v := by
  have hsign : (BitVec.ofNat 64 v).getLsbD (n - 1) = (BitVec.ofNat n v).msb := by
    rw [BitVec.msb_eq_getLsbD_last, BitVec.getLsbD_ofNat, BitVec.getLsbD_ofNat, decide_eq_true (by omega),
      decide_eq_true (by omega)]
  rw [sext64_eq_signExtend hn, hsign]
  refine BitVec.eq_of_getLsbD_eq fun i hi => ?_
  have hfield : (BitVec.ofNat 64 v).getLsbD i = v.testBit i := by rw [BitVec.getLsbD_ofNat, decide_eq_true hi, Bool.true_and]
  have hfill : (~~~(BitVec.allOnes 64 >>> (64 - n))).getLsbD i = !decide (i < n) := by
    rw [BitVec.getLsbD_not, decide_eq_true hi, Bool.true_and, lowMask_getLsbD h64]
  rw [BitVec.getLsbD_signExtend, decide_eq_true hi, Bool.true_and, apply_ite (BitVec.getLsbD · i), BitVec.getLsbD_or, hfield,
    hfill, BitVec.getLsbD_ofNat]
  by_cases hin : i < n
  · simp [hin]
  · have htop : v.testBit i = false :=
      Nat.testBit_lt_two_pow (hv.trans_le (Nat.pow_le_pow_right (by decide) (not_lt.mp hin)))
    simp [hin, htop]

theorem bfxWord_eq (sx : Bool) (a b : Word) : bfxWord sx a b
    = let n := (b >>> 8 &&& 63).toNat + 1
      let f : Word := (a >>> (b &&& 63)) &&& (BitVec.allOnes 64 >>> (64 - n))
      if sx && f.getLsbD (n - 1) then f ||| ~~~(BitVec.allOnes 64 >>> (64 - n)) else f := by
  have hn := fieldWidth_le (b >>> 8)
  simp only [bfxWord, bits_5_0, bits_13_8, BitVec.ushiftRight_eq', and_lowMask_eq a _ hn]
  cases sx with
  | false => rfl
  | true => exact sext64_eq_or (Nat.succ_pos _) hn (Nat.mod_lt _ (Nat.two_pow_pos _))

theorem ofNat_mul_pow (x p : Nat) : BitVec.ofNat 64 (x * 2 ^ p) = BitVec.ofNat 64 x <<< p := by
  rw [shiftLeft_eq_mul_pow, BitVec.ofNat_mul]

theorem bfiWord_eq (a b c : Word) : bfiWord a b c
    = let n := (b >>> 8 &&& 63).toNat + 1
      let m : Word := (BitVec.allOnes 64 >>> (64 - n)) <<< (b &&& 63)
      (c &&& ~~~m) ||| ((a <<< (b &&& 63)) &&& m) := by
  have hn := fieldWidth_le (b >>> 8)
  simp only [bfiWord, bits_5_0, bits_13_8, ofNat_mul_pow, ← lowMask_eq hn, BitVec.ofNat_toNat, BitVec.setWidth_eq]
  rfl

/-! ### The tables -/

theorem exec_oneSource_eq (w : WordF) (s : State) : ∀ p ∈ oneSource, exec (p.1 w) s = unForm w p.2 s := by
  simp only [oneSource, List.forall_mem_cons, List.not_mem_nil, false_imp_iff, implies_true, and_true]
  refine ⟨rfl, ?clz, ?popc⟩ <;> dsimp only [exec]
  case clz => exact congrArg (unForm w · s) (funext clzWord_eq)
  case popc => exact congrArg (unForm w · s) (funext popWord_eq)

theorem setCond_eq (m : Nat) (a b : Word) : setCond m a b =
    (match m with
     | 0 => a == b
     | 1 => a != b
     | 2 => a.slt b
     | 3 => b.sle a
     | 4 => a.ult b
     | 5 => b.ule a
     | 6 => b.slt a
     | _ => b.ult a) := by
  match m with
  | 0 | 1 | 2 | 4 | 6 => rfl
  | 3 => exact not_below_signed a b
  | 5 => exact not_below_unsigned a b
  | _ + 7 => rfl

theorem exec_twoSources_eq (w : WordF) (s : State) : ∀ p ∈ twoSources, exec (p.1 w) s = binForm w (p.2 w) s := by
  simp only [twoSources, List.forall_mem_cons, List.not_mem_nil, false_imp_iff, implies_true, and_true]
  refine ⟨rfl, rfl, rfl, ?mulh, ?div, ?rem, rfl, rfl, rfl, ?shl, ?shr, ?sra, ?min, ?max, ?set, ?scale, ?bfx⟩ <;>
    dsimp only [exec] <;> refine congrArg (binForm w · s) (funext fun a => funext fun b => ?_)
  case mulh => exact mulHigh_eq (mod3 w) a b
  case div => exact divWord_eq _ a b
  case rem => exact remWord_eq _ a b
  case shl => rw [BitVec.shiftLeft_eq', toNat_and_63]
  case shr => rw [BitVec.ushiftRight_eq', toNat_and_63]
  case sra => rw [BitVec.sshiftRight_eq', toNat_and_63]
  case min => rw [smaller_eq, below_eq]
  case max => rw [below_eq]
  case set => rw [setCond_eq]; rfl
  case scale => rw [shiftLeft_eq_mul_pow]; rfl
  case bfx => exact bfxWord_eq _ a b

theorem exec_threeSources_eq (w : WordF) (s : State) : ∀ p ∈ threeSources, exec (p.1 w) s = triForm w p.2 s := by
  simp only [threeSources, List.forall_mem_cons, List.not_mem_nil, false_imp_iff, implies_true, and_true]
  refine ⟨?sel, rfl, ?bfi⟩ <;> dsimp only [exec] <;>
    refine congrArg (triForm w · s) (funext fun a => funext fun b => funext fun c => ?_)
  case sel => exact ite_not ..
  case bfi => exact bfiWord_eq a b c

/-- A scalar form that goes on to its effect leaves its result at the destination. -/
theorem scalarForm_leaves {w : WordF} {srcs : List Operand} {s : State} (h : scalarReady w srcs s = true)
    (f : State → Agent → Word) :
    scalarForm w srcs f s = .next (scalarLeaves w srcs (f (begun s w.wait) s.cur) s) := by
  rw [scalarReady, Bool.and_eq_true] at h
  exact scalarForm_ready h.1 h.2

end Sys2Proof.Machine

namespace Sys2Proof.Package

open Sys2Proof.Machine Sys2Proof.Claims

/-- Settles O1: each form of the three tables is a scalar form with its table's result, and such a form leaves its result. -/
theorem scalarForms : Obligations.ScalarForms := by
  refine ⟨fun w s h => ?nop, fun p hp w s h => ?one, fun p hp w s h => ?two, fun p hp w s h => ?three⟩
  case nop => exact runWord_commits (srcs := []) (body := fun s _ => done s) h rfl rfl
  case one =>
    rw [exec_oneSource_eq w s p hp]
    exact scalarForm_leaves h _
  case two =>
    rw [exec_twoSources_eq w s p hp]
    exact scalarForm_leaves h _
  case three =>
    rw [exec_threeSources_eq w s p hp]
    exact scalarForm_leaves h _

end Sys2Proof.Package
end

section
/-! How a word that is ready ends, and what the words of queues and tokens complete with (R33, R106, R107). -/

namespace Sys2Proof.Machine

open Sys2Proof Sys2Proof.Claims

section

variable {w : WordF} {srcs : List Operand} {s : State} {perLane : Bool} {body : State → Agent → Res Done}

/-- A word that is ready and raises a fault at its effect takes it. -/
theorem runWord_faults {t : State} {f : FaultInfo} (hr : ready w perLane s = true)
    (hb : body (begun s w.wait) s.cur = raise t f) :
    runWord w perLane body s = .next (wordFault t s.cur f false false) := by
  rw [runWord_ready hr, hb]
  rfl

/-- A word that is ready and stalls at its effect stands there. -/
theorem runWord_stalls {t : State} {why : StallStep} (hr : ready w perLane s = true)
    (hb : body (begun s w.wait) s.cur = stall t why) :
    runWord w perLane body s = .next (stallAt t s.cur why (passedAt why)) := by
  rw [runWord_ready hr, hb]
  rfl

theorem scalarReady_iff : scalarReady w srcs s = true
    ↔ ready w false s = true ∧ sourcesOk (begun s w.wait) s.cur srcs (dstPush w.dst) = true := Bool.and_eq_true_iff

/-- A word whose effect is one scalar result leaves it at the destination. -/
theorem runWord_leaves {v : Word} (h : scalarReady w srcs s = true)
    (hb : body (begun s w.wait) s.cur = donePop (writeScalar (begun s w.wait) s.cur w.dst v) srcs) :
    runWord w false body s = .next (scalarLeaves w srcs v s) :=
  runWord_commits (scalarReady_iff.mp h).1 hb (writeScalar_task ..)

/-! ### Queues and tokens (R106, R107) -/

theorem tokens_move {form : Nat}
    (h : readyWith w.wait (tokensOf w.pbl w.pbr w.pal w.par form (shortNat w.srcA) (w.mod.getLsbD 0)) w.pidx w.pneg false s
      = true) :
    runTokens w form s = .next (commitWord (begun s w.wait) s.cur
      (tokensOf w.pbl w.pbr w.pal w.par form (shortNat w.srcA) (w.mod.getLsbD 0)) [] none 1) := by
  rw [runTokens_ready h, done, finishWord_commit (readyWith_task h)]

theorem qpush_pushes (hr : ready w false s = true)
    (h : sourcesOk (begun s w.wait) s.cur [w.srcA] [(queueNo w.dst, mod3 w + 1)] = true) :
    exec (.qpush w) s = .next (commits w s (modBankOf (begun s w.wait) s.cur (fun k =>
      pushQ k (queueNo w.dst) (now (begun s w.wait))
        (List.replicate (mod3 w + 1) { val := (src s w [w.srcA] 0).setWidth 2048 }))) [w.srcA] none) := by
  dsimp only [exec]
  exact runWord_commits hr (by simp only [takeSources_ok h]; rfl) (modBankOf_task fun _ => rfl)

/-- R106: the head of the queue or, for a try that finds it empty, srcB. -/
theorem takeForm_leaves {o : Operand} (he : (if findsEmpty w s then [w.srcB] else [o]) = srcs)
    (h : scalarReady w srcs s = true) : takeForm w o s = .next (scalarLeaves w srcs (src s w srcs 0) s) := by
  simp only [findsEmpty, Bool.and_assoc, beq_eq_decide (α := Nat)] at he
  refine runWord_leaves h ?_
  simp only [Bool.and_assoc, he, takeSources_ok (scalarReady_iff.mp h).2]
  rfl

theorem qlen_reader (h : scalarReady w [] s = true) (hq : queueReader (queueNo w.srcA) = s.cur.stream) :
    exec (.qlen w) s = .next (scalarLeaves w []
      (w64 (((bankOf (begun s w.wait) s.cur).q.get (queueNo w.srcA)).seen (now (begun s w.wait)))) s) := by
  dsimp only [exec]
  exact runWord_leaves h (by simp only [takeSources_ok (scalarReady_iff.mp h).2, hq]; rfl)

theorem qlen_writer (h : scalarReady w [] s = true) (hq : queueReader (queueNo w.srcA) ≠ s.cur.stream)
    (hw : queueWriter (queueNo w.srcA) = s.cur.stream) :
    exec (.qlen w) s = .next (scalarLeaves w []
      (w64 (((bankOf (begun s w.wait) s.cur).q.get (queueNo w.srcA)).held (now (begun s w.wait)))) s) := by
  dsimp only [exec]
  exact runWord_leaves h (by simp only [takeSources_ok (scalarReady_iff.mp h).2, if_neg hq, hw]; rfl)

end

end Sys2Proof.Machine

namespace Sys2Proof.Package

open Sys2Proof.Machine Sys2Proof.Claims

/-- Settles O4: each word takes its sources and commits its own effect. -/
theorem queueAndTokenForms : Obligations.QueueAndTokenForms := by
  refine ⟨fun w s => ?tokens, fun w s hr => ⟨fun h => ?push, fun he h => ?pop, fun he h => ?peek, fun he h => ⟨?_, ?_⟩,
    fun h hq => ?reader, fun h hq hw => ?writer⟩⟩
  case tokens =>
    simp only [List.forall_mem_cons, List.not_mem_nil, false_imp_iff, implies_true, and_true]
    exact ⟨fun h => tokens_move h, fun h => tokens_move h⟩
  case push => exact qpush_pushes hr h
  case pop => exact takeForm_leaves (if_neg (Bool.eq_false_iff.mp he)) h
  case peek => exact takeForm_leaves (if_neg (Bool.eq_false_iff.mp he)) h
  · exact takeForm_leaves (if_pos he) h
  · exact takeForm_leaves (if_pos he) h
  case reader => exact qlen_reader h hq
  case writer => exact qlen_writer h hq hw

end Sys2Proof.Package
end

section
/-! Transfers of control: where they move, and the faults of their targets (R104, R105). -/

namespace Sys2Proof.Machine

open Sys2Proof Sys2Proof.Claims

section

variable {w : WordF} {s : State}

theorem branchTarget_inRange {o : Operand} (h : inRange (target s w o) = true) :
    branchTarget (begun s w.wait) s.cur o = .ok (BitVec.ofInt 52 (target s w o)) := by
  rw [inRange, Bool.and_eq_true, decide_eq_true_iff, decide_eq_true_iff] at h
  exact if_pos h

theorem branchTarget_outside {o : Operand} (h : inRange (target s w o) = false) :
    branchTarget (begun s w.wait) s.cur o
      = raise (begun s w.wait) (flt .notmapped (BitVec.ofInt 64 (target s w o))) := by
  rw [inRange, Bool.and_eq_false_iff, decide_eq_false_iff_not, decide_eq_false_iff_not, ← not_and_or] at h
  exact if_neg h

theorem lands_iff {a : Word} : lands a = true ↔ a.toNat % 16 = 0 ∧ a.toNat < 2 ^ 52 := by
  rw [lands, Bool.and_eq_true, beq_iff_eq, decide_eq_true_iff]

theorem checkTarget_misaligned (t : State) {a : Word} (h16 : a.toNat % 16 ≠ 0) :
    checkTarget t a = raise t (flt .align a 16) := if_pos h16

theorem checkTarget_far (t : State) {a : Word} (h16 : a.toNat % 16 = 0) (h52 : 2 ^ 52 ≤ a.toNat) :
    checkTarget t a = raise t (flt .notmapped a) := by
  rw [checkTarget, if_neg (not_not.mpr h16), if_pos h52]

theorem setLink_task (t : State) (g : Agent) (v : Word) : (bankOf (setLink t g v) g).task = (bankOf t g).task :=
  modBankOf_task fun _ => by cases g.stream <;> rfl

theorem putLc_task (t : State) (g : Agent) (n : Fin 4) (v : Word) : (bankOf (putLc t g n v) g).task = (bankOf t g).task :=
  modBankOf_task fun _ => setLc_task ..

/-- BR, CALL and LBRK find a target in range and move there, each with its own effect. -/
theorem transfer_moves (hr : ready w false s = true) (h : inRange (target s w w.srcA) = true) :
    exec (.br w) s = .next (commits w s (begun s w.wait) [] (some (BitVec.ofInt 52 (target s w w.srcA))))
      ∧ exec (.call w) s = .next (commits w s
          (setLink (begun s w.wait) s.cur ((stOf (begun s w.wait) s.cur).pc.setWidth 64 + 16)) []
          (some (BitVec.ofInt 52 (target s w w.srcA))))
      ∧ exec (.lbrk w) s = .next (commits w s (putLc (begun s w.wait) s.cur (lcNo w) 0) []
          (some (BitVec.ofInt 52 (target s w w.srcA)))) := by
  have hpc := branchTarget_inRange h
  refine ⟨?_, ?_, ?_⟩ <;> dsimp only [exec]
  · exact runWord_commits (srcs := []) hr (by simp only [hpc]; rfl) rfl
  · exact runWord_commits (srcs := []) hr (by simp only [hpc]; rfl) (setLink_task ..)
  · exact runWord_commits (srcs := []) hr (by simp only [hpc]; rfl) (putLc_task ..)

theorem transfer_faults (hr : ready w false s = true) (h : inRange (target s w w.srcA) = false) :
    ∀ i ∈ [Instr.br w, .call w, .lbrk w], exec i s = .next (wordFault (begun s w.wait) s.cur
      (flt .notmapped (BitVec.ofInt 64 (target s w w.srcA))) false false) := by
  have hpc := branchTarget_outside h
  simp only [List.forall_mem_cons, List.not_mem_nil, false_imp_iff, implies_true, and_true]
  refine ⟨?_, ?_, ?_⟩ <;> dsimp only [exec] <;> exact runWord_faults hr (by simp only [hpc]; rfl)

/-- RET and BRI, which a checked address decides: the operand that holds it, and the sources that are popped. -/
def checkedJumps (w : WordF) : List (Instr × Operand × List Operand) :=
  [(.ret w, .reg 31, []), (.bri w, w.srcA, [w.srcA])]

theorem checkedJump_lands (hr : ready w false s = true) : ∀ p ∈ checkedJumps w,
    sourcesOk (begun s w.wait) s.cur [p.2.1] [] = true → ∀ pc,
    checkTarget (begun s w.wait) (src s w [p.2.1] 0) = .ok pc →
    exec p.1 s = .next (commits w s (begun s w.wait) p.2.2 (some pc)) := by
  simp only [checkedJumps, List.forall_mem_cons, List.not_mem_nil, false_imp_iff, implies_true, and_true, src]
  refine ⟨fun h pc hpc => ?_, fun h pc hpc => ?_⟩ <;> dsimp only [exec]
  · exact runWord_commits (srcs := []) hr (by simp only [takeSources_ok h, hpc]; rfl) rfl
  · exact runWord_commits hr (by simp only [takeSources_ok h, hpc]; rfl) rfl

theorem checkedJump_faults (hr : ready w false s = true) : ∀ p ∈ checkedJumps w,
    sourcesOk (begun s w.wait) s.cur [p.2.1] [] = true → ∀ f,
    checkTarget (begun s w.wait) (src s w [p.2.1] 0) = raise (begun s w.wait) f →
    exec p.1 s = .next (wordFault (begun s w.wait) s.cur f false false) := by
  simp only [checkedJumps, List.forall_mem_cons, List.not_mem_nil, false_imp_iff, implies_true, and_true, src]
  refine ⟨fun h f hf => ?_, fun h f hf => ?_⟩ <;> dsimp only [exec] <;>
    exact runWord_faults hr (by simp only [takeSources_ok h, hf]; rfl)

theorem loopSet_sets (hr : ready w false s = true) (h : sourcesOk (begun s w.wait) s.cur [w.srcA] [] = true) :
    exec (.loopSet w) s
      = .next (commits w s (putLc (begun s w.wait) s.cur (lcNo w) (src s w [w.srcA] 0)) [w.srcA] none) := by
  dsimp only [exec]
  exact runWord_commits hr (by simp only [takeSources_ok h]; rfl) (putLc_task ..)

section

variable (hr : ready w false s = true) (h : sourcesOk (begun s w.wait) s.cur [w.srcA] [] = true)

include hr h

theorem bc_passes (hc : branchTaken s.cur.stream w.mod (src s w [w.srcA] 0) = false) :
    exec (.bc w) s = .next (commits w s (begun s w.wait) [w.srcA] none) := by
  rw [branchTaken_eq, src] at hc
  dsimp only [exec]
  exact runWord_commits hr (by simp only [takeSources_ok h, hc]; rfl) rfl

theorem bc_moves (hc : branchTaken s.cur.stream w.mod (src s w [w.srcA] 0) = true)
    (ht : inRange (target s w w.srcB) = true) :
    exec (.bc w) s = .next (commits w s (begun s w.wait) [w.srcA] (some (BitVec.ofInt 52 (target s w w.srcB)))) := by
  rw [branchTaken_eq, src] at hc
  dsimp only [exec]
  exact runWord_commits hr (by simp only [takeSources_ok h, branchTarget_inRange ht, hc]; rfl) rfl

theorem bc_faults (hc : branchTaken s.cur.stream w.mod (src s w [w.srcA] 0) = true)
    (ht : inRange (target s w w.srcB) = false) :
    exec (.bc w) s = .next (wordFault (begun s w.wait) s.cur
      (flt .notmapped (BitVec.ofInt 64 (target s w w.srcB))) false false) := by
  rw [branchTaken_eq, src] at hc
  dsimp only [exec]
  exact runWord_faults hr (by simp only [takeSources_ok h, branchTarget_outside ht, hc]; rfl)

end

section

variable (hr : ready w false s = true) (hb : (regsOf (begun s w.wait) s.cur).badLc.getLsbD (lcNo w).val = false)

include hr hb

theorem loop_moves (h1 : 1 < ((regsOf (begun s w.wait) s.cur).lc.get (lcNo w)).toNat)
    (ht : inRange (target s w w.srcA) = true) :
    exec (.loop w) s = .next (commits w s
      (putLc (begun s w.wait) s.cur (lcNo w) ((regsOf (begun s w.wait) s.cur).lc.get (lcNo w) - 1)) []
      (some (BitVec.ofInt 52 (target s w w.srcA)))) := by
  dsimp only [exec]
  exact runWord_commits (srcs := []) hr (by simp only [hb, h1, branchTarget_inRange ht]; rfl) (putLc_task ..)

theorem loop_faults (h1 : 1 < ((regsOf (begun s w.wait) s.cur).lc.get (lcNo w)).toNat)
    (ht : inRange (target s w w.srcA) = false) :
    exec (.loop w) s = .next (wordFault (begun s w.wait) s.cur
      (flt .notmapped (BitVec.ofInt 64 (target s w w.srcA))) false false) := by
  dsimp only [exec]
  exact runWord_faults hr (by simp only [hb, h1, branchTarget_outside ht]; rfl)

theorem loop_ends (h1 : ((regsOf (begun s w.wait) s.cur).lc.get (lcNo w)).toNat ≤ 1) :
    exec (.loop w) s = .next (commits w s (putLc (begun s w.wait) s.cur (lcNo w) 0) [] none) := by
  dsimp only [exec]
  exact runWord_commits (srcs := []) hr (by simp only [hb, not_lt.mpr h1]; rfl) (putLc_task ..)

end

end

end Sys2Proof.Machine

namespace Sys2Proof.Package

open Sys2Proof.Machine Sys2Proof.Claims

/-- Settles O2: the range of a direct target and the check of an indirect one decide between the move and the fault. -/
theorem transfers : Obligations.Transfers := by
  intro w s hr
  refine ⟨fun h => transfer_moves hr h, fun h => ?outside, fun p hp h => ⟨fun h16 h52 => ?lands, fun h16 => ?align,
    fun h16 h52 => ?far⟩⟩
  case outside =>
    simpa only [List.forall_mem_cons, List.not_mem_nil, false_imp_iff, implies_true, and_true] using transfer_faults hr h
  case lands => exact checkedJump_lands hr p hp h _ (checkTarget_ok (lands_iff.mpr ⟨h16, h52⟩) _)
  case align => exact checkedJump_faults hr p hp h _ (checkTarget_misaligned _ h16)
  case far => exact checkedJump_faults hr p hp h _ (checkTarget_far _ h16 h52)

/-- Settles O3: the condition of BC and the counter of LOOP decide between the move, its fault and the next word. -/
theorem conditionalTransfers : Obligations.ConditionalTransfers := by
  intro w s hr
  exact ⟨fun h => ⟨loopSet_sets hr h, fun hc => bc_passes hr h hc, fun hc ht => bc_moves hr h hc ht,
    fun hc ht => bc_faults hr h hc ht⟩,
    fun hb => ⟨fun h1 ht => loop_moves hr hb h1 ht, fun h1 ht => loop_faults hr hb h1 ht, fun h1 => loop_ends hr hb h1⟩⟩

end Sys2Proof.Package
end

section
/-! What special registers and counters give, and how they are written (R100, R101, R108, R109, R303, R330). -/

namespace Sys2Proof.Machine

open Sys2Proof Sys2Proof.Claims

section

variable {w : WordF} {s : State}

theorem gets_reads (h : scalarReady w [] s = true) (hb : sregBad (bankOf (begun s w.wait) s.cur).sregs (sregOf w) = false) :
    exec (.gets w) s = .next (scalarLeaves w [] (readSreg (begun s w.wait) s.cur (sregOf w)) s) := by
  dsimp only [exec]
  exact runWord_leaves h (by simp only [takeSources_ok (scalarReady_iff.mp h).2, hb]; rfl)

theorem gets_faults (h : scalarReady w [] s = true) (hb : sregBad (bankOf (begun s w.wait) s.cur).sregs (sregOf w) = true) :
    exec (.gets w) s
      = .next (wordFault (begun s w.wait) s.cur (eccRegs (SReg.num (sregOf w))) false false) := by
  dsimp only [exec]
  exact runWord_faults (scalarReady_iff.mp h).1 (by simp only [takeSources_ok (scalarReady_iff.mp h).2, hb]; rfl)

theorem tlget_reads (h : scalarReady w [] s = true) :
    exec (.tlget w) s
      = .next (scalarLeaves w [] (tlValue (begun s w.wait) s.cur.core s.cur.bank (tlNo w.srcA)) s) := by
  dsimp only [exec]
  exact runWord_leaves h (by simp only [takeSources_ok (scalarReady_iff.mp h).2]; rfl)

theorem cyc_reads (h : scalarReady w [] s = true) :
    exec (.cyc w) s = .next (scalarLeaves w [] (getDie (begun s w.wait) (dieOf s.cur.core)).cycle s) := by
  dsimp only [exec]
  exact scalarForm_leaves h _

theorem perf_reads (h : scalarReady w [] s = true) :
    exec (.perf w) s
      = .next (scalarLeaves w [] ((regsOf (begun s w.wait) s.cur).perf.get (Fin.ofNat 8 (shortNat w.srcA))) s) := by
  dsimp only [exec]
  exact scalarForm_leaves h _

theorem tuneq_reads (h : scalarReady w [] s = true) :
    exec (.tuneq w) s = .next (scalarLeaves w [] (tuneq (begun s w.wait)) s) := by
  dsimp only [exec]
  exact scalarForm_leaves h _

section

variable (hr : ready w false s = true) (h : sourcesOk (begun s w.wait) s.cur [w.srcB] [] = true)

include hr h

/-- SETS writes a register that may be written as `writeSreg` does. -/
theorem sets_writes (hw : SReg.writable (sregOf w) = true) :
    exec (.sets w) s = .next (commits w s (modBankOf (begun s w.wait) s.cur (fun k => { k with
      sregs := writeSreg k.sregs (sregOf w) (begun s w.wait).cal.cycle (src s w [w.srcB] 0) })) [w.srcB] none) := by
  dsimp only [exec]
  exact runWord_commits hr (by simp only [takeSources_ok h, hw]; rfl) (modBankOf_task fun _ => rfl)

theorem sets_faults (hw : SReg.writable (sregOf w) = false) :
    exec (.sets w) s = .next (wordFault (begun s w.wait) s.cur (flt .priv 0 0x081) false false) := by
  dsimp only [exec]
  exact runWord_faults hr (by simp only [takeSources_ok h, hw]; rfl)

theorem setwt_writes : exec (.setwt w) s = .next (commits w s (modRegsOf (begun s w.wait) s.cur (fun r => { r with
    wt := vset r.wt (Fin.ofNat 8 (mod3 w))
      { ctr := BitVec.ofNat 5 (Tl.id (tlNo w.srcA)), target := src s w [w.srcB] 0 }
    badWt := r.badWt &&& ~~~((1 : BitVec 8) <<< mod3 w) })) [w.srcB] none) := by
  have hn : (Fin.ofNat 8 (mod3 w)).val = mod3 w := Nat.mod_mod ..
  dsimp only [exec]
  exact runWord_commits hr (by simp only [takeSources_ok h, hn]; rfl) (modBankOf_task fun _ => modRegs_task ..)

theorem waittl_passes
    (hv : (src s w [w.srcB] 0).toNat ≤ (tlValue (begun s w.wait) s.cur.core s.cur.bank (tlNo w.srcA)).toNat) :
    exec (.waittl w) s = .next (commits w s (begun s w.wait) [w.srcB] none) := by
  rw [src] at hv
  dsimp only [exec]
  exact runWord_commits hr (by simp only [takeSources_ok h]; rw [if_neg (not_lt.mpr hv)]; rfl) rfl

theorem waittl_waits
    (hv : (tlValue (begun s w.wait) s.cur.core s.cur.bank (tlNo w.srcA)).toNat < (src s w [w.srcB] 0).toNat) :
    exec (.waittl w) s = .next (stallAt (begun s w.wait) s.cur .queues 6) := by
  rw [src] at hv
  dsimp only [exec]
  exact runWord_stalls hr (by simp only [takeSources_ok h]; rw [if_pos hv]; rfl)

end

end

end Sys2Proof.Machine

namespace Sys2Proof.Package

open Sys2Proof.Machine Sys2Proof.Claims

/-- Settles O5: each word reads or writes what it names; SETS of a register that may be written is `writeSreg`. -/
theorem countsAndRegisters : Obligations.CountsAndRegisters := by
  refine ⟨fun w s h => ⟨gets_reads h, gets_faults h, cyc_reads h, perf_reads h, tlget_reads h,
    tuneq_reads h⟩, fun w s hr h => ?_⟩
  have hsets := sets_writes hr h
  refine ⟨fun hq => ?_, fun hq => ?_, fun hq => ?_, fun hq => ?_, fun hq => ?_, fun hq => ?slipw, sets_faults hr h,
    setwt_writes hr h, waittl_passes hr h, waittl_waits hr h⟩
  case slipw =>
    rw [hq] at hsets
    exact ⟨_, hsets rfl, congrArg (·.sregs.slipw) (bankOf_modBankOf ..)⟩
  all_goals
    rw [hq] at hsets ⊢
    exact hsets rfl

end Sys2Proof.Package
end

section
/-! What a queue entry holds, and how a stream reads it (R90). -/

namespace Sys2Proof.Machine

open Sys2Proof Sys2Proof.Claims

theorem Fifo.push_items {α : Type} (f : Fifo α) (n : Nat) (xs : List α) : (f.push n xs).items = f.items ++ xs := by
  unfold Fifo.push
  split
  · next h => rw [List.isEmpty_iff.mp h, List.append_nil]
  · rfl

theorem writeScalar_queue_items (s : State) (g : Agent) (q : Fin 16) (p : Bool) (v : Word) :
    ((bankOf (writeScalar s g (.queue q p) v) g).q.get q).items
      = ((bankOf s g).q.get q).items ++ [{ val := v.setWidth 2048 }] := by
  rw [writeScalar, bankOf_modBankOf]
  simp only [pushQ, vmod_get_self, Fifo.push_items]

theorem scalarEntry_low (v : Word) : (v.setWidth 2048).extractLsb' 0 64 = v := by
  rw [BitVec.extractLsb'_setWidth_of_le (by decide), BitVec.extractLsb'_eq_self]

theorem scalarEntry_high (v : Word) : (v.setWidth 2048).extractLsb' 64 1984 = 0 := by
  refine BitVec.eq_of_getLsbD_eq fun i hi => ?_
  simp

/-- A source that names a queue takes the entry at its head. -/
theorem rawSource_queue {k : Bank} {q : Fin 16} {e : Entry} {es : List Entry} (t : Stream) (p : Bool)
    (h : (k.q.get q).items = e :: es) : rawSource k t [.queue q p] 0 = e := by
  simp [rawSource, h, popsBefore, popsOf]

theorem elemAt_eq_extract (v : Vec) (w i : Nat) : elemAt v w i = (v.extractLsb' (w * i) w).toNat := by
  rw [elemAt, BitVec.extractLsb'_toNat]

end Sys2Proof.Machine

namespace Sys2Proof.Package

open Sys2Proof.Machine Sys2Proof.Claims

/-- Settles O52: a scalar is pushed extended by zeros, and a queue source takes the entry at the head. -/
theorem queueEntries : Obligations.QueueEntries := by
  intro s g q
  refine ⟨fun v p _ => ⟨_, writeScalar_queue_items s g q p v, scalarEntry_low v, scalarEntry_high v⟩,
    fun w e es p h => ?_⟩
  have hraw := rawSource_queue g.stream p h
  have hvec : vecSource s g w.etype [.queue q p] 0 = e.val := congrArg Entry.val hraw
  refine ⟨fun _ => ⟨hvec, fun j => ?lane⟩, fun _ => ?scalar⟩
  case lane => rw [hvec, elemAt_eq_extract]
  case scalar =>
    have hscal : scal s g w [.queue q p] 0 = e.val.setWidth 64 := congrArg (fun e => e.val.setWidth 64) hraw
    rw [hscal]
    exact BitVec.setWidth_eq_extractLsb' (by decide)

end Sys2Proof.Package
end

section
/-! The words of B: SYNC, FENCE, KTRIG and TEND after the rendezvous (R38, R110, R209, R284, R285). -/

namespace Sys2Proof.Machine

open Sys2Proof Sys2Proof.Claims

/-! ### What the drain of a store buffer and an acquire keep -/

theorem cores_enterAs (s : State) (d : DieId) (a : List (Nat × List DieId)) (o : Origin) (cs : List Host.Cell) :
    (enterAs s d a o cs).cores = s.cores := by
  unfold enterAs
  split <;> rfl

theorem bankOf_enterAs (s : State) (g : Agent) (d : DieId) (a : List (Nat × List DieId)) (o : Origin)
    (cs : List Host.Cell) : bankOf (enterAs s d a o cs) g = bankOf s g := by
  simp only [bankOf, getBank, getCore, cores_enterAs]

theorem bankOf_modAux (s : State) (g : Agent) (c : CoreId) (b : BankId) (f : BankAux → BankAux) :
    bankOf (modAux s c b f) g = bankOf s g := getBank_modAux ..

theorem bankOf_drainOne (s : State) (g : Agent) (c : CoreId) (b : BankId) : bankOf (drainOne s c b) g = bankOf s g := by
  unfold drainOne
  split
  · rfl
  · rw [bankOf_enterAs, bankOf_modAux]

theorem bankOf_drainN (s : State) (g : Agent) (c : CoreId) (b : BankId) (n : Nat) :
    bankOf (drainN s c b n) g = bankOf s g := by
  induction n generalizing s with
  | zero => rfl
  | succ n ih => rw [drainN, ih, bankOf_drainOne]

theorem bankOf_drainAll (s : State) (g : Agent) (c : CoreId) (b : BankId) : bankOf (drainAll s c b) g = bankOf s g :=
  bankOf_drainN ..

theorem bankOf_acquireWrites (s : State) (g : Agent) (c : CoreId) (b : BankId) (ids : List Nat) (ds : List DieId) :
    bankOf (acquireWrites s c b ids ds) g = bankOf s g := by
  simp only [acquireWrites]
  split
  · rfl
  · exact bankOf_modAux ..

theorem bankOf_acquireAll (s : State) (g h : Agent) (x : Scope) (m : Word) : bankOf (acquireAll s h x m) g = bankOf s g := by
  rw [acquireAll, bankOf_acquireWrites, bankOf_drainAll]

theorem bankOf_fenceAcquire (s : State) (g h : Agent) (w : WordF) : bankOf (fenceAcquire s h w) g = bankOf s g := by
  unfold fenceAcquire
  split
  · exact bankOf_acquireAll ..
  · rfl

/-! ### B words that are ready -/

section

variable {w : WordF} {s : State}

/-- A bank whose three streams have arrived runs a task. -/
theorem readyB_task (h : readyB w s = true) : (bankOf (gathered s w.wait) s.cur).task.isSome = true := by
  simp only [readyB, Bool.and_eq_true] at h
  obtain ⟨⟨⟨⟨⟨⟨hm, -⟩, hp⟩, -⟩, -⟩, -⟩, -⟩ := h
  unfold slipAndWaitPass at hp
  unfold gathered
  split at hp
  · next t ht =>
    rw [modStOf_task, passSlipWait_task ht]
    exact mayEvaluate_task hm
  · cases hp

variable {body : State → Agent → Res Done} {t : State} (h : readyB w s = true)

include h

/-- A B word whose effect leaves its bank's task commits in all three streams. -/
theorem runB_commits (hb : body (gathered s w.wait) s.cur = done t)
    (ht : (bankOf t s.cur).task = (bankOf (gathered s w.wait) s.cur).task) : runB w body s = .next (commitB t s.cur) := by
  rw [runB_ready h, hb, done, finishB_commit (ht ▸ readyB_task h)]

/-- A B word whose effect may end its bank's task commits unless it has. -/
theorem runB_commitsUnlessEnded (hb : body (gathered s w.wait) s.cur = done t) :
    runB w body s = .next (if (bankOf t s.cur).task.isNone then t else commitB t s.cur) := by
  rw [runB_ready h, hb]
  rfl

theorem runB_stalls {why : StallStep} (hb : body (gathered s w.wait) s.cur = stall t why) :
    runB w body s = .next (stallAll t s.cur why) := by
  rw [runB_ready h, hb]
  rfl

theorem sync_commits : exec (.sync w) s = .next (commitB (gathered s w.wait) s.cur) := by
  dsimp only [exec]
  exact runB_commits h rfl rfl

section

variable {u : Unit} (hm : checkFenceMask (gathered s w.wait) s.cur w = .ok u)
  (hl : lostDie (gathered s w.wait) w.scope (fenceMask (gathered s w.wait) s.cur w) = none)

include hm hl

theorem fence_commits (hf : fenceReady (gathered s w.wait) s.cur w = true) :
    exec (.fence w) s = .next (commitB (fenceAcquire (gathered s w.wait) s.cur w) s.cur) := by
  dsimp only [exec]
  exact runB_commits h (by simp only [hm, hl, hf]; rfl) (congrArg Bank.task (bankOf_fenceAcquire ..))

theorem fence_waits (hf : fenceReady (gathered s w.wait) s.cur w = false) :
    exec (.fence w) s = .next (pendAll (gathered s w.wait) s.cur .fence 0 w) := by
  dsimp only [exec]
  rw [execFence, runB_ready h]
  simp only [hm, hl, hf]
  rfl

end

theorem ktrig_counts (hr : releaseReady (gathered s w.wait) s.cur .device 0 = true) :
    let t := modAux (gathered s w.wait) s.cur.core s.cur.bank (fun a => { a with ktrig := true })
    let u := countTrigger t (taskOf t s.cur)
    exec (.ktrig w) s = .next (if (bankOf u s.cur).task.isNone then u else commitB u s.cur) := by
  dsimp only [exec]
  exact runB_commitsUnlessEnded h (by simp only [hr]; rfl)

theorem ktrig_waits (hr : releaseReady (gathered s w.wait) s.cur .device 0 = false) :
    exec (.ktrig w) s = .next (stallAll (gathered s w.wait) s.cur .op) := by
  dsimp only [exec]
  exact runB_stalls h (by simp only [hr]; rfl)

theorem tend_ends (ho : opsOut (gathered s w.wait) s.cur = false) (hp : postedDone (gathered s w.wait) s.cur = true) :
    let t := drainAll (gathered s w.wait) s.cur.core s.cur.bank
    let u := endTask t s.cur.core s.cur.bank (taskOf t s.cur)
    exec (.tend w) s = .next (if (bankOf u s.cur).task.isNone then u else commitB u s.cur) := by
  dsimp only [exec]
  exact runB_commitsUnlessEnded h (by simp only [ho, hp]; rfl)

theorem tend_waits (hw : opsOut (gathered s w.wait) s.cur = true ∨ postedDone (gathered s w.wait) s.cur = false) :
    exec (.tend w) s = .next (stallAll (gathered s w.wait) s.cur .op) := by
  have hc : (opsOut (gathered s w.wait) s.cur || !postedDone (gathered s w.wait) s.cur) = true := by
    rw [Bool.or_eq_true, Bool.not_eq_true']
    exact hw
  dsimp only [exec]
  exact runB_stalls h (by simp only [hc]; rfl)

end

end Sys2Proof.Machine

namespace Sys2Proof.Package

open Sys2Proof.Machine Sys2Proof.Claims

/-- Settles O13: after the rendezvous each word does its operation and commits, or waits for what it names. -/
theorem bWords : Obligations.BWords := by
  intro w s h
  exact ⟨sync_commits h, fun u hm hl => ⟨fence_commits h hm hl, fence_waits h hm hl⟩, ktrig_counts h, ktrig_waits h,
    tend_ends h, tend_waits h⟩

end Sys2Proof.Package
end

section
/-! Events of dispatch: starts, swaps, queue fills and continuations (R96, R99, R246, R248, R254). -/

namespace Sys2Proof.Machine

open Sys2Proof Sys2Proof.Claims

/-! ### What a swap keeps of its core -/

theorem urgen_swap_deferFault (s : State) (g : Agent) (f : FaultInfo) (src : FaultSrc) (c : CoreId) :
    (getCore (deferFault s g f src) c).urgen = (getCore s c).urgen
      ∧ (getCore (deferFault s g f src) c).swap = (getCore s c).swap := by
  by_cases h : g.core = c
  · subst h
    simp [deferFault, modStOf, modBankOf, modBank, setBank]
  · simp [deferFault, modStOf, modBankOf, modBank, setBank, getCore_modCore_ne _ _ _ _ h]

theorem urgen_swap_deferAll (g : Agent) (f : Fin 32 → FaultInfo) (src : FaultSrc) (c : CoreId) (ns : List (Fin 32))
    (s : State) :
    (getCore (foldAll s ns (fun s n => deferFault s g (f n) src)) c).urgen = (getCore s c).urgen
      ∧ (getCore (foldAll s ns (fun s n => deferFault s g (f n) src)) c).swap = (getCore s c).swap := by
  induction ns generalizing s with
  | nil => exact ⟨rfl, rfl⟩
  | cons n ns ih =>
    obtain ⟨hu, hw⟩ := urgen_swap_deferFault s g (f n) src c
    obtain ⟨ihu, ihw⟩ := ih (deferFault s g (f n) src)
    exact ⟨ihu.trans hu, ihw.trans hw⟩

/-- The clearing of the reserved resources leaves URGEN and the swap itself (R98). -/
theorem urgen_swap_swapReserved (s : State) (c : CoreId) :
    (getCore (swapReserved s c) c).urgen = (getCore s c).urgen ∧ (getCore (swapReserved s c) c).swap = (getCore s c).swap := by
  simp only [swapReserved, zeroReserved, getCore_modCore]
  split
  · exact ⟨rfl, rfl⟩
  · exact urgen_swap_deferAll ..

theorem beginSwap_core (s : State) (c : CoreId) (e : Enters) :
    (getCore (beginSwap s c e) c).urgen = true ∧ (getCore (beginSwap s c e) c).swap = .toShadow (s.cal.cycle + 64) e := by
  simp only [beginSwap, urgen_swap_swapReserved, getCore_modCore, true_and]
  rfl

theorem endSwap_core (s : State) (c : CoreId) :
    (getCore (endSwap s c) c).urgen = false ∧ (getCore (endSwap s c) c).swap = .none := by
  simp only [endSwap, getCore_modCore, and_self]

/-! ### The events -/

section

variable {c : CoreId} {s : State}

theorem taskDispatch_due {k : QEntry} (hc : coreServes s c = true) (hb : (getBank s c .active).task = none)
    (hs : (getCore s c).swap = .none) (hl : listedNow s c .active = false) (hk : nextCand s c false = some k) :
    exec (.taskDispatch c) s = .next (enterBank (passP3 (takeCand s c k.order) c) c .active k.what) := by
  simp [exec, execTaskDispatch, hc, hb, hs, hl, hk]

theorem shadowSwap_due {k : QEntry} (hc : coreServes s c = true) (hb : (getBank s c .shadow).task = none)
    (hs : (getCore s c).swap = .none) (hl : listedNow s c .shadow = false) (hk : nextCand s c true = some k) :
    exec (.shadowSwap c) s = .next (beginSwap (takeCand s c k.order) c k.what) := by
  simp [exec, execShadowSwap, hc, hb, hs, hl, hk]

theorem shadowBankStart_starts {due : Nat} {e : Enters} {t : Task} (hs : (getCore s c).swap = .toShadow due e)
    (hd : due ≤ s.cal.cycle) (he : entersLive s e = true) (ht : entersTask s e = some t) (hm : mayEnter s t e = true)
    (hp : spoiled s e = none) :
    exec (.shadowBankStart c) s = .next (enterShadow (modCore s c (fun k => { k with swap := .urgent })) c e) := by
  simp [exec, execShadowBankStart, hs, not_lt.mpr hd, he, ht, hm, hp]

theorem shadowBankStart_cancelled {due : Nat} {e : Enters} (hs : (getCore s c).swap = .toShadow due e)
    (hd : due ≤ s.cal.cycle) (he : entersLive s e = false) :
    exec (.shadowBankStart c) s = .next (modCore s c (fun k => { k with swap := .toActive (s.cal.cycle + 64) })) := by
  simp [exec, execShadowBankStart, hs, not_lt.mpr hd, he]

theorem activeBankResume_back {due : Nat} (hs : (getCore s c).swap = .toActive due) (hd : due ≤ s.cal.cycle)
    (hk : nextCand s c true = none) : exec (.activeBankResume c) s = .next (endSwap s c) := by
  simp [exec, execActiveBankResume, hs, not_lt.mpr hd, hk]

theorem tileQueueFill_wait {w : WaitEntry} (hw : s.disp.waits.find? (fun w => waitCore s w == some c) = some w) :
    exec (.tileQueueFill c) s
      = .next (enterWait (modDisp s (fun d => { d with waits := dropFirst (fun w => waitCore s w == some c) d.waits })) c w) := by
  simp only [exec, execTileQueueFill, hw]

theorem tileQueueFill_pool {q : QTask} (hw : s.disp.waits.find? (fun w => waitCore s w == some c) = none)
    (hr : (getCore s c).work.tile.length < 8) (hq : argMin (poolScore s) (fillCands s c) = some q) :
    exec (.tileQueueFill c) s = .next (fillTile s c q) := by
  simp [exec, execTileQueueFill, hw, not_le.mpr hr, hq]

theorem fillTile_tile (s : State) (c : CoreId) (q : QTask) :
    (getCore (fillTile s c q) c).work.tile = (getCore s c).work.tile ++ [{ q with arrived := s.disp.order }] := by
  simp only [fillTile, getCore_modCore]
  rfl

/-! ### Continuations (R254) -/

variable {x : CtxId} {n : Nat} {k : Cont}

/-- The first element that passes a test is the first that passes it and another that it passes too. -/
theorem find?_and_of_find? {α : Type} {l : List α} {p q : α → Bool} {a : α} (h : l.find? p = some a) (hq : q a = true) :
    l.find? (fun y => p y && q y) = some a := by
  rw [List.find?_eq_some_iff_append] at h ⊢
  obtain ⟨hp, as, bs, rfl, hn⟩ := h
  exact ⟨by rw [hp, hq]; rfl, as, bs, rfl, fun y hy => by rw [Bool.not_eq_true', (Bool.not_eq_true' _).mp (hn y hy)]; rfl⟩

/-- A continuation that is READY or whose condition holds is due, unless it already waits and has no core to enter. -/
theorem contReady_due (hk : (getCaux s x).conts.find? (fun k => k.slot == n) = some k) (hq : k.queued = false)
    (hr : k.ready = true ∨ contHolds s k = true) (hc : k.ready = false ∨ (contCore s k).isSome = true) :
    exec (.contReady x n) s = .next (readyCont s x n (contCore s k)) := by
  have hf := find?_and_of_find? (q := fun k => !k.queued) hk ((Bool.not_eq_true' _).mpr hq)
  simp only [exec, execContReady, hf]
  refine if_neg ?_
  obtain hw | hc := hc
  · simp [hw, hr.resolve_left (ne_of_eq_of_ne hw Bool.false_ne_true)]
  · rw [← Option.not_isNone, Bool.not_eq_true'] at hc
    obtain hr | hr := hr <;> simp [hr, hc]

/-- The continuation of a slot, now READY; it enters a queue or waits. -/
def markReady (queued : Bool) (n : Nat) (y : Cont) : Cont :=
  if y.slot = n then { y with ready := true, queued := queued } else y

theorem find?_markReady {l : List Cont} (q : Bool) (h : l.find? (fun k => k.slot == n) = some k) :
    (l.map (markReady q n)).find? (fun k => k.slot == n) = some (markReady q n k) := by
  have hslot : ((fun k : Cont => k.slot == n) ∘ markReady q n) = (fun k => k.slot == n) := by
    funext y
    simp only [Function.comp, markReady]
    split <;> rfl
  rw [List.find?_map, hslot, h]
  rfl

theorem readyCont_queues {d : CoreId} (hk : (getCaux s x).conts.find? (fun k => k.slot == n) = some k) :
    (getCore (readyCont s x n (some d)) d).work.ready = (getCore s d).work.ready ++
      [{ what := .slot x n, pinned := k.pinned, prio := k.task.prio, order := s.disp.order }] := by
  have hpinned : (markReady true n k).pinned = k.pinned := by unfold markReady; split <;> rfl
  have htask : (markReady true n k).task = k.task := by unfold markReady; split <;> rfl
  let t := modCaux s x (fun a => { a with conts := a.conts.map (markReady true n) })
  have hf : (getCaux t x).conts.find? (fun k => k.slot == n) = some (markReady true n k) := by
    rw [getCaux_modCaux]
    exact find?_markReady true hk
  simp only [readyCont]
  split
  · next hd hk' =>
    obtain rfl := Option.some.inj hd
    obtain rfl := Option.some.inj (hf.symm.trans hk')
    rw [pushReady, getCore_modCore, hpinned, htask]
    rfl
  · next hno => exact (hno _ _ rfl hf).elim

theorem readyCont_waits : (getCaux (readyCont s x n none) x).conts = (getCaux s x).conts.map (markReady false n) := by
  simp only [readyCont, getCaux_modCaux]
  rfl

end

end Sys2Proof.Machine

namespace Sys2Proof.Package

open Sys2Proof.Machine Sys2Proof.Claims

/-- Settles O35: each event is due by its hypotheses; the clearing of the reserved resources leaves the swap, and a
continuation that is due enters its queue or waits as READY. -/
theorem dispatchEvents : Obligations.DispatchEvents := by
  intro c s
  refine ⟨fun k hc hb hs hl hk => taskDispatch_due hc hb hs hl hk,
    fun k hc hb hs hl hk => ⟨_, shadowSwap_due hc hb hs hl hk, beginSwap_core ..⟩,
    fun due e t hs hd he ht hm hp => shadowBankStart_starts hs hd he ht hm hp,
    fun due e hs hd he => shadowBankStart_cancelled hs hd he,
    fun due hs hd _ hk => ⟨_, activeBankResume_back hs hd hk, endSwap_core ..⟩,
    fun q hw hr hq => ⟨tileQueueFill_pool hw hr hq, fillTile_tile ..⟩,
    fun w hw => tileQueueFill_wait hw,
    fun x n k hk hq hr => ⟨fun d hd => ?queues, fun hd hw => ?waits⟩⟩
  case queues => exact ⟨_, contReady_due hk hq hr (.inr (by rw [hd]; rfl)), hd ▸ readyCont_queues hk⟩
  case waits => exact ⟨_, contReady_due hk hq hr (.inl hw), hd ▸ readyCont_waits⟩

end Sys2Proof.Package
end

section
/-! How a word of X that is ready ends (R33, R37, R112, R116, R376), and the element-wise forms. -/

namespace Sys2Proof.Machine

open Sys2Proof Sys2Proof.Claims

/-! ### The task of the bank stays -/

theorem setFp_task (s : State) (g : Agent) (f : Flagset) : (bankOf (setFp s g f) g).task = (bankOf s g).task :=
  modBankOf_task fun _ => rfl

theorem putElems_task (s : State) (g : Agent) (w : WordF) (n : Nat) (rs : List (Nat × Flagset)) :
    (bankOf (putElems s g w n rs) g).task = (bankOf s g).task :=
  (writeVec_task ..).trans (setFp_task ..)

theorem putVec_task (s : State) (g : Agent) (w : WordF) (n : Nat) (v : Vec) :
    (bankOf (putVec s g w n v) g).task = (bankOf s g).task := writeVec_task ..

theorem putMask_task (s : State) (g : Agent) (w : WordF) (n : Nat) (v : Word) :
    (bankOf (putMask s g w n v) g).task = (bankOf s g).task := writeMask_task ..

theorem putPart_task (s : State) (g : Agent) (w : WordF) (wd lo : Nat) (rs : List (Nat × Flagset)) :
    (bankOf (putPart s g w wd lo rs) g).task = (bankOf s g).task :=
  (writeVec_task ..).trans (setFp_task ..)

/-! ### Words of X -/

section

variable {w : WordF} {srcs : List Operand} {pushes : List (Fin 16 × Nat)} {perLane rounds : Bool} {s : State}

/-- No register is marked that a word reads which rounds by its mode field, if `rounds` says that it does. -/
def roundingClear (w : WordF) (s : State) (rounds : Bool) : Prop :=
  (if rounds then srMarked (bankOf (begun s w.wait) s.cur).sregs w.mod.toNat else none) = none

theorem roundingClear_false : roundingClear w s false := rfl

theorem roundReady_iff : roundReady w srcs pushes s = true
    ↔ vectorReady w srcs pushes true s = true ∧ srMarked (bankOf (begun s w.wait) s.cur).sregs w.mod.toNat = none := by
  rw [roundReady, Bool.and_eq_true, Option.isNone_iff_eq_none]

/-- Where no register is marked that rounding reads, the word goes on whether it rounds or not. -/
theorem roundReady_clear (h : roundReady w srcs pushes s = true) (rounds : Bool) : roundingClear w s rounds := by
  cases rounds with
  | false => rfl
  | true => exact (roundReady_iff.mp h).2

theorem vectorReady_iff : vectorReady w srcs pushes perLane s = true
    ↔ ready w perLane s = true ∧ (getAux (begun s w.wait) s.cur.core s.cur.bank).datapathBad = false
      ∧ sourcesOk (begun s w.wait) s.cur srcs pushes = true := by
  rw [vectorReady, Bool.and_eq_true, Bool.and_eq_true, Bool.not_eq_true', and_assoc]

/-- A word of X that goes on to its effect takes its sources, and its effect commits. -/
theorem runX_commits (h : vectorReady w srcs pushes perLane s = true) (hm : roundingClear w s rounds)
    {f : State → Agent → State}
    (ht : (bankOf (f (begun s w.wait) s.cur) s.cur).task = (bankOf (begun s w.wait) s.cur).task) :
    runX w perLane (fun s g => do takeSources s g srcs pushes; donePop (f s g) srcs) s rounds
      = .next (commits w s (f (begun s w.wait) s.cur) srcs none) := by
  obtain ⟨hr, hd, hs⟩ := vectorReady_iff.mp h
  rw [roundingClear] at hm
  exact runWord_commits hr (by simp only [hd, hm, takeSources_ok hs]; rfl) ht

/-- `runX_commits` where no register is marked that rounding reads. -/
theorem runX_commits_of_roundReady (h : roundReady w srcs pushes s = true) {f : State → Agent → State}
    (ht : (bankOf (f (begun s w.wait) s.cur) s.cur).task = (bankOf (begun s w.wait) s.cur).task) :
    runX w true (fun s g => do takeSources s g srcs pushes; donePop (f s g) srcs) s rounds
      = .next (commits w s (f (begun s w.wait) s.cur) srcs none) :=
  runX_commits (roundReady_iff.mp h).1 (roundReady_clear h rounds) ht

/-- R69, R376: a word of X that rounds by a marked register raises ECCU. -/
theorem runX_marked {n : Nat} {body : State → Agent → Res Done} (h : vectorReady w srcs pushes perLane s = true)
    (hm : srMarked (bankOf (begun s w.wait) s.cur).sregs w.mod.toNat = some n) :
    runX w perLane body s true = .next (wordFault (begun s w.wait) s.cur (eccRegs n) false false) := by
  obtain ⟨hr, hd, -⟩ := vectorReady_iff.mp h
  exact runWord_faults hr (by simp only [hd, hm]; rfl)

/-! ### Element-wise forms -/

/-- A source that a form does not have is zero. -/
theorem vecSource_absent {t : EType} {k : Nat} (hk : srcs.length ≤ k) (s : State) (g : Agent) : vecSource s g t srcs k = 0 := by
  have hn : srcs[k]? = none := List.getElem?_eq_none hk
  simp only [vecSource, whole, rawSource, hn]

theorem elemAt_lt (v : Vec) (n i : Nat) : elemAt v n i < 2 ^ n := Nat.mod_lt _ (Nat.two_pow_pos n)

theorem elemAt_zero (n i : Nat) : elemAt 0 n i = 0 := by
  simp only [elemAt, BitVec.ofNat_eq_ofNat, BitVec.toNat_zero, Nat.zero_shiftRight, Nat.zero_mod]

theorem getD_sources (s : State) (g : Agent) (t : EType) (k : Nat) :
    (((List.range srcs.length).map (vecSource s g t srcs))[k]?).getD 0 = vecSource s g t srcs k := by
  obtain hk | hk := Nat.lt_or_ge k srcs.length
  · rw [List.getElem?_map, List.getElem?_range hk]
    rfl
  · rw [vecSource_absent hk, List.getElem?_eq_none (by simpa using hk)]
    rfl

/-- A form whose elements are functions of its sources' elements leaves those elements. -/
theorem mapForm_leaves (h : vectorReady w srcs (dstPush w.dst) true s = true) (hm : roundingClear w s rounds)
    (f : State → Agent → Nat → (Nat → Nat) → Nat × Flagset) :
    mapForm w srcs f s rounds = .next (elementsLeave w srcs (f (begun s w.wait) s.cur) s) := by
  simp only [mapForm, getD_sources]
  exact runX_commits h hm (putElems_task ..)

theorem mapForm_marked {n : Nat} (h : vectorReady w [] [] true s = true)
    (hm : srMarked (bankOf (begun s w.wait) s.cur).sregs w.mod.toNat = some n)
    (f : State → Agent → Nat → (Nat → Nat) → Nat × Flagset) :
    mapForm w srcs f s true = .next (wordFault (begun s w.wait) s.cur (eccRegs n) false false) := runX_marked h hm

/-- What an element-wise form leaves depends on its function at elements of the type's width alone, 0 for the sources that
the form does not have. -/
theorem elementsLeave_congr {f f' : Nat → (Nat → Nat) → Nat × Flagset}
    (hf : ∀ i e, (∀ k, e k < 2 ^ EType.width w.etype) → (∀ k, srcs.length ≤ k → e k = 0) → f i e = f' i e) :
    elementsLeave w srcs f s = elementsLeave w srcs f' s := by
  have he : ∀ i, f i (fun k => elemAt (vecSource (begun s w.wait) s.cur w.etype srcs k) (EType.width w.etype) i)
      = f' i (fun k => elemAt (vecSource (begun s w.wait) s.cur w.etype srcs k) (EType.width w.etype) i) := fun i =>
    hf i _ (fun k => elemAt_lt ..) (fun k hk => by rw [vecSource_absent hk, elemAt_zero])
  simp only [elementsLeave, he]

end

end Sys2Proof.Machine
end

section
/-! The results of the element-wise integer forms: the model's arithmetic of naturals is the table's of words (R117). -/

namespace Sys2Proof.Machine

open Sys2Proof Sys2Proof.Claims

/-! ### Elements as words of their width -/

/-- An element of the table, as the element-wise forms leave it. -/
def tableElem {n : Nat} (r : BitVec n × Bool) : Nat × Flagset := (r.1.toNat, if r.2 then fSATF else 0)

section

variable {n : Nat} (a b c : BitVec n) (sg : Bool)

theorem ofSigned_eq_toNat (x : Int) : ofSigned n x = (BitVec.ofInt n x).toNat := (BitVec.toNat_ofInt ..).symm

theorem wrap_eq (x : Int) : wrap n x = tableElem (BitVec.ofInt n x, false) := by
  rw [wrap, ofSigned_eq_toNat]
  rfl

theorem ofInt_toNat : BitVec.ofInt n a.toNat = a := by
  rw [BitVec.ofInt_natCast, BitVec.ofNat_toNat, BitVec.setWidth_eq]

theorem toSigned_toNat : toSigned n a.toNat = a.toInt := by
  rw [toSigned, BitVec.toInt, Nat.mod_eq_of_lt a.isLt]
  refine if_congr ?_ rfl rfl
  cases n with
  | zero => simp [BitVec.of_length_zero]
  | succ m => rw [Nat.add_sub_cancel, Nat.pow_succ']; omega

theorem intOf_toNat : intOf sg n a.toNat = elemInt sg a := by
  rw [intOf, elemInt, toSigned_toNat, Nat.mod_eq_of_lt a.isLt]

theorem wrap_add : wrap n ((a.toNat : Int) + b.toNat) = tableElem (a + b, false) := by
  rw [wrap_eq, BitVec.ofInt_add, ofInt_toNat, ofInt_toNat]

theorem wrap_neg : wrap n (-(a.toNat : Int)) = tableElem (-a, false) := by
  rw [wrap_eq, BitVec.ofInt_neg, ofInt_toNat]

theorem wrap_sub : wrap n ((a.toNat : Int) - b.toNat) = tableElem (a - b, false) := by
  rw [wrap_eq, Int.sub_eq_add_neg, BitVec.ofInt_add, BitVec.ofInt_neg, ofInt_toNat, ofInt_toNat, BitVec.sub_eq_add_neg]

theorem wrap_mul : wrap n ((a.toNat : Int) * b.toNat) = tableElem (a * b, false) := by
  rw [wrap_eq, BitVec.ofInt_mul, ofInt_toNat, ofInt_toNat]

theorem wrap_mul_add : wrap n ((a.toNat : Int) * b.toNat + c.toNat) = tableElem (a * b + c, false) := by
  rw [wrap_eq, BitVec.ofInt_add, BitVec.ofInt_mul, ofInt_toNat, ofInt_toNat, ofInt_toNat]

theorem wrap_abs : wrap n (if toSigned n a.toNat < 0 then -toSigned n a.toNat else toSigned n a.toNat)
    = tableElem (if a.toInt < 0 then -a else a, false) := by
  rw [toSigned_toNat, wrap_eq, apply_ite (BitVec.ofInt n), BitVec.ofInt_neg, BitVec.ofInt_toInt]

/-! ### Saturation -/

theorem intMin_le_intMax : intMin sg n ≤ intMax sg n := by
  have hn := Nat.two_pow_pos n
  have hp := Nat.two_pow_pos (n - 1)
  cases sg <;> simp only [intMin, intMax, Bool.false_eq_true, if_false, if_true] <;> omega

theorem clampTo_eq {lo hi : Int} (h : lo ≤ hi) (x : Int) :
    clampTo lo hi x = (max lo (min hi x), decide (x < lo) || decide (hi < x)) := by
  rw [clampTo]
  split
  · next hl => rw [max_eq_left (by omega), decide_eq_true hl, Bool.true_or]
  · next hl =>
    split
    · next hh => rw [min_eq_left hh.le, max_eq_right h, decide_eq_true hh, Bool.or_true]
    · next hh =>
      rw [min_eq_right (not_lt.mp hh), max_eq_right (not_lt.mp hl), decide_eq_false hl, decide_eq_false hh, Bool.or_false]

theorem satRes_eq (x : Int) : satRes sg n x = tableElem (clampInt sg n x) := by
  rw [satRes, clampTo_eq (intMin_le_intMax sg)]
  exact Prod.ext (ofSigned_eq_toNat _) rfl

/-! ### Patterns of bits -/

theorem pat_toNat : pat a.toNat = tableElem (a, false) := rfl

theorem pat_andNot : pat (a.toNat &&& (2 ^ n - 1 - b.toNat)) = tableElem (a &&& ~~~b, false) := by
  rw [← pat_toNat, BitVec.toNat_and, BitVec.toNat_not]

theorem pat_shl (k : Nat) : pat (a.toNat * 2 ^ k % 2 ^ n) = tableElem (a <<< k, false) := by
  rw [← pat_toNat, BitVec.toNat_shiftLeft, Nat.shiftLeft_eq]

theorem pat_shr (k : Nat) : pat (a.toNat / 2 ^ k) = tableElem (a >>> k, false) := by
  rw [← pat_toNat, BitVec.toNat_ushiftRight, Nat.shiftRight_eq_div_pow]

theorem pat_sra (k : Nat) : pat (sraOf n a.toNat k) = tableElem (a.sshiftRight k, false) := by
  rw [← pat_toNat, sraOf, toSigned_toNat, ofSigned_eq_toNat, ← Int.shiftRight_eq_div_pow]
  rfl

theorem pat_ite (p : Prop) [Decidable p] : pat (if p then b.toNat else a.toNat) = tableElem (if p then b else a, false) := by
  rw [← pat_toNat, apply_ite BitVec.toNat]

theorem pat_clz : pat (clzOf n a.toNat) = tableElem (a.clz, false) := by
  rw [← pat_toNat, clzOf]
  congr 1
  split
  · next h =>
    have h0 : a = 0 := BitVec.eq_of_toNat_eq h
    rw [BitVec.clz_eq_iff_eq_zero.mpr h0, BitVec.natCast_eq_ofNat, BitVec.toNat_ofNat, Nat.mod_eq_of_lt Nat.lt_two_pow_self]
  · next h =>
    have h0 : a ≠ 0 := fun h0 => h (h0 ▸ BitVec.toNat_zero)
    have hn : 0 < n := Nat.pos_of_ne_zero fun hn => h0 (by subst hn; exact BitVec.eq_nil a)
    have hlo : n - 1 - a.clz.toNat ≤ a.toNat.log2 :=
      (Nat.le_log2 h).mpr (BitVec.two_pow_sub_clz_le_toNat_of_ne_zero hn h0)
    have hhi : a.toNat.log2 < n - a.clz.toNat := (Nat.log2_lt h).mpr BitVec.toNat_lt_two_pow_sub_clz
    omega

theorem pat_popcount : pat (popOf n a.toNat)
    = tableElem (BitVec.ofNat n ((List.range n).countP (fun i => a.getLsbD i)), false) := by
  have hle : (List.range n).countP (fun i => a.getLsbD i) ≤ n := List.countP_le_length.trans_eq List.length_range
  rw [← pat_toNat, BitVec.toNat_ofNat, Nat.mod_eq_of_lt (hle.trans_lt Nat.lt_two_pow_self), popOf,
    ← List.countP_eq_length_filter]
  rfl

end

/-! ### The table -/

/-- Each form of the table makes its elements as the table says. -/
theorem exec_vectorInt_eq (w : WordF) (s : State) : ∀ p ∈ vectorInt, ∃ f, exec (p.1 w) s = intForm w p.2.1 f s
    ∧ ∀ (sg : Bool) (n : Nat) (a b c : BitVec n), f sg n a.toNat b.toNat c.toNat = tableElem (p.2.2 sg n a b c) := by
  simp only [vectorInt, List.forall_mem_cons, List.not_mem_nil, false_imp_iff, implies_true, and_true]
  refine ⟨?vadd, ?vsub, ?vmul, ?vmulh, ?vmadd, ?vsadd, ?vssub, ?vand, ?vor, ?vxor, ?vandn, ?vshl, ?vshr, ?vsra, ?vmin, ?vmax,
    ?vabs, ?vneg, ?vclz, ?vpopc⟩ <;> dsimp only [exec] <;> refine ⟨_, rfl, fun sg n a b c => ?_⟩
  case vadd => exact wrap_add a b
  case vsub => exact wrap_sub a b
  case vmul => exact wrap_mul a b
  case vmulh => rw [intOf_toNat, intOf_toNat, wrap_eq]
  case vmadd => exact wrap_mul_add a b c
  case vsadd => rw [intOf_toNat, intOf_toNat, satRes_eq]
  case vssub => rw [intOf_toNat, intOf_toNat, satRes_eq]
  case vand => rw [← BitVec.toNat_and, pat_toNat]
  case vor => rw [← BitVec.toNat_or, pat_toNat]
  case vxor => rw [← BitVec.toNat_xor, pat_toNat]
  case vandn => exact pat_andNot a b
  case vshl => exact pat_shl a _
  case vshr => exact pat_shr a _
  case vsra => exact pat_sra a _
  case vmin => rw [intOf_toNat, intOf_toNat, pat_ite]
  case vmax => rw [intOf_toNat, intOf_toNat, pat_ite]
  case vabs => exact wrap_abs a
  case vneg => exact wrap_neg a
  case vclz => exact pat_clz a
  case vpopc => exact pat_popcount a

end Sys2Proof.Machine

namespace Sys2Proof.Package

open Sys2Proof.Machine Sys2Proof.Claims

/-- Settles O24: each form of the table is an element-wise form with its table's result, and such a form leaves its elements. -/
theorem vectorIntegerForms : Obligations.VectorIntegerForms := by
  intro p hp w s srcs hready
  obtain ⟨f, hexec, htable⟩ := exec_vectorInt_eq w s p hp
  rw [hexec, intForm, mapForm_leaves hready roundingClear_false, elementsLeave_congr fun i e hlt _ => ?_]
  have hword (k : Nat) : e k = (BitVec.ofNat (EType.width w.etype) (e k)).toNat := by
    rw [BitVec.toNat_ofNat, Nat.mod_eq_of_lt (hlt k)]
  exact (congr (congr (congrArg (f _ _) (hword 0)) (hword 1)) (hword 2)).trans (htable ..)

end Sys2Proof.Package
end

section
/-! The element-wise floating-point forms (R119 to R122). -/

namespace Sys2Proof.Machine

open Sys2Proof Sys2Proof.Claims

/-! ### The tables -/

theorem exec_vectorRounded_eq (w : WordF) (s : State) : ∀ p ∈ vectorRounded, exec (p.1 w) s = floatForm w p.2.1 p.2.2 s := by
  simp only [vectorRounded, List.forall_mem_cons, List.not_mem_nil, false_imp_iff, implies_true, and_true]
  exact ⟨rfl, rfl, rfl, rfl, rfl, rfl⟩

theorem exec_vectorExact_eq (w : WordF) (s : State) :
    ∀ p ∈ vectorExact, exec (p.1 w) s = exactForm w p.2.1 (p.2.2 w) s := by
  simp only [vectorExact, List.forall_mem_cons, List.not_mem_nil, false_imp_iff, implies_true, and_true]
  exact ⟨rfl, rfl, rfl, rfl, rfl⟩

theorem exec_vectorFun_eq (w : WordF) (s : State) : ∀ p ∈ vectorFun, exec (p.1 w) s = fun1Form w p.2 s := by
  simp only [vectorFun, List.forall_mem_cons, List.not_mem_nil, false_imp_iff, implies_true, and_true]
  exact ⟨rfl, rfl, rfl, rfl, rfl⟩

/-! ### The forms -/

section

variable {w : WordF} {s : State} {n : Nat}

/-- The element of a source that a form does not have decodes as the encoding 0. -/
theorem decodeF_absent {srcs xs : List Operand} (hs : srcs = xs.take n) {e : Nat → Nat} (he : ∀ k, srcs.length ≤ k → e k = 0)
    (ff : FloatFmt) (k : Nat) : decodeF ff (e k) = if k < n then decodeF ff (e k) else decodeF ff 0 := by
  split
  · rfl
  · next hk => rw [he k ((hs ▸ List.length_take_le n xs).trans (not_lt.mp hk))]

theorem floatForm_leaves (h : roundReady w (([w.srcA, w.srcB, w.srcC]).take n) (dstPush w.dst) s = true)
    (f : Val → Val → Val → Val × Flagset) :
    floatForm w n f s = .next (elementsLeave w (([w.srcA, w.srcB, w.srcC]).take n) (fun i e =>
      let ff := fmtOf w.etype
      let x := f (decodeF ff (e 0)) (decodeF ff (e 1)) (if 2 < n then decodeF ff (e 2) else decodeF ff 0)
      let r := roundF ff (xRnd (begun s w.wait) s.cur (w.mod.toNat % 4) i) false false x.1
      (r.1, x.2 ||| r.2)) s) := by
  rw [floatForm, mapForm_leaves (roundReady_iff.mp h).1 (roundReady_clear h true)]
  refine congrArg Host.Outcome.next (elementsLeave_congr fun i e _ he => ?_)
  dsimp only
  rw [← decodeF_absent rfl he]

theorem exactForm_leaves (h : vectorReady w (([w.srcA, w.srcB]).take n) (dstPush w.dst) true s = true) (f : Val → Val → Val) :
    exactForm w n f s = .next (elementsLeave w (([w.srcA, w.srcB]).take n) (fun _ e =>
      let ff := fmtOf w.etype
      ((roundF ff .rne false false (f (decodeF ff (e 0)) (if 1 < n then decodeF ff (e 1) else decodeF ff 0))).1, 0)) s) := by
  rw [exactForm, mapForm_leaves h roundingClear_false]
  refine congrArg Host.Outcome.next (elementsLeave_congr fun i e _ he => ?_)
  dsimp only
  rw [← decodeF_absent rfl he]

/-- R69, R376: a form that rounds by a marked register raises ECCU. -/
theorem rounding_marked {m : Nat} (h : vectorReady w [] [] true s = true)
    (hm : srMarked (bankOf (begun s w.wait) s.cur).sregs w.mod.toNat = some m) :
    ∀ i ∈ vectorRounded.map (fun p => p.1 w) ++ vectorFun.map (fun p => p.1 w),
      exec i s = .next (wordFault (begun s w.wait) s.cur (eccRegs m) false false) := by
  intro i hi
  rw [List.mem_append, List.mem_map, List.mem_map] at hi
  obtain ⟨p, hp, rfl⟩ | ⟨p, hp, rfl⟩ := hi
  · rw [exec_vectorRounded_eq w s p hp, floatForm]
    exact mapForm_marked h hm _
  · rw [exec_vectorFun_eq w s p hp, fun1Form]
    exact mapForm_marked h hm _

end

end Sys2Proof.Machine

namespace Sys2Proof.Package

open Sys2Proof.Machine Sys2Proof.Claims

/-- Settles O25: each form of the tables is of one of three shapes, and a form of a shape leaves its elements; FCLASS is
element-wise, and a marked register stops the forms that round. -/
theorem vectorFloatForms : Obligations.VectorFloatForms := by
  intro w s
  refine ⟨fun p hp h => ?rounded, fun p hp h => ?exact, fun p hp h => ?functions, fun h => ?fclass,
    fun n h hm => rounding_marked h hm⟩
  case rounded =>
    rw [exec_vectorRounded_eq w s p hp]
    exact floatForm_leaves h p.2.2
  case exact =>
    rw [exec_vectorExact_eq w s p hp]
    exact exactForm_leaves h (p.2.2 w)
  case functions =>
    rw [exec_vectorFun_eq w s p hp, fun1Form]
    exact mapForm_leaves (roundReady_iff.mp h).1 (roundReady_clear h true) _
  case fclass =>
    dsimp only [exec, execFclass]
    exact mapForm_leaves h roundingClear_false _

end Sys2Proof.Package
end

section
/-! Compares, mask forms and VSEL (R123, R124). -/

namespace Sys2Proof.Machine

open Sys2Proof Sys2Proof.Claims

section

variable {w : WordF} {s : State}

theorem cmpForm_leaves (h : vectorReady w [w.srcA, w.srcB] [] true s = true) (f : Nat → Nat → Bool) :
    cmpForm w f s = .next (commits w s (putMask (begun s w.wait) s.cur w (EType.width w.etype)
      (maskOf (EType.width w.etype) (fun i =>
        f (elemAt (vecSource (begun s w.wait) s.cur w.etype [w.srcA, w.srcB] 0) (EType.width w.etype) i)
          (elemAt (vecSource (begun s w.wait) s.cur w.etype [w.srcA, w.srcB] 1) (EType.width w.etype) i))))
      [w.srcA, w.srcB] none) :=
  runX_commits h roundingClear_false (putMask_task ..)

theorem maskForm_leaves {n : Nat} (h : vectorReady w ([w.srcA, w.srcB].take n) [] true s = true) (f : Word → Word → Word) :
    maskForm w n f s = .next (commits w s (putMask (begun s w.wait) s.cur w 32
      (f (maskSource (begun s w.wait) s.cur ([w.srcA, w.srcB].take n) 0)
        (maskSource (begun s w.wait) s.cur ([w.srcA, w.srcB].take n) 1))) ([w.srcA, w.srcB].take n) none) :=
  runX_commits h roundingClear_false (putMask_task ..)

theorem maskCount_leaves (h : vectorReady w [w.srcA] (dstPush w.dst) true s = true) (f : Word → Nat) :
    maskCount w f s = .next (commits w s (putVec (begun s w.wait) s.cur w 32
      (BitVec.ofNat 2048 (f (maskSource (begun s w.wait) s.cur [w.srcA] 0)))) [w.srcA] none) :=
  runX_commits h roundingClear_false (putVec_task ..)

theorem popOf_eq_countP (m : Word) : popOf 64 m.toNat = (List.range 64).countP (fun i => m.getLsbD i) :=
  List.countP_eq_length_filter.symm

end

end Sys2Proof.Machine

namespace Sys2Proof.Package

open Sys2Proof.Machine Sys2Proof.Claims

/-- Settles O26: compares, forms of masks and counts are three shapes that leave their result; VSEL and MSET take their
sources and write theirs. -/
theorem vectorMaskForms : Obligations.VectorMaskForms := by
  intro w s
  refine ⟨fun h => ⟨?vcmp, ?fcmp, ?mand, ?mor, ?mxor⟩, fun h => ⟨?mnot, ?mset⟩, fun h => ⟨?mpopc, ?mfirst⟩, fun h => ?vsel⟩ <;>
    dsimp only [exec]
  case vcmp =>
    rw [execVcmp]
    exact cmpForm_leaves h _
  case fcmp =>
    rw [execFcmp]
    exact cmpForm_leaves h _
  case mand => exact maskForm_leaves (n := 2) h _
  case mor => exact maskForm_leaves (n := 2) h _
  case mxor => exact maskForm_leaves (n := 2) h _
  case mnot => exact maskForm_leaves (n := 1) h _
  case mset => exact runX_commits h roundingClear_false (putMask_task ..)
  case mpopc =>
    rw [← popOf_eq_countP]
    exact maskCount_leaves h _
  case mfirst => exact maskCount_leaves h firstSet
  case vsel => exact runX_commits h roundingClear_false (putVec_task ..)

end Sys2Proof.Package
end

section
/-! VDOT4 and conversions (R118, R125, R126). -/

namespace Sys2Proof.Machine

open Sys2Proof Sys2Proof.Claims

theorem flatMap_range_two {α : Type} (f : Nat → List α) : (List.range 2).flatMap f = f 0 ++ f 1 := by
  simp [List.range_succ]

/-- PACK converts the elements of srcA, then those of srcB. -/
theorem pack_leaves {w : WordF} {s : State} (h : roundReady w [w.srcA, w.srcB] (dstPush w.dst) s = true) :
    let n := 2048 / EType.width w.etype
    let d := (cvtDst w.srcC).getD .e8m0
    execPack w s = .next (commits w s (putPart (begun s w.wait) s.cur w (CvtDst.width d) 0 ((List.range 2).flatMap (fun k =>
      (List.range n).map (fun i => convert w.etype d (xRnd (begun s w.wait) s.cur (w.mod.toNat % 4) (k * n + i)) (w.mod.getLsbD 2)
        (elemAt (vecSource (begun s w.wait) s.cur w.etype [w.srcA, w.srcB] k) (EType.width w.etype) i)))))
      [w.srcA, w.srcB] none) := by
  simp only [flatMap_range_two]
  exact runX_commits_of_roundReady h (putPart_task ..)

end Sys2Proof.Machine

namespace Sys2Proof.Package

open Sys2Proof.Machine Sys2Proof.Claims

/-- Settles O27: each word takes its sources and writes its elements; PACK's are those of its two sources in turn (`pack_leaves`). -/
theorem vectorConversions : Obligations.VectorConversions := by
  intro w s
  refine ⟨fun h => ?vdot4, fun h => ⟨?cvt, ?unpack⟩, fun h => pack_leaves h⟩ <;> dsimp only [exec]
  case vdot4 => exact runX_commits h roundingClear_false (putElems_task ..)
  case cvt =>
    rw [execCvt]
    exact runX_commits_of_roundReady h (putPart_task ..)
  case unpack =>
    rw [execUnpack]
    exact runX_commits_of_roundReady h (putPart_task ..)

end Sys2Proof.Package
end

section
/-! Blocks of 64 elements (R127, R128). -/

namespace Sys2Proof.Machine

open Sys2Proof Sys2Proof.Claims

theorem putFlaggedVec_task (s : State) (g : Agent) (w : WordF) (f : Flagset) (n : Nat) (v : Vec) :
    (bankOf (putVec (setFp s g f) g w n v) g).task = (bankOf s g).task :=
  (putVec_task ..).trans (setFp_task ..)

end Sys2Proof.Machine

namespace Sys2Proof.Package

open Sys2Proof.Machine Sys2Proof.Claims

/-- Settles O28: a block word has one source for an MX format and two for NQ4; QENC writes its vector and its flags, QDEC its
elements. -/
theorem vectorBlocks : Obligations.VectorBlocks := by
  intro w s
  refine ⟨fun hn h => ⟨?mxEncode, ?mxDecode⟩, fun hn h => ⟨?nq4Encode, ?nq4Decode⟩⟩ <;> dsimp only [exec]
  case mxEncode =>
    simp only [execQenc, beq_false_of_ne hn, Bool.false_eq_true, if_false]
    exact runX_commits_of_roundReady h (putFlaggedVec_task ..)
  case mxDecode =>
    simp only [execQdec, beq_false_of_ne hn, Bool.false_eq_true, if_false, apply_ite (elemAt _ 8)]
    exact runX_commits_of_roundReady h (putElems_task ..)
  case nq4Encode =>
    simp only [execQenc, beq_iff_eq.mpr hn, if_true]
    exact runX_commits_of_roundReady h (putFlaggedVec_task ..)
  case nq4Decode =>
    simp only [execQdec, beq_iff_eq.mpr hn, if_true]
    exact runX_commits_of_roundReady h (putElems_task ..)

end Sys2Proof.Package
end

section
/-! Reductions and VSCAN (R130, R131). -/

namespace Sys2Proof.Machine

open Sys2Proof Sys2Proof.Claims

/-- A reduction leaves its result in element 0 and zero elsewhere. -/
theorem redForm_leaves {w : WordF} {s : State} (h : roundReady w [w.srcA, w.srcB] (dstPush w.dst) s = true)
    (f : State → Agent → List Nat → Nat × Flagset) (rounds : Bool) :
    let n := EType.width w.etype
    redForm w f s rounds = .next (commits w s (putElems (begun s w.wait) s.cur w n
      (f (begun s w.wait) s.cur (selectedElems n (maskSource (begun s w.wait) s.cur [w.srcA, w.srcB] 1)
        (vecSource (begun s w.wait) s.cur w.etype [w.srcA, w.srcB] 0) (2048 / n))
        :: List.replicate (2048 / n - 1) (0, 0))) [w.srcA, w.srcB] none) :=
  runX_commits_of_roundReady h (putElems_task ..)

end Sys2Proof.Machine

namespace Sys2Proof.Package

open Sys2Proof.Machine Sys2Proof.Claims

/-- Settles O30: VREDADD, VREDMAX and VREDMIN are reductions of the selected elements, and VSCAN writes its running sums. -/
theorem vectorReductions : Obligations.VectorReductions := by
  intro w s s1 g n srcs a m first rnd h
  refine ⟨?vredadd, ?vredmax, ?vredmin, ?vscan⟩ <;> dsimp only [exec]
  case vredadd =>
    rw [execVredadd]
    exact redForm_leaves h _ _
  case vredmax =>
    rw [execVredmax]
    exact redForm_leaves h _ _
  case vredmin =>
    rw [execVredmin]
    exact redForm_leaves h _ _
  case vscan =>
    rw [execVscan]
    exact runX_commits_of_roundReady h (putElems_task ..)

end Sys2Proof.Package
end

section
/-! VEXT under a lane mask (R37, R113, R133). -/

namespace Sys2Proof.Machine

open Sys2Proof Sys2Proof.Claims

/-- The 64-bit scalar that VEXT takes from its vector (R133). -/
def extracted (w : WordF) (s : State) : Word :=
  extendElem w.etype (readElem w.etype (vecSource (begun s w.wait) s.cur w.etype [w.srcA, w.srcB] 0)
    ((src s w [w.srcA, w.srcB] 1).toNat % elemCount (EType.width w.etype)))

/-- What VEXT leaves where the word's predicate selects its lanes as it does those of elements of n bits. -/
def extractedUnder (w : WordF) (s : State) (n : Nat) : State :=
  commits w s (putVec (begun s w.wait) s.cur w n ((extracted w s).setWidth 2048)) [w.srcA, w.srcB] none

/-- The predicate selects by the width of the word's type. -/
theorem vext_leaves {w : WordF} {s : State} (h : vectorReady w [w.srcA, w.srcB] (dstPush w.dst) true s = true) :
    exec (.vext w) s = .next (extractedUnder w s (EType.width w.etype)) := by
  dsimp only [exec]
  exact runX_commits h roundingClear_false (putVec_task ..)

/-- VEXT.s64 v3, v1, 0 under the mask register m2. -/
def maskedExtract : WordF := { tag := .x, dst := .reg 3, etype := .s64, srcA := .reg 1, srcB := .short 0, pidx := 2 }

/-- X is about to evaluate a word, with −1 in each element of v1, and lane 0 alone in m2. -/
def laneZeroSelected : State :=
  { modBank State.reset 0 .active (fun _ => { ({} : Bank) with
      task := some placedTask
      x := { run := .running }
      vec := { ({} : VecRegs) with
        v := (Vector.replicate 32 0).set 1 (BitVec.allOnes 2048)
        m := (Vector.replicate 8 0).set 2 1 } }) with
    cur := { core := 0, bank := .active, stream := .x } }

theorem maskedExtract_ready : vectorReady maskedExtract [.reg 1, .short 0] [] true laneZeroSelected = true := by
  decide +kernel

/-- The lanes 0 and 1 of v3. -/
def lowLanes (s : State) : Nat := ((bankOf s laneZeroSelected.cur).vec.v.get 3).toNat % 2 ^ 64

/-- The element's width selects both lanes by bit 0 of the mask, the width of a lane the first alone. -/
theorem lowLanes_extracted : lowLanes (extractedUnder maskedExtract laneZeroSelected 64) = 2 ^ 64 - 1
    ∧ lowLanes (extractedUnder maskedExtract laneZeroSelected 32) = 2 ^ 32 - 1 := by
  decide +kernel

end Sys2Proof.Machine

namespace Sys2Proof.Package

open Sys2Proof.Machine Sys2Proof.Claims

/-- What the statement has VEXT leave: its predicate selects each lane by the lane's own bit. -/
theorem vext_leaves_of_vectorPermutes (h : Obligations.VectorPermutes) {w : WordF} {s : State}
    (hr : vectorReady w [w.srcA, w.srcB] (dstPush w.dst) true s = true) :
    exec (.vext w) s = .next (extractedUnder w s 32) := by
  obtain ⟨-, htwo, -⟩ := h w s
  obtain ⟨-, -, -, -, -, hext⟩ := htwo hr
  exact hext

/-- Refutes O29: the statement writes each lane of VEXT's result under its own bit of the mask, where the model masks it by
the width of its type (R133, log 57). VEXT.s64 of −1 under a mask of lane 0 alone writes lanes 0 and 1, where the statement
leaves lane 1 as it was. -/
theorem not_vectorPermutes : ¬ Obligations.VectorPermutes := by
  intro h
  have hsame := Host.Outcome.next.inj
    ((vext_leaves maskedExtract_ready).symm.trans (vext_leaves_of_vectorPermutes h maskedExtract_ready))
  obtain ⟨hmodel, hstatement⟩ := lowLanes_extracted
  exact absurd (hmodel.symm.trans ((congrArg lowLanes hsame).trans hstatement)) (by decide)

end Sys2Proof.Package
end

section
/-! What an access that is served leaves: changes of the memory, the contexts, the dies and the translations, and no bank's task
(R23, R109, R223, R224, R238, R319). -/

namespace Sys2Proof.Machine

open Sys2Proof Sys2Proof.Claims

/-! ### Changes of the page fabric -/

/-- The changes that page moves, event records and the service of an access are made of. -/
inductive PageChange : State → State → Prop
  | refl (s : State) : PageChange s s
  | trans {s t u : State} (h : PageChange s t) (k : PageChange t u) : PageChange s u
  | memory (s : State) (f : MemSys → MemSys) : PageChange s (modMs s f)
  | context (s : State) (x : CtxId) (f : Ctx → Ctx) : PageChange s (modCtx s x f)
  | die (s : State) (d : DieId) (f : Die → Die) : PageChange s (modDie s d f)
  | number (s : State) : PageChange s (takeId s).1
  | translations (s : State) (c : CoreId) (f : List TlbEntry → List TlbEntry) :
      PageChange s (modCore s c (fun k => { k with tlb := f k.tlb }))
  | budget (s : State) (b : Budget) : PageChange s { s with bud := b }

/-- A change of the page fabric leaves every bank. -/
theorem PageChange.getBank {s t : State} (h : PageChange s t) (c : CoreId) (b : BankId) :
    getBank t c b = getBank s c b := by
  induction h with
  | trans _ _ ih ik => exact ik.trans ih
  | translations s d f =>
    simp only [Machine.getBank]
    by_cases hd : d = c
    · rw [hd, getCore_modCore]
      cases b <;> rfl
    · rw [getCore_modCore_ne _ _ _ _ hd]
  | _ => rfl

theorem PageChange.bankOf {s t : State} (h : PageChange s t) (g : Agent) : bankOf t g = bankOf s g := h.getBank ..

/-- A change that may not come is one where it comes. -/
theorem PageChange.getD {s : State} {o : Option State} (h : ∀ t, o = some t → PageChange s t) : PageChange s (o.getD s) := by
  cases o with
  | none => exact .refl s
  | some t => exact h t rfl

theorem foldAll_pageChange {α : Type} {f : State → α → State} (hf : ∀ s x, PageChange s (f s x)) (xs : List α) (s : State) :
    PageChange s (foldAll s xs f) := by
  induction xs generalizing s with
  | nil => exact .refl s
  | cons x xs ih => exact (hf s x).trans (ih (f s x))

/-! ### Page moves and event records -/

theorem settled_pageChange (s : State) : PageChange s (settled s) := by
  unfold settled
  exact .memory ..

theorem enterAll_pageChange (s : State) (d : DieId) (cs : List Host.Cell) : PageChange s (enterAll s d cs) :=
  (PageChange.number s).trans ((PageChange.memory _ _).trans (settled_pageChange _))

theorem invalidateDie_pageChange (s : State) (x : CtxId) (lo hi : Nat) (d : DieId) :
    PageChange s (invalidateDie s x lo hi d) := by
  refine (PageChange.die s d _).trans (foldAll_pageChange (fun s c => ?_) _ _)
  split
  · exact .refl s
  · exact .translations s c _

theorem rewrite_pageChange (s : State) (a : Nat) (e : Pte) (x : CtxId) (lo hi : Nat) :
    PageChange s (invalidateTouched (writePte s a e) x lo hi) := by
  have hw : PageChange s (writePte s a e) := by
    unfold writePte
    split
    · exact .refl s
    · exact enterAll_pageChange ..
  exact hw.trans (foldAll_pageChange (fun s d => invalidateDie_pageChange s x lo hi d) _ _)

theorem takeFrame_pageChange {s t : State} {x : CtxId} {tier f home : Nat} {hsh : Bool}
    (h : takeFrame s x tier hsh home = some (t, f)) : PageChange s t := by
  unfold takeFrame at h
  split at h
  · cases h
  · cases h
    exact .memory ..

theorem takeTable_pageChange {s t : State} {x : CtxId} {f : Nat} (h : takeTable s x = some (t, f)) : PageChange s t := by
  unfold takeTable at h
  split at h
  · next h8 => cases h; exact takeFrame_pageChange h8
  · split at h
    · next h9 => cases h; exact takeFrame_pageChange h9
    · exact takeFrame_pageChange h

theorem splitLarge_pageChange {s t : State} {x : CtxId} {l : Leaf} (h : splitLarge s x l = some t) : PageChange s t := by
  unfold splitLarge at h
  split at h
  · cases h
  · next u f hu =>
    cases h
    exact (takeTable_pageChange hu).trans ((enterAll_pageChange ..).trans (rewrite_pageChange ..))

theorem takeZeroFrame_pageChange {s t : State} {x : CtxId} {l : Leaf} (h : takeZeroFrame s x l = some t) : PageChange s t := by
  simp only [takeZeroFrame] at h
  split at h
  · cases h
  · split at h
    · cases h
    · next u f hu =>
      cases h
      exact (takeFrame_pageChange hu).trans (rewrite_pageChange ..)

/-- R216: the device's own store splits a large page and takes a frame, each where it can. -/
theorem deviceFrame_pageChange (s : State) (x : CtxId) (va : Nat) : PageChange s (deviceFrame s x va) := by
  have hsplit (l : Leaf) : PageChange s (if l.large = true then (splitLarge s x l).getD s else s) := by
    split
    · exact .getD (fun _ h => splitLarge_pageChange h)
    · exact .refl s
  simp only [deviceFrame]
  split
  · next l _ =>
    split
    · exact .refl s
    · refine (hsplit l).trans ?_
      generalize (if l.large = true then (splitLarge s x l).getD s else s) = u
      split
      · split
        · exact .refl u
        · exact .getD (fun _ h => takeZeroFrame_pageChange h)
      · exact .refl u
  · exact .refl s

theorem logEvent_pageChange (s : State) (x : CtxId) (kind die core arg : Nat) (kinst : Word) (detail : Nat) :
    PageChange s (logEvent s x kind die core arg kinst detail) := by
  simp only [logEvent]
  split
  · exact (PageChange.context s x _).trans (deviceFrame_pageChange ..)
  · exact ((PageChange.context s x _).trans (deviceFrame_pageChange ..)).trans (enterAll_pageChange ..)

/-! ### Accesses -/

theorem touchAll_pageChange (s : State) (x : CtxId) (ds : List DieId) : PageChange s (touchAll s x ds) := by
  induction ds generalizing s with
  | nil => exact .refl s
  | cons d ds ih => exact (PageChange.context s x _).trans (ih (touch s x d))

/-- R23, R224, R319: an access that is served touches its homes, counts its bytes and logs a MULTIHIT. -/
theorem served_pageChange (s : State) (q : Req) (ps : List Part) : PageChange s (served s q ps) := by
  refine ((touchAll_pageChange s q.ctx _).trans (foldAll_pageChange (fun s d => .budget s _) _ _)).trans
    (foldAll_pageChange (fun s p => ?_) _ _)
  split
  · exact logEvent_pageChange ..
  · exact .refl s

theorem countMisses_task (s : State) (g : Agent) (n : Nat) : (bankOf (countMisses s g n) g).task = (bankOf s g).task := by
  unfold countMisses
  split
  · rfl
  · exact modBankOf_task fun k => modRegs_task ..

/-- R109: a word's accesses are counted once they are served. -/
theorem countMisses_served_task (s : State) (g : Agent) (q : Req) (ps : List Part) (n : Nat) :
    (bankOf (countMisses (served s q ps) g n) g).task = (bankOf s g).task := by
  rw [countMisses_task, (served_pageChange s q ps).bankOf]

theorem wordServed_task (s : State) (g : Agent) (cs : List Checked) : (bankOf (wordServed s g cs) g).task = (bankOf s g).task :=
  countMisses_served_task ..

section

variable {s : State} {g : Agent} {wr : Bool} {va : Word} {len align : Nat}

theorem wordAccess_task {r : State × List (Option Nat)} (h : wordAccess s g wr va len align = .ok r) :
    (bankOf r.1 g).task = (bankOf s g).task := by
  simp only [wordAccess, bind, Except.bind] at h
  split at h
  · cases h
  · cases h
    exact wordServed_task ..

theorem wordLoad_task {r : State × List Byte} (h : wordLoad s g va len align = .ok r) :
    (bankOf r.1 g).task = (bankOf s g).task := by
  simp only [wordLoad, bind, Except.bind] at h
  split at h
  · cases h
  · next ha =>
    cases h
    exact wordAccess_task ha

theorem wordAccesses_task {vas : List Word} {r : State × List (List (Option Nat))}
    (h : wordAccesses s g wr len vas = .ok r) : (bankOf r.1 g).task = (bankOf s g).task := by
  simp only [wordAccesses, bind, Except.bind] at h
  split at h
  · cases h
  · cases h
    exact countMisses_served_task ..

theorem indexedAccess_task {t : EType} {vas : List (Option Word)} {r : State × List (List (Option Nat))}
    (h : indexedAccess s g wr t vas = .ok r) : (bankOf r.1 g).task = (bankOf s g).task := by
  simp only [indexedAccess, bind, Except.bind] at h
  split at h
  · cases h
  · cases h
    exact countMisses_served_task ..

end

end Sys2Proof.Machine
end

section
/-! Loads: what LD, LDACQ, LDQ, LDQS and GATHQ give their destination (R139, R140, R143, R144, R196, R206). -/

namespace Sys2Proof.Machine

open Sys2Proof Sys2Proof.Claims

theorem bankOf_acquireRead (s : State) (g h : Agent) (x : Scope) (m : Word) (ks : List Nat) :
    bankOf (acquireRead s h x m ks) g = bankOf s g := by
  rw [acquireRead, bankOf_acquireWrites, drainRead]
  split
  · exact bankOf_drainAll ..
  · rfl

theorem bankOf_acqRead (s : State) (g h : Agent) (w : WordF) (ks : List (Option Nat)) :
    bankOf (acqRead s h w ks) g = bankOf s g := by
  unfold acqRead
  split
  · exact bankOf_acquireRead ..
  · rfl

theorem pushVec_task (s : State) (g : Agent) (o : Operand) (v : Vec) : (bankOf (pushVec s g o v) g).task = (bankOf s g).task :=
  writeVec_task ..

section

variable {w : WordF} {s : State} (hr : ready w false s = true)
  (h : sourcesOk (begun s w.wait) s.cur [w.srcA, w.srcB] (dstPush w.dst) = true)

include hr h

theorem ld_loads {r : State × List Byte}
    (ha : wordLoad (begun s w.wait) s.cur (memAddr (begun s w.wait) s.cur w [w.srcA, w.srcB] 0) (elemLen w.etype)
      (elemLen w.etype) = .ok r) :
    exec (.ld w) s = .next (commits w s (writeScalar r.1 s.cur w.dst (extendLoad w.etype (ofBytes r.2)))
      [w.srcA, w.srcB] none) := by
  dsimp only [exec]
  exact runWord_commits hr (by simp only [takeSources_ok h, ha]; rfl) ((writeScalar_task ..).trans (wordLoad_task ha))

/-- LDACQ reads what its bank sees, and acquires where its order says so. -/
theorem ldacq_loads {c : Checked} (hs : checkScope (begun s w.wait) s.cur w = .ok ())
    (ha : checkedBy (begun s w.wait) (reqOf (begun s w.wait) s.cur false)
      (memAddr (begun s w.wait) s.cur w [w.srcA, w.srcB] 0) (elemLen w.etype) (elemLen w.etype) = .ok c)
    (hg : scGate (begun s w.wait) s.cur w = .ok ()) :
    let u := wordServed (begun s w.wait) s.cur [c]
    exec (.ldacq w) s = .next (commits w s (writeScalar (acqRead u s.cur w (keysOf c.parts)) s.cur w.dst
      (extendLoad w.etype (ofBytes (c.bytes u s.cur)))) [w.srcA, w.srcB] none) := by
  dsimp only [exec]
  refine runWord_commits hr (by simp only [takeSources_ok h, hs, ha, hg]; rfl) ?_
  rw [writeScalar_task, bankOf_acqRead, wordServed_task]

theorem ldq_loads {r : State × List Byte} (hm : w.mod.getLsbD 2 = false)
    (ha : wordLoad (begun s w.wait) s.cur (memAddr (begun s w.wait) s.cur w [w.srcA, w.srcB] 0) (rawLen w.etype)
      (rawAlign w.etype) = .ok r) :
    exec (.ldq w) s = .next (commits w s (pushVec r.1 s.cur w.dst (rawVec w.etype r.2)) [w.srcA, w.srcB] none) := by
  dsimp only [exec]
  exact runWord_commits hr (by simp only [takeSources_ok h, hm, ha]; rfl) ((pushVec_task ..).trans (wordLoad_task ha))

theorem ldq_loadsScratchpad (hm : w.mod.getLsbD 2 = true)
    (ha : spadCheck (begun s w.wait) s.cur.core s.cur.bank (memAddr (begun s w.wait) s.cur w [w.srcA, w.srcB] 0)
      (rawLen w.etype) (rawAlign w.etype) true = .ok ()) :
    exec (.ldq w) s = .next (commits w s (pushVec (begun s w.wait) s.cur w.dst (rawVec w.etype
      (spadSeen (begun s w.wait) s.cur (memAddr (begun s w.wait) s.cur w [w.srcA, w.srcB] 0).toNat (rawLen w.etype))))
      [w.srcA, w.srcB] none) := by
  dsimp only [exec]
  exact runWord_commits hr (by simp only [takeSources_ok h, hm, ha]; rfl) (pushVec_task ..)

/-- The elements at some keys, as the bank of a stream sees them. -/
def elementsSeen (s : State) (g : Agent) (kss : List (List (Option Nat))) : List Nat :=
  kss.map (fun ks => ofBytes (readKeys s (bufferOf s g) (dieOf g.core) ks))

theorem ldqs_loads {r : State × List (List (Option Nat))}
    (ha : wordAccesses (begun s w.wait) s.cur false (elemLen w.etype)
      (strideAddrs w.etype (src s w [w.srcA, w.srcB] 0) (src s w [w.srcA, w.srcB] 1)) = .ok r) :
    exec (.ldqs w) s = .next (commits w s (pushVec r.1 s.cur w.dst
      (vecOf (EType.width w.etype) (elementsSeen r.1 s.cur r.2))) [w.srcA, w.srcB] none) := by
  rw [src, src] at ha
  dsimp only [exec]
  exact runWord_commits hr (by simp only [takeSources_ok h, ha]; rfl) ((pushVec_task ..).trans (wordAccesses_task ha))

theorem gathq_loads {r : State × List (List (Option Nat))}
    (ha : indexedAccess (begun s w.wait) s.cur false w.etype (indexAddrs w.etype (src s w [w.srcA, w.srcB] 0)
      (whole (begun s w.wait) s.cur [w.srcA, w.srcB] 1)) = .ok r) :
    exec (.gathq w) s = .next (commits w s (pushVec r.1 s.cur w.dst
      (vecOf (EType.width w.etype) (elementsSeen r.1 s.cur r.2))) [w.srcA, w.srcB] none) := by
  rw [src] at ha
  dsimp only [exec]
  exact runWord_commits hr (by simp only [takeSources_ok h, ha]; rfl) ((pushVec_task ..).trans (indexedAccess_task ha))

end

end Sys2Proof.Machine

namespace Sys2Proof.Package

open Sys2Proof.Machine Sys2Proof.Claims

/-- Settles O14: each load whose access passes its checks commits what it reads. -/
theorem loads : Obligations.Loads := by
  intro w s hr s1 g srcs n t a h
  exact ⟨fun r ha => ld_loads hr h ha, fun hs c ha hg => ldacq_loads hr h hs ha hg, fun hm r ha => ldq_loads hr h hm ha,
    fun hm ha => ldq_loadsScratchpad hr h hm ha, fun r ha => ldqs_loads hr h ha, fun r ha => gathq_loads hr h ha⟩

end Sys2Proof.Package
end

section
/-! Stores: what ST, STQ, STQS, SCATQ and STREL leave (R139, R140, R143, R144, R189, R194, R195, R197, R207). -/

namespace Sys2Proof.Machine

open Sys2Proof Sys2Proof.Claims

/-! ### The store buffer and the scratchpad -/

theorem bankOf_bufferStore (s : State) (g : Agent) (c : CoreId) (b : BankId) (cs : List Host.Cell) :
    bankOf (bufferStore s c b cs) g = bankOf s g := by
  unfold bufferStore
  split
  · rfl
  · exact bankOf_modAux ..

theorem bankOf_bufferUnits (s : State) (g : Agent) (c : CoreId) (b : BankId) (u : Nat) (cs : List Host.Cell) :
    bankOf (bufferUnits s c b u cs) g = bankOf s g := by
  rw [bufferUnits, bankOf_bufferStore, bankOf_bufferStore]

/-- A change of a core that leaves its banks leaves every bank. -/
theorem bankOf_modCore (s : State) (g : Agent) (c : CoreId) {f : Core → Core} (hf : ∀ k b, (f k).bank b = k.bank b) :
    bankOf (modCore s c f) g = bankOf s g := by
  simp only [bankOf, getBank]
  by_cases hc : c = g.core
  · rw [hc, getCore_modCore, hf]
  · rw [getCore_modCore_ne _ _ _ _ hc]

theorem bankOf_spadWrite (s : State) (g : Agent) (c : CoreId) (by_ : Option Agent) (u off : Nat) (bs : List Byte) :
    bankOf (spadWrite s c by_ u off bs) g = bankOf s g := by
  rw [spadWrite, spadStore, bankOf_modCore _ _ _ (by rintro k (_ | _) <;> rfl), noteRacing,
    bankOf_modCore _ _ _ (by rintro k (_ | _) <;> rfl)]
  rfl

theorem wordStore_task {s r : State} {g : Agent} {va : Word} {bs : List Byte} {align : Nat}
    (h : wordStore s g va bs align = .ok r) : (bankOf r g).task = (bankOf s g).task := by
  simp only [wordStore, bind, Except.bind] at h
  split at h
  · cases h
  · next ha =>
    cases h
    rw [bankOf_bufferStore, wordAccess_task ha]

/-! ### Stores of a register, a vector and its elements -/

/-- A word that is ready and whose effect waits for something outside its stream waits past step 8. -/
theorem runWord_pends {w : WordF} {s t : State} {perLane : Bool} {body : State → Agent → Res Done} {kind : PendKind} {n : Nat}
    (hr : ready w perLane s = true) (hb : body (begun s w.wait) s.cur = .ok (.pend t kind n)) :
    runWord w perLane body s = .next (pendWord t s.cur kind n w) := by
  rw [runWord_ready hr, hb]
  rfl

section

variable {w : WordF} {s : State} (hr : ready w false s = true)

include hr

section

variable (h : sourcesOk (begun s w.wait) s.cur [w.srcA, w.srcB, w.srcC] [] = true)

include h

theorem st_stores {r : State}
    (ha : wordStore (begun s w.wait) s.cur (memAddr (begun s w.wait) s.cur w [w.srcA, w.srcB, w.srcC] 0)
      (toBytes (elemLen w.etype) (src s w [w.srcA, w.srcB, w.srcC] 2).toNat) (elemLen w.etype) = .ok r) :
    exec (.st w) s = .next (commits w s r [w.srcA, w.srcB, w.srcC] none) := by
  rw [src] at ha
  dsimp only [exec]
  exact runWord_commits hr (by simp only [takeSources_ok h, ha]; rfl) (wordStore_task ha)

theorem stq_stores {r : State × List (Option Nat)} (hm : w.mod.getLsbD 2 = false)
    (ha : wordAccess (begun s w.wait) s.cur true (memAddr (begun s w.wait) s.cur w [w.srcA, w.srcB, w.srcC] 0)
      (rawBytes w.etype (whole (begun s w.wait) s.cur [w.srcA, w.srcB, w.srcC] 2)).length (rawAlign w.etype) = .ok r) :
    exec (.stq w) s = .next (commits w s (bufferUnits r.1 s.cur.core s.cur.bank (unitLen w.etype)
      (keyCells r.2 (rawBytes w.etype (whole (begun s w.wait) s.cur [w.srcA, w.srcB, w.srcC] 2))))
      [w.srcA, w.srcB, w.srcC] none) := by
  dsimp only [exec]
  refine runWord_commits hr (by simp only [takeSources_ok h, hm, ha]; rfl) ?_
  rw [bankOf_bufferUnits, wordAccess_task ha]

theorem stq_storesScratchpad (hm : w.mod.getLsbD 2 = true)
    (ha : spadCheck (begun s w.wait) s.cur.core s.cur.bank
      (memAddr (begun s w.wait) s.cur w [w.srcA, w.srcB, w.srcC] 0) (rawLen w.etype) (rawAlign w.etype) false = .ok ()) :
    exec (.stq w) s = .next (commits w s (spadWrite (begun s w.wait) s.cur.core (some s.cur) (unitLen w.etype)
      (memAddr (begun s w.wait) s.cur w [w.srcA, w.srcB, w.srcC] 0).toNat
      (rawBytes w.etype (whole (begun s w.wait) s.cur [w.srcA, w.srcB, w.srcC] 2))) [w.srcA, w.srcB, w.srcC] none) := by
  dsimp only [exec]
  refine runWord_commits hr (by simp only [takeSources_ok h, hm, ha]; rfl) ?_
  rw [bankOf_spadWrite]

theorem stqs_stores {r : State × List (List (Option Nat))}
    (ha : wordAccesses (begun s w.wait) s.cur true (elemLen w.etype) (strideAddrs w.etype
      (src s w [w.srcA, w.srcB, w.srcC] 0) (src s w [w.srcA, w.srcB, w.srcC] 1)) = .ok r) :
    exec (.stqs w) s = .next (commits w s (bufferUnits r.1 s.cur.core s.cur.bank (unitLen w.etype)
      (elemCells w.etype r.2 (whole (begun s w.wait) s.cur [w.srcA, w.srcB, w.srcC] 2))) [w.srcA, w.srcB, w.srcC] none) := by
  rw [src, src] at ha
  dsimp only [exec]
  refine runWord_commits hr (by simp only [takeSources_ok h, ha]; rfl) ?_
  rw [bankOf_bufferUnits, wordAccesses_task ha]

theorem scatq_stores {r : State × List (List (Option Nat))}
    (ha : indexedAccess (begun s w.wait) s.cur true w.etype (indexAddrs w.etype (src s w [w.srcA, w.srcB, w.srcC] 0)
      (whole (begun s w.wait) s.cur [w.srcA, w.srcB, w.srcC] 1)) = .ok r) :
    exec (.scatq w) s = .next (commits w s (bufferUnits r.1 s.cur.core s.cur.bank (unitLen w.etype)
      (elemCells w.etype r.2 (whole (begun s w.wait) s.cur [w.srcA, w.srcB, w.srcC] 2))) [w.srcA, w.srcB, w.srcC] none) := by
  rw [src] at ha
  dsimp only [exec]
  refine runWord_commits hr (by simp only [takeSources_ok h, ha]; rfl) ?_
  rw [bankOf_bufferUnits, indexedAccess_task ha]

end

/-! ### STREL (R207) -/

section

variable {r : State} (h : sourcesOk (begun s w.wait) s.cur [w.srcA, w.srcB] [] = true)
  (hs : checkScope (begun s w.wait) s.cur w = .ok ()) (ha : strelStore (begun s w.wait) s.cur w = .ok r)

include h hs ha

theorem strel_stores (hd : releaseReady (begun s w.wait) s.cur w.scope (wordMask (begun s w.wait) s.cur w) = true)
    (ho : w.order ≠ .sc) : exec (.strel w) s = .next (commits w s r [w.srcA, w.srcB] none) := by
  dsimp only [exec]
  exact runWord_commits hr (by simp only [takeSources_ok h, hs, ha, hd]; exact if_neg ho) (wordStore_task ha)

/-- R197: the store is in the buffer; the word waits until it is performed in its scope. -/
theorem strel_waitsStored (hd : releaseReady (begun s w.wait) s.cur w.scope (wordMask (begun s w.wait) s.cur w) = true)
    (ho : w.order = .sc) : exec (.strel w) s = .next (pendWord r s.cur .storeSc 0 w) := by
  dsimp only [exec]
  exact runWord_pends hr (by simp only [takeSources_ok h, hs, ha, hd]; exact if_pos ho)

theorem strel_waits (hd : releaseReady (begun s w.wait) s.cur w.scope (wordMask (begun s w.wait) s.cur w) = false) :
    exec (.strel w) s = .next (pendWord (begun s w.wait) s.cur .release 0 w) := by
  dsimp only [exec]
  exact runWord_pends hr (by simp only [takeSources_ok h, hs, ha, hd]; rfl)

end

end

end Sys2Proof.Machine

namespace Sys2Proof.Package

open Sys2Proof.Machine Sys2Proof.Claims

/-- Settles O15: each store whose access passes its checks commits its bytes; STREL does so by what it still waits for. -/
theorem stores : Obligations.Stores := by
  intro w s hr s1 g srcs n t a v
  refine ⟨fun h => ⟨fun r ha => st_stores hr h ha, fun hm r ha => stq_stores hr h hm ha,
    fun hm ha => stq_storesScratchpad hr h hm ha, fun r ha => stqs_stores hr h ha, fun r ha => scatq_stores hr h ha⟩,
    fun h hs r ha => ⟨fun hd ho => strel_stores hr h hs ha hd ho, fun hd ho => strel_waitsStored hr h hs ha hd ho,
      fun hd => strel_waits hr h hs ha hd⟩⟩

end Sys2Proof.Package
end

section
/-! LDQ.dec and STQ.enc by the page format (R62 to R67, R141, R142). -/

namespace Sys2Proof.Machine

open Sys2Proof Sys2Proof.Claims

/-- The formats that LDQ.dec takes (R141). -/
def decOk (sg : Bool) (f : Nat) : Bool := 1 ≤ f && f ≤ 10 && (!sg || f = 8 || f = 9)

/-- R142: the elements of an encoding access enter the store buffer. -/
def putCodes (t : State) (g : Agent) (f : Nat) (c : Checked) (codes : List Nat) : State :=
  bufferUnits t g.core g.bank 4 (keyCells (keysOf c.parts) (toBytes (dec64Len f) (ofElems (fmtBits f) codes)))

theorem bankOf_putCodes (t : State) (g : Agent) (f : Nat) (c : Checked) (codes : List Nat) :
    bankOf (putCodes t g f c codes) g = bankOf t g := bankOf_bufferUnits ..

theorem putCodes_served_task (s : State) (g : Agent) (f : Nat) (c : Checked) (cs : List Checked) (codes : List Nat) :
    (bankOf (putCodes (wordServed s g cs) g f c codes) g).task = (bankOf s g).task := by
  rw [bankOf_putCodes, wordServed_task]

theorem pushVec_served_task (s : State) (g : Agent) (cs : List Checked) (o : Operand) (v : Vec) :
    (bankOf (pushVec (wordServed s g cs) g o v) g).task = (bankOf s g).task := by
  rw [pushVec_task, wordServed_task]

/-- Code j of 64 that an access holds (R62). -/
def codeAt (s : State) (g : Agent) (f : Nat) (c : Checked) (j : Nat) : Nat :=
  ofBytes (c.bytes s g) / 2 ^ (fmtBits f * j) % 2 ^ fmtBits f

/-- 64 elements of a decoding load, as f32 (R141). -/
def decoded (x : Nat → Val) : Vec := vecOf 32 ((List.range 64).map (fun j => (rn32 (x j)).1))

/-- The rounding of STQ.enc (R142). -/
def encRnd (w : WordF) : Rnd := if w.mod.getLsbD 1 then .rz else .rne

/-- The 64 values that STQ.enc encodes (R142). -/
def encoded (s : State) (w : WordF) : List Val :=
  (elemsOf 32 (whole (begun s w.wait) s.cur [w.srcA, w.srcB, w.srcC] 2)).map (decodeF ffF32)

section

variable {w : WordF} {s : State} {f : Nat} {c : Checked} (hr : ready w false s = true)

include hr

/-! ### Decoding -/

section

variable (h : sourcesOk (begun s w.wait) s.cur [w.srcA, w.srcB] (dstPush w.dst) = true)
  (ha : fmtAccess (begun s w.wait) (reqOf (begun s w.wait) s.cur false) (memAddr (begun s w.wait) s.cur w [w.srcA, w.srcB] 0)
    (decOk (w.mod.getLsbD 1)) = .ok (f, c))

include h ha

theorem ldqDec_plain (hx : isMxCode f = false) (hn : f ≠ 10) :
    exec (.ldqDec w) s = .next (commits w s (pushVec (wordServed (begun s w.wait) s.cur [c]) s.cur w.dst
      (decoded (fun j => codeVal f (w.mod.getLsbD 1) (codeAt (begun s w.wait) s.cur f c j)))) [w.srcA, w.srcB] none) := by
  unfold decOk at ha
  dsimp only [exec]
  exact runWord_commits hr (by simp only [takeSources_ok h, ha, bind, Except.bind, hx]; exact if_neg hn)
    (pushVec_served_task ..)

theorem ldqDec_mx (hx : isMxCode f = true) {k0 k1 : Checked}
    (h0 : companion (begun s w.wait) s.cur false
      (scaleAddrs c.parts f (memAddr (begun s w.wait) s.cur w [w.srcA, w.srcB] 0).toNat).1 1 = .ok k0)
    (h1 : companion (begun s w.wait) s.cur false
      (scaleAddrs c.parts f (memAddr (begun s w.wait) s.cur w [w.srcA, w.srcB] 0).toNat).2 1 = .ok k1) :
    exec (.ldqDec w) s = .next (commits w s (pushVec (wordServed (begun s w.wait) s.cur [c, k0, k1]) s.cur w.dst
      (decoded (fun j => mxVal (codeFloat f) (ofBytes ((if j < 32 then k0 else k1).bytes (begun s w.wait) s.cur))
        (codeAt (begun s w.wait) s.cur f c j)))) [w.srcA, w.srcB] none) := by
  unfold decOk at ha
  dsimp only [exec]
  exact runWord_commits hr (by simp only [takeSources_ok h, ha, bind, Except.bind, hx, h0, h1]; rfl)
    (pushVec_served_task ..)

/-- Of an NQ4 page the record of the super-block is read whole. -/
theorem ldqDec_nq4 (hf : f = 10) {r : Checked} {sup : Val} {k : Nat}
    (h0 : companion (begun s w.wait) s.cur false
      (companionAt (leafFor c.parts (memAddr (begun s w.wait) s.cur w [w.srcA, w.srcB] 0).toNat) f
        (memAddr (begun s w.wait) s.cur w [w.srcA, w.srcB] 0).toNat) 264 = .ok r)
    (h1 : nq4Record (begun s w.wait) (r.bytes (begun s w.wait) s.cur)
      (memAddr (begun s w.wait) s.cur w [w.srcA, w.srcB] 0).toNat = .ok (sup, k)) :
    let b := ofBytes (((r.bytes (begun s w.wait) s.cur).drop (8 + k)).take 1)
    exec (.ldqDec w) s = .next (commits w s (pushVec (wordServed (begun s w.wait) s.cur [c, r]) s.cur w.dst
      (decoded (fun j => nq4Val b (nq4Scale b sup) (codeAt (begun s w.wait) s.cur f c j)))) [w.srcA, w.srcB] none) := by
  subst hf
  unfold decOk at ha
  dsimp only [exec]
  exact runWord_commits hr (by simp only [takeSources_ok h, ha, bind, Except.bind, h0, h1]; rfl) (pushVec_served_task ..)

end

/-! ### Encoding -/

section

variable (h : sourcesOk (begun s w.wait) s.cur [w.srcA, w.srcB, w.srcC] [] = true)
  (ha : fmtAccess (begun s w.wait) (reqOf (begun s w.wait) s.cur true)
    (memAddr (begun s w.wait) s.cur w [w.srcA, w.srcB, w.srcC] 0) (encOk (w.mod.getLsbD 2)) = .ok (f, c))

include h ha

theorem stqEnc_f32 (hf : f = 1) :
    exec (.stqEnc w) s = .next (commits w s (putCodes (wordServed (begun s w.wait) s.cur [c]) s.cur f c
      ((encoded s w).map (fun v => (rn32 v).1))) [w.srcA, w.srcB, w.srcC] none) := by
  subst hf
  dsimp only [exec]
  exact runWord_commits hr (by simp only [takeSources_ok h, ha, bind, Except.bind]; rfl) (putCodes_served_task ..)

theorem stqEnc_half (hf : f = 2 ∨ f = 3) :
    exec (.stqEnc w) s = .next (commits w s (putCodes (wordServed (begun s w.wait) s.cur [c]) s.cur f c
      ((encoded s w).map (fun v => (roundF (codeFloat f) (encRnd w) (w.mod.getLsbD 2) false v).1)))
      [w.srcA, w.srcB, w.srcC] none) := by
  dsimp only [exec]
  refine runWord_commits hr ?_ (putCodes_served_task ..)
  obtain rfl | rfl := hf <;> simp only [takeSources_ok h, ha, bind, Except.bind] <;> rfl

theorem stqEnc_mx (hx : isMxCode f = true) {k0 k1 : Checked}
    (h0 : companion (begun s w.wait) s.cur true
      (scaleAddrs c.parts f (memAddr (begun s w.wait) s.cur w [w.srcA, w.srcB, w.srcC] 0).toNat).1 1 = .ok k0)
    (h1 : companion (begun s w.wait) s.cur true
      (scaleAddrs c.parts f (memAddr (begun s w.wait) s.cur w [w.srcA, w.srcB, w.srcC] 0).toNat).2 1 = .ok k1) :
    let x0 := mxEncode (mxType f) (fun _ => encRnd w) ((encoded s w).take 32)
    let x1 := mxEncode (mxType f) (fun _ => encRnd w) ((encoded s w).drop 32)
    exec (.stqEnc w) s = .next (commits w s (bufferUnits
      (putCodes (wordServed (begun s w.wait) s.cur [c, k0, k1]) s.cur f c (x0.2.1 ++ x1.2.1)) s.cur.core s.cur.bank 4
      (keyCells (keysOf k0.parts ++ keysOf k1.parts) (toBytes 1 x0.1 ++ toBytes 1 x1.1)))
      [w.srcA, w.srcB, w.srcC] none) := by
  dsimp only [exec]
  refine runWord_commits hr (by simp only [takeSources_ok h, ha, bind, Except.bind, hx, h0, h1]; rfl) ?_
  rw [bankOf_bufferUnits, putCodes_served_task]

theorem stqEnc_nq4 (hf : f = 10) {r k : Checked} {at_ : Nat}
    (he : at_ = companionAt (leafFor c.parts (memAddr (begun s w.wait) s.cur w [w.srcA, w.srcB, w.srcC] 0).toNat) f
      (memAddr (begun s w.wait) s.cur w [w.srcA, w.srcB, w.srcC] 0).toNat)
    (h0 : companion (begun s w.wait) s.cur false at_ 4 = .ok r)
    (h1 : companion (begun s w.wait) s.cur true
      (at_ + 8 + nq4Block (memAddr (begun s w.wait) s.cur w [w.srcA, w.srcB, w.srcC] 0).toNat) 1 = .ok k) :
    let x := nq4Encode (decodeF ffF32 (ofBytes (r.bytes (begun s w.wait) s.cur))) (fun _ => encRnd w) (encoded s w)
    exec (.stqEnc w) s = .next (commits w s (bufferStore
      (putCodes (wordServed (begun s w.wait) s.cur [c, r, k]) s.cur f c x.2.1) s.cur.core s.cur.bank
      (keyCells (keysOf k.parts) (toBytes 1 x.1))) [w.srcA, w.srcB, w.srcC] none) := by
  subst hf he
  dsimp only [exec]
  refine runWord_commits hr (by simp only [takeSources_ok h, ha, bind, Except.bind, h0, h1]; rfl) ?_
  rw [bankOf_bufferStore, putCodes_served_task]

end

end

end Sys2Proof.Machine

namespace Sys2Proof.Package

open Sys2Proof.Machine Sys2Proof.Claims

/-- Settles O16: each word takes the branch of its page's format, with the companion bytes that the format has. -/
theorem decodedAccesses : Obligations.DecodedAccesses := by
  intro w s hr s1 g sg sat m lsrcs ssrcs la sa vs
  refine ⟨fun h f c ha => ⟨fun hx hn => ldqDec_plain hr h ha hx hn, fun hx k0 k1 h0 h1 => ldqDec_mx hr h ha hx h0 h1,
      fun hf r sup k h0 h1 => ldqDec_nq4 hr h ha hf h0 h1⟩,
    fun h f c ha => ⟨fun hf => stqEnc_f32 hr h ha hf, fun hf => stqEnc_half hr h ha hf,
      fun hx k0 k1 h0 h1 => stqEnc_mx hr h ha hx h0 h1, fun hf r k h0 h1 => stqEnc_nq4 hr h ha hf rfl h0 h1⟩⟩

end Sys2Proof.Package
end

section
/-! RFILL of one panel (R145, R150). -/

namespace Sys2Proof.Machine

open Sys2Proof Sys2Proof.Claims

/-- A commit leaves the engines of its bank. -/
theorem commits_eng (w : WordF) (s t : State) (srcs : List Operand) (next : Option VAddr) :
    (bankOf (commits w s t srcs next) s.cur).eng = (bankOf t s.cur).eng := by
  obtain ⟨-, ⟨-, heng, -⟩, -⟩ := wordKeeps_commitWord (g := s.cur) (w := w) (srcs := srcs) (dst := .short 0) t next 1
  exact heng

/-- RFILL.e0 ring0, a4. -/
def onePanelFill : WordF := { dst := .ring 0, srcA := .reg 4 }

/-- A ring of kind A with one slot, empty. -/
def oneSlotRing : Ring := { base := 0, slots := 1, ksize := 8, kind := .a, tag := 0 }

/-- L is about to evaluate a word, with ring0 initialised and the count 1 in a5; no engine has an operation. -/
def fillsOnePanel : State :=
  { modBank State.reset 0 .active (fun _ => { ({} : Bank) with
      task := some placedTask
      l := { run := .running }
      a := { ({} : AFiles) with l := (Vector.replicate 32 0).set 5 1 }
      eng := { ({} : Engines) with rings := (Vector.replicate 8 none).set 0 (some oneSlotRing) } }) with
    cur := { core := 0, bank := .active, stream := .l } }

theorem fillsOnePanel_ready : ready onePanelFill false fillsOnePanel = true := by decide +kernel

/-- The descriptor is in range, and describes one panel. -/
theorem fillsOnePanel_descriptor :
    let s1 := begun fillsOnePanel 0
    let d := descReg s1 fillsOnePanel.cur (.reg 4)
    checkDesc s1 fillsOnePanel.cur (.reg 4) 4 = .ok () ∧ getRing s1 0 .active 0 = some oneSlotRing
      ∧ extReg (d 3) = some (0, 0) ∧ (d 0).toNat % 1024 = 0 ∧ (d 1).toNat < 2 ^ 32 ∧ (d 2).toNat % 1024 = 0 := by
  decide +kernel

/-- The outer counts of the operations of engine 0. -/
def outerCounts (s : State) : List Nat := ((bankOf s fillsOnePanel.cur).eng.ops.get 0).map EngOp.c1

theorem fillsOnePanel_idle : (bankOf (begun fillsOnePanel 0) fillsOnePanel.cur).eng.ops.get 0 = [] := by decide +kernel

/-- The model accepts the word as an operation with the outer count 0. -/
theorem fillsOnePanel_accepted : (match exec (.rfill onePanelFill) fillsOnePanel with
    | .next t => outerCounts t == [0]
    | _ => false) = true := by
  decide +kernel

end Sys2Proof.Machine

namespace Sys2Proof.Package

open Sys2Proof.Machine Sys2Proof.Claims

/-- What the statement has RFILL leave: an operation with the outer count 1. -/
theorem outerCounts_of_engineAcceptance (h : Obligations.EngineAcceptance) : ∃ t,
    exec (.rfill onePanelFill) fillsOnePanel = .next (commits onePanelFill fillsOnePanel t [] none) ∧ outerCounts t = [1] := by
  obtain ⟨hdesc, hring, hext, hbase, hcount, hpitch⟩ := fillsOnePanel_descriptor
  have hroom : ((bankOf (begun fillsOnePanel 0) fillsOnePanel.cur).eng.ops.get 0).length < 4 := by
    rw [fillsOnePanel_idle]
    decide
  obtain ⟨-, -, hrings, -⟩ := h onePanelFill fillsOnePanel fillsOnePanel_ready hroom
  obtain ⟨hfill, -⟩ := hrings hdesc oneSlotRing 0 0 hring hext
  obtain ⟨t, hexec, hops, -⟩ := hfill hbase hcount hpitch nofun
  refine ⟨t, hexec, (congrArg (List.map EngOp.c1) hops).trans ?_⟩
  exact congrArg (fun l => List.map EngOp.c1 (l ++ [_])) fillsOnePanel_idle

/-- Refutes O18: the statement gives the operation of a ring an outer count of 1, where the model's RFILL leaves that count at
`EngOp`'s default, 0, as RFILLG and RDRAIN do. RFILL of one panel is accepted as an operation whose counts are 1 and 0, and so
of no panel (`EngOp.total`). -/
theorem not_engineAcceptance : ¬ Obligations.EngineAcceptance := by
  intro h
  obtain ⟨t, hexec, hcounts⟩ := outerCounts_of_engineAcceptance h
  have hmodel := fillsOnePanel_accepted
  rw [hexec] at hmodel
  have heng : outerCounts (commits onePanelFill fillsOnePanel t [] none) = outerCounts t :=
    congrArg (fun e : Engines => (e.ops.get 0).map EngOp.c1) (commits_eng ..)
  simp only [heng, hcounts] at hmodel
  exact absurd hmodel (by decide)

end Sys2Proof.Package
end

section
/-! RINIT and RDROP (R149, R153). -/

namespace Sys2Proof.Machine

open Sys2Proof Sys2Proof.Claims

theorem setRing_task (s : State) (g : Agent) (n : Fin 8) (r : Ring) :
    (bankOf (setRing s g.core g.bank n r) g).task = (bankOf s g).task := modBankOf_task fun _ => rfl

/-- R149: a ring that is made holds no panel. -/
theorem ringDesc_held {a b : Word} {r : Ring} (h : ringDesc a b = .ok r) : r.held = 0 := by
  simp only [ringDesc] at h
  split at h
  · cases h
  · split at h
    · cases h
    · cases h
      rfl

theorem needRing_some {s : State} {g : Agent} {n : Fin 8} {r : Ring} (h : (bankOf s g).eng.rings.get n = some r) :
    needRing s g n = .ok r := by
  have hr : getRing s g.core g.bank n = some r := h
  rw [needRing, hr]

theorem needRing_none {s : State} {g : Agent} {n : Fin 8} (h : (bankOf s g).eng.rings.get n = none) :
    needRing s g n = raise s (ringFault n (w64 n.val)) := by
  have hr : getRing s g.core g.bank n = none := h
  rw [needRing, hr]

section

variable {w : WordF} {s : State} (hr : ready w false s = true)

include hr

theorem rinit_makes {r : Ring} (hc : checkDesc (begun s w.wait) s.cur w.srcA 2 = .ok ())
    (hd : ringDesc (descReg (begun s w.wait) s.cur w.srcA 0) (descReg (begun s w.wait) s.cur w.srcA 1) = .ok r)
    (hb : s.cur.bank = .active ∨ spadAllReserved r.base (r.slots * r.slotBytes) = true)
    (ho : opNames (bankOf (begun s w.wait) s.cur).eng (ringNo w.dst) = false)
    (hn : recNames (bankOf (begun s w.wait) s.cur).eng (ringNo w.dst) = false) :
    exec (.rinit w) s = .next (commits w s (setRing (begun s w.wait) s.cur.core s.cur.bank (ringNo w.dst) r) [] none) := by
  have hp : (s.cur.bank = .shadow && !spadAllReserved r.base (r.slots * r.slotBytes)) = false := by
    obtain hb | hb := hb <;> simp [hb]
  dsimp only [exec]
  exact runWord_commits (srcs := []) hr (by simp only [hc, hd, hp, ho, hn]; rfl) (setRing_task ..)

variable (h : sourcesOk (begun s w.wait) s.cur [w.srcB] [] = true)

include h

/-- R162: a ring that is not initialised raises RING. -/
theorem rdrop_faults (hg : (bankOf (begun s w.wait) s.cur).eng.rings.get (ringNo w.srcA) = none) :
    exec (.rdrop w) s
      = .next (wordFault (begun s w.wait) s.cur (ringFault (ringNo w.srcA) (w64 (ringNo w.srcA).val)) false false) := by
  dsimp only [exec]
  exact runWord_faults hr (by simp only [takeSources_ok h, needRing_none hg]; rfl)

section

variable {r : Ring} (hg : (bankOf (begun s w.wait) s.cur).eng.rings.get (ringNo w.srcA) = some r)
  (hs : (src s w [w.srcB] 0).toNat ≤ r.slots)

include hg hs

theorem rdrop_drops (hn : recNames (bankOf (begun s w.wait) s.cur).eng (ringNo w.srcA) = false)
    (hh : (src s w [w.srcB] 0).toNat ≤ r.held) :
    exec (.rdrop w) s = .next (commits w s (setRing (begun s w.wait) s.cur.core s.cur.bank (ringNo w.srcA)
      (r.popN (src s w [w.srcB] 0).toNat)) [w.srcB] none) := by
  rw [src] at hs hh
  dsimp only [exec]
  refine runWord_commits hr ?_ (setRing_task ..)
  simp only [takeSources_ok h, needRing_some hg, bind, Except.bind, hn, Nat.not_lt.mpr hs, Nat.not_lt.mpr hh]
  rfl

theorem rdrop_waits (hh : r.held < (src s w [w.srcB] 0).toNat) :
    exec (.rdrop w) s = .next (stallAt (begun s w.wait) s.cur .op 7) := by
  rw [src] at hs hh
  dsimp only [exec]
  refine runWord_stalls (why := .op) hr ?_
  simp only [takeSources_ok h, needRing_some hg, bind, Except.bind, Nat.not_lt.mpr hs, hh, decide_true, Bool.or_true]
  rfl

end

end

end Sys2Proof.Machine

namespace Sys2Proof.Package

open Sys2Proof.Machine Sys2Proof.Claims

/-- Settles O19: RINIT makes the ring of its descriptor; RDROP drops its panels, waits for them or raises RING. -/
theorem ringWords : Obligations.RingWords := by
  intro w s hr s1 g eng
  exact ⟨fun hc r hd hb ho hn => ⟨rinit_makes hr hc hd hb ho hn, ringDesc_held hd⟩,
    fun h => ⟨fun r hg hs => ⟨fun hn hh => rdrop_drops hr h hg hs hn hh, fun hh => rdrop_waits hr h hg hs hh⟩,
      fun hg => rdrop_faults hr h hg⟩⟩

end Sys2Proof.Package
end

section
/-! SENDH and REDSP at their sender (R157 to R160, R292, R349). -/

namespace Sys2Proof.Machine

open Sys2Proof Sys2Proof.Claims

/-- The state in which a payload has left and its word waits for the acknowledgement (R158 to R160). -/
def payloadSent (s : State) (g : Agent) (w : WordF) (c : CoreId) (off : Nat) (v : Vec)
    (red : Option (Nat × Nat × Bool × EType)) (h : Word) : State :=
  let d := dieOf (deliveryCore s (taskOf s g).ctx c)
  let t := drainAll (touch s (taskOf s g).ctx d) g.core g.bank
  pendWord (postRequest (modMs { t with nextId := t.nextId + 1 } (fun m => { m with sends := m.sends ++ [{
    id := t.nextId, agent := g, task := taskOf s g, target := c, off := off, data := v, red := red, h := h
    at_ := if d = agentDie g then some d else none }] })) g (taskOf s g).ctx t.nextId d) g .send t.nextId w

theorem runWord_sends {w : WordF} {s : State} {perLane : Bool} {body : State → Agent → Res Done} {c : CoreId} {off : Nat}
    {v : Vec} {red : Option (Nat × Nat × Bool × EType)} {h : Word} (hr : ready w perLane s = true)
    (hb : body (begun s w.wait) s.cur
      = sendPayload (begun s w.wait) s.cur (taskOf (begun s w.wait) s.cur) c off v red h) :
    runWord w perLane body s = .next (payloadSent (begun s w.wait) s.cur w c off v red h) := runWord_pends hr hb

section

variable {w : WordF} {s : State} {a : Word} {c : CoreId} {d : CoreId × Nat}

/-- R157: the checks of a delivery to the target a pass: the core that it names is c, and the delivery is to d. -/
structure Deliverable (s : State) (g : Agent) (a : Word) (c : CoreId) (d : CoreId × Nat) : Prop where
  waits : sendWaits s (taskOf s g).ctx a = .ok ()
  target : targetCore s (deliveryCore s (taskOf s g).ctx) a false = .ok c
  reach : checkReach s (agentDie g) (dieOf (deliveryCore s (taskOf s g).ctx c)) = .ok ()
  to_ : deliveryTo s (taskOf s g).ctx c a = .ok d
  allowed : spadAllowed s d.1 .active d.2 256 = true

theorem sendh_sends (hr : ready w false s = true)
    (h : sourcesOk (begun s w.wait) s.cur [w.srcA, w.srcB, w.srcC] [] = true)
    (hd : Deliverable (begun s w.wait) s.cur (src s w [w.srcA, w.srcB, w.srcC] 0) c d)
    (ha : (src s w [w.srcA, w.srcB, w.srcC] 1).toNat % 16 = 0) (hp : (src s w [w.srcA, w.srcB, w.srcC] 1).toNat < 2 ^ 52)
    (hlo : 0x340000 ≤ d.2) (hhi : d.2 < 0x380000) :
    exec (.sendh w) s = .next (payloadSent (begun s w.wait) s.cur w c d.2
      (whole (begun s w.wait) s.cur [w.srcA, w.srcB, w.srcC] 2) none (src s w [w.srcA, w.srcB, w.srcC] 1)) := by
  obtain ⟨hw, ht, hc, hto, hs⟩ := hd
  rw [src] at hw ht hto ha hp
  have hoff : (d.2 < 0x340000 || 0x380000 ≤ d.2) = false := by simpa using ⟨hlo, hhi⟩
  dsimp only [exec]
  refine runWord_sends hr ?_
  simp only [takeSources_ok h, hw, ht, hc, hto, hs, bind, Except.bind, checkAlign, ha, if_true, Nat.not_le.mpr hp, hoff,
    checkTargetSpad]
  rfl

theorem redsp_sends (hr : ready w false s = true) (h : sourcesOk (begun s w.wait) s.cur [w.srcA, w.srcB] [] = true)
    (hd : Deliverable (begun s w.wait) s.cur (src s w [w.srcA, w.srcB] 0) c d)
    (hn : nbAllowed (begun s w.wait) d.1 .active (nbNo w.srcC).val = true) :
    exec (.redsp w) s = .next (payloadSent (begun s w.wait) s.cur w c d.2
      (whole (begun s w.wait) s.cur [w.srcA, w.srcB] 1)
      (some ((nbNo w.srcC).val, w.mod.toNat % 4, w.mod.getLsbD 2, w.etype)) 0) := by
  obtain ⟨hw, ht, hc, hto, hs⟩ := hd
  rw [src] at hw ht hto
  dsimp only [exec]
  refine runWord_sends hr ?_
  simp only [takeSources_ok h, hw, ht, hc, hto, hs, bind, Except.bind, if_true, hn, checkTargetSpad]
  rfl

end

end Sys2Proof.Machine

namespace Sys2Proof.Package

open Sys2Proof.Machine Sys2Proof.Claims

/-- Settles O21: each word's checks pass, and it sends its payload (`payloadSent`). -/
theorem deliveries : Obligations.Deliveries := by
  intro w s hr s1 g task sends
  exact ⟨fun h hw c d ht hc hto ha hp hlo hhi hs => sendh_sends hr h ⟨hw, ht, hc, hto, hs⟩ ha hp hlo hhi,
    fun h hw c d ht hc hto hs hn => redsp_sends hr h ⟨hw, ht, hc, hto, hs⟩ hn⟩

end Sys2Proof.Package
end

section
/-! The memory path: drains, writes, atomics at their home, deliveries and arrivals at a group barrier (R158, R159, R189 to R193,
R204, R205, R297, R349). -/

namespace Sys2Proof.Machine

open Sys2Proof Sys2Proof.Claims

/-! ### The new value of an atomic (R205) -/

/-- n bytes hold a number modulo 256^n. -/
theorem toBytes_mod (n v : Nat) : toBytes n (v % 256 ^ n) = toBytes n v := by
  induction n generalizing v with
  | zero => rfl
  | succ n ih =>
    have hlow : BitVec.ofNat 8 (v % 256 ^ (n + 1)) = BitVec.ofNat 8 v :=
      BitVec.eq_of_toNat_eq (Nat.mod_mod_of_dvd v (Dvd.intro_left _ rfl))
    rw [toBytes, toBytes, hlow, Nat.pow_succ', Nat.mod_mul_right_div_self, ih]

theorem ofBytes_lt (bs : List Byte) : ofBytes bs < 256 ^ bs.length := by
  induction bs with
  | nil => exact Nat.one_pos
  | cons b bs ih =>
    rw [ofBytes, List.length_cons, Nat.pow_succ']
    have hb := b.isLt
    omega

/-- The model's arithmetic of naturals is the table's of words. -/
theorem atomicNew_mod (op : AOp) (t : EType) (old b c : BitVec (EType.width t)) :
    atomicNew op t old.toNat b.toNat c.toNat % 2 ^ EType.width t = (atomicTable (EType.signed t) op old b c).toNat := by
  have hlt (x : BitVec (EType.width t)) : x.toNat % 2 ^ EType.width t = x.toNat := Nat.mod_eq_of_lt x.isLt
  cases op with
  | add => exact (Nat.mod_mod ..).trans (BitVec.toNat_add ..).symm
  | fadd => rfl
  | min =>
    simp only [atomicNew, atomicTable, intOf_toNat, ← apply_ite BitVec.toNat, hlt]
  | max =>
    simp only [atomicNew, atomicTable, intOf_toNat, ← apply_ite BitVec.toNat, hlt]
  | and => rw [atomicNew, atomicTable, ← BitVec.toNat_and, hlt]
  | or => rw [atomicNew, atomicTable, ← BitVec.toNat_or, hlt]
  | xor => rw [atomicNew, atomicTable, ← BitVec.toNat_xor, hlt]
  | swp => exact hlt b
  | cas => simp only [atomicNew, atomicTable, BitVec.toNat_inj, ← apply_ite BitVec.toNat, hlt]
  | incw =>
    have hone : (old.toNat + 1) % 2 ^ EType.width t = (old + 1).toNat := by simp [BitVec.toNat_add]
    simp only [atomicNew, atomicTable, BitVec.le_def]
    split
    · exact Nat.zero_mod _
    · exact hone

/-- The bytes that an atomic writes are those of the table's value. -/
theorem atomicNew_bytes {op : AOp} {t : EType} {old b c : Nat} (hk : EType.width t = 8 * elemLen t)
    (ho : old < 2 ^ EType.width t) (hb : b < 2 ^ EType.width t) (hc : c < 2 ^ EType.width t) :
    toBytes (elemLen t) (atomicNew op t old b c) = toBytes (elemLen t)
      (atomicTable (EType.signed t) op (BitVec.ofNat (EType.width t) old) (BitVec.ofNat _ b) (BitVec.ofNat _ c)).toNat := by
  have hpow : 256 ^ elemLen t = 2 ^ EType.width t := by rw [hk, Nat.pow_mul]
  rw [← atomicNew_mod, BitVec.toNat_ofNat, BitVec.toNat_ofNat, BitVec.toNat_ofNat, Nat.mod_eq_of_lt ho, Nat.mod_eq_of_lt hb,
    Nat.mod_eq_of_lt hc, ← hpow, toBytes_mod]

/-- The value at an atomic's location fits its type. -/
theorem oldValue_lt {r : AtomicReq} (m : MemSys) (hk : EType.width r.etype = 8 * elemLen r.etype) :
    ofBytes (r.keys.map (homeByte m)) < 2 ^ EType.width r.etype := by
  have hlen : (r.keys.map (homeByte m)).length = elemLen r.etype := by simp [AtomicReq.keys]
  have hlt := ofBytes_lt (r.keys.map (homeByte m))
  rwa [hlen, show 256 = 2 ^ 8 from rfl, ← Nat.pow_mul, ← hk] at hlt

/-- R205: what an atomic of a type of whole bytes does at its home, by the table. -/
theorem performAtomic_eq {s : State} {r : AtomicReq} (hk : EType.width r.etype = 8 * elemLen r.etype)
    (hb : r.b.toNat < 2 ^ EType.width r.etype) (hc : r.c.toNat < 2 ^ EType.width r.etype) :
    let old := BitVec.ofNat (EType.width r.etype) (ofBytes (r.keys.map (homeByte s.ms)))
    let new := atomicTable (EType.signed r.etype) r.op old (r.b.setWidth _) (r.c.setWidth _)
    let t := enterAtomic s r.home (some r.task) r.after r.origin (cellsAt r.pa (toBytes (elemLen r.etype) new.toNat))
    performAtomic s r = if r.form = .posted then dropAtomic t r.id
      else answerAtomic t { r with result := some (extendLoad r.etype old.toNat), wrote := s.nextId } := by
  have ho := oldValue_lt s.ms hk
  have hold : (BitVec.ofNat (EType.width r.etype) (ofBytes (r.keys.map (homeByte s.ms)))).toNat
      = ofBytes (r.keys.map (homeByte s.ms)) := Nat.mod_eq_of_lt ho
  intro old new t
  simp only [performAtomic, atomicNew_bytes hk ho hb hc, BitVec.ofNat_toNat, old, hold]
  rfl

/-! ### Drains and writes (R189 to R191) -/

section

variable {s : State} {n : Nat}

theorem storeBufferDrain_due {c : CoreId} {b : BankId} {w : BufStore} {ws : List BufStore}
    (h : (getAux s c b).sb = w :: ws) : exec (.storeBufferDrain c b) s
      = .next (enterAs (modAux s c b (fun a => { a with sb := ws })) (dieOf c) (acquiredNow s c b)
          (bankOrigin s c b (storeNo c b) false) w.cells) := by
  simp [exec, execStoreBufferDrain, drainOne, h]

theorem writeApply_places {w : Write} (h : s.ms.unplaced.find? (fun v => v.id == n) = some w) (hs : writeServes s w = true)
    (hp : canPlace s (before s.ms.unplaced (fun v => v.id == n)) w = true) :
    exec (.writeApply n none) s = .next (placeWrite s w) := by
  simp [exec, execWriteApply, h, hs, hp]

theorem writeApply_applies {w : Write} {d : DieId} (h : s.ms.writes.find? (fun v => v.id == n) = some w)
    (hs : writeServes s w = true) (hp : canApply s d (before s.ms.writes (fun v => v.id == n)) w = true) :
    exec (.writeApply n (some d)) s = .next (applyWrite s d w) := by
  simp [exec, execWriteApply, h, hs, hp]

/-! ### Atomics at their home (R193, R204) -/

section

variable {r : AtomicReq} (h : s.ms.atomics.find? (fun y => y.id == n && !y.faulted) = some r) (hf : r.fault = none)
  (ht : r.redo ≠ .translate) (ha : r.arrived = true) (hr : r.result = none) (hs : homeServes s r = true)
  (hd : atomicDue s r = true)

include h hf ht ha hr hs hd

theorem atomicAtHome_faults {f : FaultInfo} (hh : homeFault s r = some f) :
    exec (.atomicAtHome n) s = .next (answerAtomic s { r with fault := some f }) := by
  simp [exec, execAtomicAtHome, h, hf, ht, ha, hr, hs, hd, hh]

theorem atomicAtHome_performs (hh : homeFault s r = none) :
    exec (.atomicAtHome n) s = .next (closeIfDone (performAtomic s r) r.kinst r.node) := by
  simp [exec, execAtomicAtHome, h, hf, ht, ha, hr, hs, hd, hh]

end

/-! ### Arrivals (R158, R159, R297) -/

theorem sendhArrival_due {r : SendReq} {d : DieId} {c : CoreId} (h : arrivedSend s n false = some (r, d))
    (hc : arrivalCore s r = some c) (hd : dieRefuses s r = none) (ha : arrivalDie s r = d)
    (hx : runsCtx s c r.task.ctx = true ∨ (forwardOf s r.task.ctx r.target).isSome = true) (hs : sendDue s r = true)
    (hm : sendRoom s r c = true) : exec (.sendhArrival n) s = .next (deliverSendh s r c) := by
  have hrun : (!runsCtx s c r.task.ctx && (forwardOf s r.task.ctx r.target).isNone) = false := by
    obtain hx | hx := hx
    · simp [hx]
    · rw [← Option.not_isSome, hx, Bool.not_true, Bool.and_false]
  simp [exec, execSendhArrival, h, hc, hd, ha, hrun, hs, hm]

theorem redspArrival_due {r : SendReq} {d : DieId} {c : CoreId} {k op : Nat} {ord : Bool} {t : EType}
    (h : arrivedSend s n true = some (r, d)) (hc : arrivalCore s r = some c) (hd : dieRefuses s r = none)
    (hr : r.red = some (k, op, ord, t)) (ha : arrivalDie s r = d) (hg : redGuard s r c k = false) (hs : sendDue s r = true)
    (hf : redRefused s r c (Fin.ofNat 32 k) op ord t = none) :
    exec (.redspArrival n) s = .next (deliverRedsp s r c (Fin.ofNat 32 k) op ord t) := by
  simp only [exec, execRedspArrival, h, hc, hd, hr, ha, hg, hs, hf, ne_eq, not_true, Bool.not_true,
    Bool.false_eq_true, if_false]

section

variable {r : GbReq} (h : s.ms.gbars.find? (fun y => y.id == n && y.arrived && y.answer.isNone) = some r)
  (hb : releaseBefore s r.agent .device 0 r.id = true)

include h hb

theorem gbarCount_refuses (hm : r.task.member = false) :
    exec (.gbarCount n) s = .next (answerGbar s r (some (flt .barrier 0 (w64 (64 + r.g.val))))) := by
  simp only [exec, execGbarCount, h, hb, hm, gbFault, Bool.not_true, Bool.not_false, Bool.false_eq_true, if_false, if_true]

theorem gbarCount_counts {i : NodeInst} {b' : GBar} (hm : r.task.member = true)
    (hi : getInst s r.task.kinst r.task.node = some i)
    (ha : gbArrive ((getCaux s r.task.ctx).gb.get r.g) (r.task.kinst, r.task.node) i.g
      ((rankRec s r.task r.g).any (fun k => k.last == ((getCaux s r.task.ctx).gb.get r.g).phase)) = some b') :
    exec (.gbarCount n) s = .next (modCaux (noteRank (answerGbar s r none) r.task r.g ((getCaux s r.task.ctx).gb.get r.g).phase)
      r.task.ctx (fun a => { a with gb := vset a.gb r.g b' })) := by
  simp only [exec, execGbarCount, h, hb, hm, hi, ha, Bool.not_true, Bool.false_eq_true, if_false]

end

end

end Sys2Proof.Machine

namespace Sys2Proof.Package

open Sys2Proof.Machine Sys2Proof.Claims

/-- Settles O34: each event is due by its hypotheses; what an atomic writes is its table's value (`performAtomic_eq`). -/
theorem memoryPathEvents : Obligations.MemoryPathEvents := by
  intro s n
  refine ⟨fun c b w ws h => storeBufferDrain_due h, fun w h hs hp => writeApply_places h hs hp,
    fun w d h hs hp => writeApply_applies h hs hp,
    fun r h hf ht ha hr hs hd => ⟨fun f hh => atomicAtHome_faults h hf ht ha hr hs hd hh, fun hh hk hb hc => ?performed⟩,
    fun r d c h hc hd ha hx hs hm => sendhArrival_due h hc hd ha hx hs hm,
    fun r d c k op ord t h hc hd hr ha hg hs hf => redspArrival_due h hc hd hr ha hg hs hf,
    fun r h hb => ⟨fun hm => gbarCount_refuses h hb hm, fun i b' hm hi ha => gbarCount_counts h hb hm hi ha⟩⟩
  case performed =>
    rw [atomicAtHome_performs h hf ht ha hr hs hd hh, performAtomic_eq hk hb hc]

end Sys2Proof.Package
end

section
/-! The engines: stream-engine iterations, queue atomics' results, matrix steps and pops, pieces of a copy, collective steps
(R145 to R148, R170 to R172, R182, R204, R226, R360 to R362). -/

namespace Sys2Proof.Machine

open Sys2Proof Sys2Proof.Claims

/-! ### Iterations of a stream engine (R145, R147, R148) -/

section

variable {s : State} {c : CoreId} {b : BankId} {k : Fin 8} {o : EngOp}

theorem engStep_finish (hf : o.form ≠ .qatomic) (hn : o.total ≤ o.next) : engStep s c b k o = .ok (finishEng s c b k) := by
  simp [engStep, hf, hn]

theorem engStep_strm {s1 : State} {ks : List (Option Nat)} (hf : o.form = .strm) (hn : o.next < o.total)
    (hq : queueRoom (getBank s c b) (Fin.ofNat 16 o.q) (now s) ≠ 0)
    (ha : access s (engReq s c b false) (affineAddr o o.next) (rawLen o.etype) (rawAlign o.etype) = .ok (s1, ks)) :
    engStep s c b k o = .ok (bumpEng (modBank s1 c b (fun x =>
      pushQ x (Fin.ofNat 16 o.q) (now s1) [{ val := rawVec o.etype (readKeys s1 [] (dieOf c) ks) }])) c b k o) := by
  simp only [engStep, hf, Nat.not_le.mpr hn, decide_false, Bool.and_false, Bool.false_eq_true, if_false, strmStep, hq, ha, bind,
    Except.bind]

theorem engStep_drn {s1 : State} {ks : List (Option Nat)} {e : Entry} {es : List Entry} (hf : o.form = .drn)
    (hn : o.next < o.total) (hq : ((getBank s c b).q.get (Fin.ofNat 16 o.q)).seen (now s) ≠ 0)
    (he : ((getBank s c b).q.get (Fin.ofNat 16 o.q)).items = e :: es) (hb : e.bad = false)
    (ha : access s (engReq s c b true) (affineAddr o o.next) (rawLen o.etype) (rawAlign o.etype) = .ok (s1, ks)) :
    let s2 := engineStore s1 c b (bankOrigin s1 c b (engineNo c b k.val) true) (unitLen o.etype)
      (keyCells ks (rawBytes o.etype e.val))
    engStep s c b k o = .ok (bumpEng (modBank s2 c b (fun x => popQ x (Fin.ofNat 16 o.q) (now s2) 1)) c b k o) := by
  simp only [engStep, hf, Nat.not_le.mpr hn, decide_false, Bool.and_false, Bool.false_eq_true, if_false, drnStep, hq, he,
    List.head?_cons, Option.getD_some, hb, ha, bind, Except.bind]

/-- An operation that is not stopped takes its iteration on an issue cycle. -/
theorem streamEngineStep_of_first {os : List EngOp} (h : (getBank s c b).eng.ops.get k = o :: os) (hf : o.faulted = false)
    (he : enginesRun s = true) (hi : issueNow s c = true) (ht : (getBank s c b).task.isSome = true) :
    exec (.streamEngineStep c b k) s
      = afterIteration s (engStep s c b k o) (fun s f => faultEng s c b k o f) := by
  simp [exec, execStreamEngineStep, h, hf, he, hi, Option.isSome_iff_ne_none.mp ht]

end

/-! ### The result of a queue atomic (R204) -/

theorem queueAtomicResult_due {s : State} {c : CoreId} {b : BankId} {k : Fin 4} {o : EngOp} {os : List EngOp} {r : AtomicReq}
    {v : Word} (h : (getBank s c b).eng.ops.get (Fin.castLE (by omega) k) = o :: os) (hf : o.form = .qatomic)
    (hs : inSlot s = false) (hi : issueNow s c = true)
    (ha : s.ms.atomics.find? (fun r => r.agent.core == c && r.agent.bank == b && r.form == .queue k && r.num == o.num && r.back)
      = some r) (hv : r.result = some v) (hp : performedAt s r.wrote (dieOf c) = true)
    (hq : queueRoom (getBank s c b) (Fin.ofNat 16 o.q) (now s) ≠ 0) :
    exec (.queueAtomicResult c b k) s = .next (finishEng (modBank (dropAtomic s r.id) c b (fun x =>
      pushQ x (Fin.ofNat 16 o.q) (now s) [{ val := v.setWidth 2048 }])) c b (Fin.castLE (by omega) k)) := by
  simp only [exec, execQueueAtomicResult, h, hf, hs, hi, ha, hv, hp, hq]
  rfl

/-! ### Matrix steps and pops (R168 to R172, R182) -/

section

variable {s : State} {c : CoreId} {b : BankId} {m : MatRec} {ms : List MatRec}

/-- A record that is due a step has no entries left to push. -/
theorem pushDue_of_stepDue (h : (getBank s c b).eng.recs = m :: ms) (hd : stepDue s c b = true) : pushDue s c b m = false := by
  simp only [stepDue, h, Bool.and_eq_true] at hd
  have ho : m.out.isEmpty = true := by tauto
  simp [pushDue, ho]

/-- A step that is due takes the bank's mark of a bad datapath. -/
theorem matrixStep_due (h : (getBank s c b).eng.recs = m :: ms) (hd : stepDue s c b = true)
    (hb : b = .active → stepDue s c .shadow = false) :
    let q : Seq := { core := c, bank := b }
    let t := modAux s c b (fun x => { x with datapathBad := false })
    (∀ u n, (getAux s c b).datapathBad = false → matStep t q m = .ok (u, n) →
      exec (.matrixStep c b) s = .next (afterStep u q n))
    ∧ ((getAux s c b).datapathBad = true → exec (.matrixStep c b) s = .next (faultRec t q m (flt .eccu 0 8))) := by
  have hshadow : (decide (b = .active) && stepDue s c .shadow) = false := by
    by_cases hba : b = .active
    · rw [hb hba, Bool.and_false]
    · rw [decide_eq_false hba, Bool.false_and]
  constructor
  · intro u n hbad hm
    simp only [exec, execMatrixStep, h, pushDue_of_stepDue h hd, hd, hshadow, hbad, hm]
    rfl
  · intro hbad
    simp only [exec, execMatrixStep, h, pushDue_of_stepDue h hd, hd, hshadow, hbad]
    rfl

theorem matrixStep_push (h : (getBank s c b).eng.recs = m :: ms) (hd : pushDue s c b m = true) :
    exec (.matrixStep c b) s = .next (pushOut s { core := c, bank := b } m) := by
  simp [exec, execMatrixStep, h, hd]

theorem matrixPop_due {p : Fin 3} {ps : List (Fin 3)} {r : Ring} (h : (getBank s c b).eng.recs = m :: ms) (hp : m.pops = p :: ps)
    (hf : m.faulted = false) (hi : issueNow s c = true) (hr : getRing s c b (popRing m p) = some r) (hn : r.held ≠ 0) :
    exec (.matrixPop c b) s
      = .next (finishRec (setRing s c b (popRing m p) r.pop) { core := c, bank := b } { m with pops := ps }) := by
  simp [exec, execMatrixPop, h, hp, hf, hi, hr, hn]

end

/-! ### Pieces of a copy (R226) -/

section

variable {s : State} {d : DieId} {k : Fin 8} {o : CopyOp} {os : List CopyOp} {hpa : List (BitVec 44)}

theorem copyPiece_finish (h : ((getDie s d).cp.get k).ops = o :: os) (he : o.discarded = true ∨ o.len ≤ o.done)
    (hf : opFlying s o.id = false) : exec (.copyPiece d k hpa) s = .next (finishCopy s d k) := by
  simp [exec, execCopyPiece, h, he, hf]

theorem cpyPiece_ok {s1 s2 : State} {from_ to_ : List (Option Nat)}
    (hr : access s (copyReq d o false) (o.src + BitVec.ofNat 64 o.done) (pieceLen o o.dst.toNat) 1 = .ok (s1, from_))
    (hw : access s1 (copyReq d o true) (o.dst + BitVec.ofNat 64 o.done) (pieceLen o o.dst.toNat) 1 = .ok (s2, to_)) :
    cpyPiece s d k o = .ok (pieceDone (dieStore s2 d (copyOrigin d k o) 4 (keyCells to_ (readKeys s2 [] d from_))) d k o
      (pieceLen o o.dst.toNat)) := by
  simp only [cpyPiece, hr, hw, bind, Except.bind]

theorem copyPiece_copies {t : State} (h : ((getDie s d).cp.get k).ops = o :: os) (hd : o.discarded = false)
    (hl : o.done < o.len) (hf : o.faulted = false) (he : enginesRun s = true) (hh : o.host = none)
    (hp : cpyPiece s d k o = .ok t) : exec (.copyPiece d k hpa) s = .next t := by
  simp [exec, execCopyPiece, h, hd, Nat.not_le.mpr hl, hf, he, hh, hp]

end

/-! ### Collective steps (R356 to R362) -/

/-- A digest alone is compared with itself only. -/
theorem differs_singleton (w : Nat × Nat × Nat × Nat) : differs [w] = none := by
  simp [differs]

section

variable {s : State} {d : DieId} {k : CommKey} {o : CollOp}
  (h : (getDie s d).coOps.find? (fun o => o.ctx == k.ctx && o.handle == k.handle && !o.finished) = some o)

include h

theorem collectiveStep_discarded {peers : PeerData} (hd : o.discarded = true) (hf : opFlying s o.id = false) :
    exec (.collectiveStep d k peers) s = .next (finishColl (abortStep s d o) d o) := by
  simp [exec, execCollectiveStep, h, hd, hf]

variable (hd : o.discarded = false) (hf : o.faulted = false) (he : enginesRun s = true) {c : Comm}
  (hc : (if o.op = 4 then some noComm else findComm s k.ctx k.handle) = some c)

include hd hf he hc

theorem collectiveStep_lost {peers : PeerData} {f : FaultInfo} (hl : stepLost s o c peers = some f) :
    exec (.collectiveStep d k peers) s = .next (faultColl s d o.anew f) := by
  simp [exec, execCollectiveStep, h, hd, hf, he, hc, hl]

theorem collectiveStep_runs {ops : List (Nat × Nat × Nat × Nat)} {bytes : List (List Byte)} {digests : List Word}
    {fallbacks mismatches : List (Fin 12)} (hl : stepLost s o c (.data ops bytes digests fallbacks mismatches) = none) :
    exec (.collectiveStep d k (.data ops bytes digests fallbacks mismatches)) s
      = runColl s d o c ops bytes digests fallbacks mismatches := by
  simp [exec, execCollectiveStep, h, hd, hf, he, hc, hl]

end

theorem stepLost_aborted {s : State} {o : CollOp} {c : Comm} (ho : o.op ≠ 4) (hl : o.lost = none) :
    stepLost s o c .aborted = some (flt .cancelled 0 (w64 o.step)) := by
  simp only [stepLost, ho, hl, if_false]

section

variable {s : State} {d : DieId} {o : CollOp} {c : Comm} {ops : List (Nat × Nat × Nat × Nat)} {bytes : List (List Byte)}
  {digests : List Word} {fallbacks mismatches : List (Fin 12)}

theorem runColl_gives {s1 : State} {own : List Byte} (ho : o.own = none)
    (hr : readPieces s (collReq d o false) 0 (rangePieces o.s.toNat (collIn c o)) = .ok (s1, own)) :
    runColl s d o c ops bytes digests fallbacks mismatches = .next (foldAll (setColl s1 d { o with own := some own })
      (if o.op = 4 then [] else c.others) (giveRank d o c)) := by
  simp only [runColl, ho, giveStep, hr]

theorem runColl_differs {own : List Byte} {i : Nat} (ho : o.own = some own) (hr : o.result = none) (h4 : o.op ≠ 4)
    (hd : dataFits c o ops bytes digests = true) (hg : allGave s c o ops bytes = true)
    (hi : differs (withOwn ops c.rank (opWord o)) = some i) :
    runColl s d o c ops bytes digests fallbacks mismatches
      = .next (faultColl s d o.anew { flt .barrier 0 (w64 o.step) with aux := Config.differingField i }) := by
  simp [runColl, ho, hr, h4, hd, hg, dataStep, hi]

/-- What a step computes whose operations agree: a digest alone is of its own bytes. -/
theorem runColl_data {own : List Byte} (ho : o.own = some own) (hr : o.result = none) (h0 : o.op = 4 → c.rank = 0)
    (hd : o.op ≠ 4 → dataFits c o ops bytes digests = true ∧ allGave s c o ops bytes = true
      ∧ differs (withOwn ops c.rank (opWord o)) = none) :
    let out := if o.op = 4 then toBytes 8 (crc64 own).toNat else collOut c o own bytes digests
    runColl s d o c ops bytes digests fallbacks mismatches
      = putColl s (foldAll s (if o.op = 4 then [] else fallbacks) (fun t p => countPort t 3 p)) d { o with result := some out }
          out := by
  by_cases h4 : o.op = 4
  · have hone : withOwn [opWord o] c.rank (opWord o) = [opWord o] := by rw [h0 h4]; rfl
    simp only [runColl, ho, hr, h4, if_true, dataStep, hone, differs_singleton, collOut]
  · obtain ⟨hfit, hgave, hagree⟩ := hd h4
    simp [runColl, ho, hr, h4, hfit, hgave, dataStep, hagree]

theorem putColl_writes {s0 s2 : State} {o' : CollOp} {out : List Byte}
    (hw : writePieces s d o (out.drop (((rangePieces o.d.toNat out.length).take o.piece).map (·.2)).sum)
      ((rangePieces o.d.toNat out.length).drop o.piece) = (s2, o', none)) :
    putColl s0 s d o out = .next (setColl s2 d o') := by
  simp only [putColl, hw]

theorem runColl_closes {own out : List Byte} (ho : o.own = some own) (hr : o.result = some out)
    (hp : (rangePieces o.d.toNat out.length).length ≤ o.piece) (hf : opFlying s o.id = false)
    (hg : o.op < 3 → (getCtx s o.ctx).attr.getLsbD 0 = true → digests.length = c.p) :
    runColl s d o c ops bytes digests fallbacks mismatches = .next (closeColl s d o c out digests mismatches) := by
  have hdigests : (decide (o.op < 3) && (getCtx s o.ctx).attr.getLsbD 0 && digests.length != c.p) = false := by
    rw [Bool.eq_false_iff]
    intro hbad
    simp only [Bool.and_eq_true, decide_eq_true_eq, bne_iff_ne] at hbad
    obtain ⟨⟨hop, hdet⟩, hne⟩ := hbad
    exact hne (hg hop hdet)
  simp only [runColl, ho, hr, Nat.not_lt.mpr hp, if_false, hf, hdigests, Bool.or_self, Bool.false_eq_true]

end

end Sys2Proof.Machine

namespace Sys2Proof.Package

open Sys2Proof.Machine Sys2Proof.Claims

/-- Settles O37: each event by what its step returns under the hypotheses (`engStep`, `matStep`, `cpyPiece`, `runColl`). -/
theorem engineEvents : Obligations.EngineEvents := by
  intro s
  refine ⟨fun c b k o os h hf he hi ht => ?stream, fun c b k o os r v h hf hs hi ha hv hp hq =>
    queueAtomicResult_due h hf hs hi ha hv hp hq, fun c b m ms hd hb h => matrixStep_due h hd hb,
    fun c b m ms h hd => matrixStep_push h hd, fun c b m ms p ps r h hp hf hi hr hn => matrixPop_due h hp hf hi hr hn,
    fun d k o os hpa h => ⟨fun he hf => copyPiece_finish h he hf,
      fun s1 from_ s2 to_ hd hl hf he hh hr hw => copyPiece_copies h hd hl hf he hh (cpyPiece_ok hr hw)⟩,
    fun d k o h => ⟨fun peers hd hf => collectiveStep_discarded h hd hf, fun c hd hf he hc => ⟨fun peers f hl =>
      collectiveStep_lost h hd hf he hc hl, fun h4 hl => collectiveStep_lost h hd hf he hc (stepLost_aborted h4 hl), ?data⟩⟩⟩
  case stream =>
    have hstep := streamEngineStep_of_first h hf he hi ht
    refine ⟨fun hq hn => ?_, fun s1 ks hq hn hr ha => ?_, fun s1 ks e es hq hn hr hes hb ha => ?_, fun t f hfault => ?_⟩
    · rw [hstep, engStep_finish hq hn, afterIteration]
    · rw [hstep, engStep_strm hq hn hr ha, afterIteration]
    · rw [hstep, engStep_drn hq hn hr hes hb ha, afterIteration]
    · rw [hstep, hfault, afterIteration]
  case data =>
    intro ops bytes digests fallbacks mismatches data hl
    have hrun := collectiveStep_runs h hd hf he hc hl
    refine ⟨fun s1 own ho hr => ?_, fun own i ho hr h4 hfit hg hi => ?_, fun own s2 o' ho hr hagree hw => ?_,
      fun own out ho hr hp hfly hg => ?_⟩
    · rw [hrun, runColl_gives ho hr]
    · rw [hrun, runColl_differs ho hr h4 hfit hg hi]
    · have hzero : o.op = 4 → c.rank = 0 := by
        intro h4
        rw [if_pos h4] at hc
        cases hc
        rfl
      rw [hrun, runColl_data ho hr hzero hagree]
      exact putColl_writes hw
    · rw [hrun, runColl_closes ho hr hp hfly hg]

end Sys2Proof.Package
end

section
/-! Acceptance of a matrix record (R168, R169). -/

namespace Sys2Proof.Machine

open Sys2Proof Sys2Proof.Claims

/-- The nine matrix records of the same fields, each with its form (R177). -/
def recordForms (r : RecF) : List (Instr × MForm) :=
  [(.mma r, .mma), (.mmas r, .mmas), (.mhad r, .mhad), (.mclr r, .mclr), (.mlda r, .mlda), (.msta r, .msta), (.mscl r, .mscl),
    (.madda r, .madda), (.mxp r, .mxp)]

/-- X evaluates each of the nine as the record of its form. -/
theorem exec_recordForms (r : RecF) (s : State) : ∀ p ∈ recordForms r, exec p.1 s = matForm p.2 r s :=
  List.forall_iff_forall_mem.mp ⟨rfl, rfl, rfl, rfl, rfl, rfl, rfl, rfl, rfl⟩

theorem modRegs_eng (k : Bank) (t : Stream) (f : StreamRegs → StreamRegs) : (k.modRegs t f).eng = k.eng := by
  cases t <;> rfl

theorem acceptRec_task (s : State) (g : Agent) (f : MForm) (r : RecF) :
    (bankOf (acceptRec s g f r) g).task = (bankOf s g).task := modBankOf_task fun _ => modRegs_task ..

/-- R168: a record takes the next number of tl.m. -/
theorem acceptRec_issued (s : State) (g : Agent) (f : MForm) (r : RecF) :
    (bankOf (acceptRec s g f r) g).eng.issued.get 0 = (bankOf s g).eng.issued.get 0 + 1 := by
  rw [acceptRec, bankOf_modBankOf, modRegs_eng, vset_get_self]

section

variable {r : RecF} {s : State} (h : readyRec r s = true)

include h

/-- A record whose effect leaves its bank's task commits four words. -/
theorem runRec_commits {body : State → Agent → Res Done} {t : State} (hb : body (begun s r.wait) s.cur = done t)
    (ht : (bankOf t s.cur).task = (bankOf (begun s r.wait) s.cur).task) :
    runRec r body s = .next (commitWord t s.cur (recTokens r) [] none 4) := by
  rw [runRec_ready h, hb, done, finishWord_commit (ht ▸ readyWith_task h)]

theorem matForm_accepts {f : MForm} (hn : (bankOf (begun s r.wait) s.cur).eng.recs.length < 4)
    (hc : checkRecord (begun s r.wait) s.cur f r = .ok ()) :
    matForm f r s = .next (commitWord (acceptRec (begun s r.wait) s.cur f r) s.cur (recTokens r) [] none 4) := by
  have hroom : seqRoom (bankOf (begun s r.wait) s.cur) = true := decide_eq_true hn
  exact runRec_commits h (by simp only [hroom, hc]; rfl) (acceptRec_task ..)

/-- R168: a record waits while four are accepted. -/
theorem matForm_waits {f : MForm} (hn : 4 ≤ (bankOf (begun s r.wait) s.cur).eng.recs.length) :
    matForm f r s = .next (stallAt (begun s r.wait) s.cur .op 7) := by
  have hroom : seqRoom (bankOf (begun s r.wait) s.cur) = false := decide_eq_false (Nat.not_lt.mpr hn)
  rw [matForm, runRec_ready h]
  simp only [hroom]
  rfl

end

end Sys2Proof.Machine

namespace Sys2Proof.Package

open Sys2Proof.Machine Sys2Proof.Claims

/-- Settles O32: the nine records differ only in their form (`exec_recordForms`), which is accepted or waits for room. -/
theorem matrixRecords : Obligations.MatrixRecords := by
  intro r s h s1 g p hp
  rw [exec_recordForms r s p hp]
  exact ⟨fun hn hc => ⟨matForm_accepts h hn hc, acceptRec_issued ..⟩, matForm_waits h⟩

end Sys2Proof.Package
end

section
/-! The atomics at their issuer (R193, R203 to R205). -/

namespace Sys2Proof.Machine

open Sys2Proof Sys2Proof.Claims

/-- The ten atomic forms of the same fields, each with its operation (R205). -/
def atomicForms (w : WordF) : List (Instr × AOp) :=
  [(.aadd w, .add), (.afadd w, .fadd), (.amin w, .min), (.amax w, .max), (.aand w, .and), (.aor w, .or), (.axor w, .xor),
    (.aswp w, .swp), (.acas w, .cas), (.aincw w, .incw)]

/-- L and S evaluate each of the ten as the atomic of its operation. -/
theorem exec_atomicForms (w : WordF) (s : State) : ∀ p ∈ atomicForms w, exec p.1 s = atomicWord w p.2 s :=
  List.forall_iff_forall_mem.mp ⟨rfl, rfl, rfl, rfl, rfl, rfl, rfl, rfl, rfl, rfl⟩

/-- The state in which the request of an atomic has entered its path (R193, R204). -/
def atomicSent (s : State) (g : Agent) (w : WordF) (op : AOp) (va : Word) (l : Leaf) (num : Word) : State :=
  pushAtomic (takeId s).1 (atomicReq (takeId s).1 g w op l va s.nextId num)

theorem bankOf_pushAtomic (s : State) (g : Agent) (r : AtomicReq) : bankOf (pushAtomic s r) g = bankOf s g := by
  unfold pushAtomic postAtomic
  split <;> rfl

theorem bankOf_atomicSent (s : State) (g : Agent) (w : WordF) (op : AOp) (va : Word) (l : Leaf) (num : Word) :
    bankOf (atomicSent s g w op va l num) g = bankOf s g := bankOf_pushAtomic ..

theorem countMisses_eng (s : State) (g : Agent) (n : Nat) : (bankOf (countMisses s g n) g).eng = (bankOf s g).eng := by
  unfold countMisses
  split
  · rfl
  · rw [modRegsOf, bankOf_modBankOf, modRegs_eng]

section

variable {s t : State} {g : Agent} {va : Word} {n : Nat} {r : State × Leaf}

/-- R203: an atomic whose access passes its checks is served and its misses are counted. -/
theorem atomicAccess_counts (h : atomicAccess s g va n = .ok r) :
    ∃ q ps m, r.1 = countMisses (served s q ps) g m := by
  simp only [atomicAccess, bind, Except.bind] at h
  split at h
  · cases h
  · split at h
    · cases h
    · split at h
      · cases h
      · split at h
        · cases h
          exact ⟨_, _, _, rfl⟩
        · cases h

theorem atomicAccess_task (h : atomicAccess s g va n = .ok r) : (bankOf r.1 g).task = (bankOf s g).task := by
  obtain ⟨q, ps, m, hr⟩ := atomicAccess_counts h
  rw [hr, countMisses_served_task]

theorem atomicAccess_eng (h : atomicAccess s g va n = .ok r) : (bankOf r.1 g).eng = (bankOf s g).eng := by
  obtain ⟨q, ps, m, hr⟩ := atomicAccess_counts h
  rw [hr, countMisses_eng, (served_pageChange s q ps).bankOf]

theorem acceptEng_task {k : Fin 8} {o : EngOp} (h : acceptEng s g k o = .ok t) : (bankOf t g).task = (bankOf s g).task := by
  simp only [acceptEng] at h
  split at h
  · cases h
  · cases h
    refine (modBankOf_task ?_).trans (congrArg Bank.task (bankOf_drainAll ..))
    exact fun _ => modRegs_task ..

end

/-- A check that only some words make passes where each of them passes it. -/
theorem passes_ite {α : Type} {c : Prop} [Decidable c] {x : Res Unit} {f : Unit → Res α} (h : c → x = .ok ()) :
    (if c then x >>= f else f ()) = f () := by
  split
  · next hc => rw [h hc]; rfl
  · rfl

section

variable {w : WordF} {op : AOp} {s : State} {r : State × Leaf} (hr : ready w false s = true)
  (h : sourcesOk (begun s w.wait) s.cur (atomicSources w op) [] = true)
  (hd : op = .cas → checkDesc (begun s w.wait) s.cur w.srcB 2 = .ok ())
  (hs : checkScope (begun s w.wait) s.cur w = .ok ())
  (ha : atomicAccess (begun s w.wait) s.cur (src s w (atomicSources w op) 0) (elemLen w.etype) = .ok r)

include hr h hd hs ha

/-- R204: a register result is waited for. -/
theorem atomicWord_waits (hf : atomicForm w = .reg) :
    atomicWord w op s
      = .next (pendWord (atomicSent r.1 s.cur w op (src s w (atomicSources w op) 0) r.2 0) s.cur .atomic r.1.nextId w) := by
  rw [src] at ha
  refine runWord_pends hr ?_
  simp only [takeSources_ok h, passes_ite hd, hs, hf, ha]
  rfl

/-- R204: a posted request is done with its acceptance. -/
theorem atomicWord_posts (hf : atomicForm w = .posted) :
    atomicWord w op s = .next (commits w s (atomicSent r.1 s.cur w op (src s w (atomicSources w op) 0) r.2 0)
      (atomicSources w op) none) := by
  rw [src] at ha
  refine runWord_commits hr (by simp only [takeSources_ok h, passes_ite hd, hs, hf, ha]; rfl) ?_
  rw [bankOf_atomicSent, atomicAccess_task ha]

/-- R204: a queue form is an operation of a stream engine, whose number its request carries. -/
theorem atomicWord_enters {k : Fin 4} {q : Fin 16} {t : State} (hf : atomicForm w = .queue k)
    (hq : Operand.queue? w.dst = some q) (hb : checkBind (begun s w.wait) s.cur (engNo s.cur k.val) q true = .ok ())
    (ht : acceptEng r.1 s.cur (engNo s.cur k.val) { form := .qatomic, num := 0, q := q.val, c0 := 1, c1 := 1 } = .ok t) :
    atomicWord w op s = .next (commits w s (atomicSent t s.cur w op (src s w (atomicSources w op) 0) r.2
      ((bankOf r.1 s.cur).eng.issued.get (engTl (engNo s.cur k.val)) + 1)) (atomicSources w op) none) := by
  rw [src] at ha
  rw [atomicAccess_eng ha]
  refine runWord_commits hr ?_ ?_
  · simp only [takeSources_ok h, passes_ite hd, hs, hf, hq, Option.getD_some, hb, ha]
    simp only [bind, Except.bind, ht, orStall]
    rfl
  · rw [bankOf_atomicSent, acceptEng_task ht, atomicAccess_task ha]

end

end Sys2Proof.Machine

namespace Sys2Proof.Package

open Sys2Proof.Machine Sys2Proof.Claims

/-- Settles O20: the ten forms differ only in their operation (`exec_atomicForms`), and the form of the result says whether
the word waits, commits, or enters an engine. -/
theorem atomics : Obligations.Atomics := by
  intro w s hr s1 g p hp op srcs va sends h hd hs r ha
  rw [exec_atomicForms w s p hp]
  exact ⟨atomicWord_waits hr h hd hs ha, atomicWord_posts hr h hd hs ha,
    fun k q t hf hq hb ht => atomicWord_enters hr h hd hs ha hf hq hb ht⟩

end Sys2Proof.Package
end

section
/-! SPAWN and RENQ (R195, R249, R250). -/

namespace Sys2Proof.Machine

open Sys2Proof Sys2Proof.Claims

theorem bankOf_spawnTasks (s : State) (g : Agent) (me : Task) (first n : Nat) (b : Word) (m : Nat) :
    bankOf (spawnTasks s me first n b m) g = bankOf s g := by
  induction m generalizing s with
  | zero => rfl
  | succ m ih =>
    rw [spawnTasks]
    exact ih _

/-- The state in which RENQ has touched its target's die (R250). -/
def renqTouched (s : State) (g : Agent) (c : CoreId) : State := touch s (taskOf s g).ctx (dieOf c)

theorem bankOf_renqTouched (s : State) (g h : Agent) (c : CoreId) : bankOf (renqTouched s h c) g = bankOf s g := rfl

theorem getCore_touch (s : State) (x : CtxId) (d : DieId) (c : CoreId) : getCore (touch s x d) c = getCore s c := rfl

theorem bankOf_renqTask (s : State) (g h : Agent) (c : CoreId) (a e : Word) : bankOf (renqTask s h c a e) g = bankOf s g := by
  simp only [renqTask]
  exact bankOf_modCore _ g c fun _ b => by cases b <;> rfl

theorem checkAlign_ok (s : State) {a : Word} {n : Nat} (h : a.toNat % n = 0) : checkAlign s a n = .ok () := if_pos h

section

variable {w : WordF} {s : State} (hr : ready w false s = true)

include hr

section

variable (h : sourcesOk (begun s w.wait) s.cur [w.srcA, w.srcB] (dstPush w.dst) = true)
  (hn : (src s w [w.srcA, w.srcB] 0).toNat ≤ 65536)

include h hn

theorem spawn_enters (hp : (src s w [w.srcA, w.srcB] 0).toNat ≤ poolRoom (begun s w.wait) (taskOf (begun s w.wait) s.cur))
    (hd : releaseReady (begun s w.wait) s.cur .device 0 = true) :
    let me := taskOf (begun s w.wait) s.cur
    let n := (src s w [w.srcA, w.srcB] 0).toNat
    exec (.spawn w) s = .next (commits w s (writeScalar (spawnTasks (begun s w.wait) me (spawnFirst (begun s w.wait) me) n
      (src s w [w.srcA, w.srcB] 1) n) s.cur w.dst (w64 (spawnFirst (begun s w.wait) me))) [w.srcA, w.srcB] none) := by
  rw [src] at hn hp
  dsimp only [exec]
  refine runWord_commits hr ?_ ?_
  · simp only [takeSources_ok h, Nat.not_lt.mpr hn, Nat.not_lt.mpr hp, hd]
    rfl
  · rw [writeScalar_task, bankOf_spawnTasks]

theorem spawn_waits (hd : releaseReady (begun s w.wait) s.cur .device 0 = false) :
    exec (.spawn w) s = .next (stallAt (begun s w.wait) s.cur .op 7) := by
  rw [src] at hn
  dsimp only [exec]
  refine runWord_stalls (why := .op) hr ?_
  simp only [takeSources_ok h, Nat.not_lt.mpr hn, hd, Bool.not_false, Bool.or_true]
  rfl

end

section

variable {c : CoreId} (h : sourcesOk (begun s w.wait) s.cur [w.srcA, w.srcB, w.srcC] (dstPush w.dst) = true)
  (hc : targetCore (begun s w.wait) id (src s w [w.srcA, w.srcB, w.srcC] 0) true = .ok c)
  (ha : (src s w [w.srcA, w.srcB, w.srcC] 2).toNat % 16 = 0) (hp : (src s w [w.srcA, w.srcB, w.srcC] 2).toNat < 2 ^ 52)
  (hd : checkReach (begun s w.wait) (agentDie s.cur) (dieOf c) = .ok ())

include h hc ha hp hd

theorem renq_enters (hl : (getCore (begun s w.wait) c).work.engine.length < 16)
    (hq : releaseReady (renqTouched (begun s w.wait) s.cur c) s.cur .device 0 = true) :
    exec (.renq w) s = .next (commits w s (writeScalar (renqTask (renqTouched (begun s w.wait) s.cur c) s.cur c
      (src s w [w.srcA, w.srcB, w.srcC] 1) (src s w [w.srcA, w.srcB, w.srcC] 2)) s.cur w.dst 1)
      [w.srcA, w.srcB, w.srcC] none) := by
  rw [src] at hc ha hp
  dsimp only [exec]
  refine runWord_commits hr ?_ ?_
  · rw [renqTouched] at hq
    simp only [takeSources_ok h, hc, checkAlign_ok _ ha, bind, Except.bind, Nat.not_le.mpr hp, hd, getCore_touch, hl, hq]
    rfl
  · rw [writeScalar_task, bankOf_renqTask, bankOf_renqTouched]

/-- R250: with .try RENQ gives 0 at a full queue. -/
theorem renq_refuses (hl : 16 ≤ (getCore (begun s w.wait) c).work.engine.length) (hm : w.mod.getLsbD 0 = true) :
    exec (.renq w) s = .next (commits w s (writeScalar (renqTouched (begun s w.wait) s.cur c) s.cur w.dst 0)
      [w.srcA, w.srcB, w.srcC] none) := by
  rw [src] at hc ha hp
  dsimp only [exec]
  refine runWord_commits hr ?_ (writeScalar_task ..)
  simp only [takeSources_ok h, hc, checkAlign_ok _ ha, bind, Except.bind, Nat.not_le.mpr hp, hd, getCore_touch,
    Nat.not_lt.mpr hl, hm]
  rfl

end

end

end Sys2Proof.Machine

namespace Sys2Proof.Package

open Sys2Proof.Machine Sys2Proof.Claims

/-- Settles O9: SPAWN enters its tasks or waits for its release; RENQ, whose checks pass, enters its task where the target's
queue has room, and with .try answers 0 where it has none. -/
theorem spawnAndRenq : Obligations.SpawnAndRenq := by
  intro w s hr s1 g
  exact ⟨fun h => ⟨fun hn hp hd => spawn_enters hr h hn hp hd, fun hn hd => spawn_waits hr h hn hd⟩,
    fun h c hc ha hp hd => ⟨fun hl hq => renq_enters hr h hc ha hp hd hl hq,
      fun hl hm => renq_refuses hr h hc ha hp hd hl hm⟩⟩

end Sys2Proof.Package
end

section
/-! KLAUNCH, KWAIT and KCANCEL.kern (R265 to R267, R280, R281, R283). -/

namespace Sys2Proof.Machine

open Sys2Proof Sys2Proof.Claims

/-- The kernel that KLAUNCH describes in its block (R280). -/
def launched (s : State) (g : Agent) (o : Operand) : Kernel :=
  { kinst := w64 ((taskOf s g).ctx.val + 64 * ((getCaux s (taskOf s g).ctx).serial + 1)), ctx := (taskOf s g).ctx
    image := blockReg s g o 0, argp := blockReg s g o 1, seed := blockReg s g o 2, cpl := blockReg s g o 3
    after := blockReg s g o 4, cvec := (blockReg s g o 5).toNat % 2048, noirq := (blockReg s g o 5).getLsbD 16 }

/-- The state in which the kernel of a KLAUNCH is HELD and its handle given (R265, R280). -/
def launchHeld (s : State) (g : Agent) (o : Operand) : State :=
  modDisp (modCaux s (taskOf s g).ctx (fun a => { a with serial := (getCaux s (taskOf s g).ctx).serial + 1 }))
    (fun d => { d with kerns := d.kerns ++ [launched s g o] })

/-- R281: has a kernel ended while operations of its tasks still run? -/
def lastOpsRun (s : State) (a : Word) : Bool := (findKern s a).isNone && kernBusy s a

/-- R280: the registers of a block that KLAUNCH takes. -/
structure LaunchBlock (s : State) (g : Agent) (o : Operand) : Prop where
  unmarked : blockBad s g o 6 = none
  imageAlign : (blockReg s g o 0).toNat % 64 = 0
  cplAlign : (blockReg s g o 3).toNat % 64 = 0
  flags : blockReg s g o 5 &&& ~~~(0x107FF : Word) = 0
  image : (blockReg s g o 0).toNat < 2 ^ 52
  cpl : (blockReg s g o 3).toNat < 2 ^ 52

section

variable {w : WordF} {s : State} (hr : ready w false s = true)

include hr

/-- A word that is ready and whose effect may end its bank's task commits unless it has. -/
theorem runWord_commitsUnlessEnded {t : State} {srcs : List Operand} {body : State → Agent → Res Done}
    (hb : body (begun s w.wait) s.cur = donePop t srcs) :
    runWord w false body s = .next (commitsUnlessEnded w s t srcs) := by
  rw [runWord_ready hr, hb]
  rfl

theorem klaunch_holds (h : sourcesOk (begun s w.wait) s.cur [] (dstPush w.dst) = true)
    (hb : LaunchBlock (begun s w.wait) s.cur w.srcA) (hn : heldCount (begun s w.wait) < 4096)
    (hd : releaseReady (begun s w.wait) s.cur .device 0 = true)
    (ha : afterBad (begun s w.wait) (taskOf (begun s w.wait) s.cur).ctx (blockReg (begun s w.wait) s.cur w.srcA 4) = false) :
    exec (.klaunch w) s = .next (commits w s (writeScalar (launchHeld (begun s w.wait) s.cur w.srcA) s.cur w.dst
      (launched (begun s w.wait) s.cur w.srcA).kinst) [] none) := by
  obtain ⟨hm, h0, h3, h5, hi, hc⟩ := hb
  dsimp only [exec]
  refine runWord_commits hr ?_ (writeScalar_task ..)
  simp only [takeSources_ok h, hm, h0, h3, h5, Nat.not_le.mpr hi, Nat.not_le.mpr hc, Nat.not_le.mpr hn, hd, ha, ne_eq,
    not_true_eq_false]
  rfl

variable (h : sourcesOk (begun s w.wait) s.cur [w.srcA] (dstPush w.dst) = true)

include h

/-! ### KWAIT (R281) -/

theorem kwait_answers {v : Word}
    (he : lastOpsRun (begun s w.wait) (src s w [w.srcA] 0) = false)
    (hv : kwaitValue (begun s w.wait) (taskOf (begun s w.wait) s.cur) (src s w [w.srcA] 0) = some v) :
    exec (.kwait w) s = .next (scalarLeaves w [w.srcA] v s) := by
  rw [src, lastOpsRun] at he
  rw [src] at hv
  dsimp only [exec]
  exact runWord_leaves (scalarReady_iff.mpr ⟨hr, h⟩) (by simp only [takeSources_ok h, he, hv]; rfl)

/-- R281: with .try a kernel that has not retired gives 0xFD. -/
theorem kwait_triesInVain
    (he : lastOpsRun (begun s w.wait) (src s w [w.srcA] 0) = false)
    (hv : kwaitValue (begun s w.wait) (taskOf (begun s w.wait) s.cur) (src s w [w.srcA] 0) = none)
    (hm : w.mod.getLsbD 0 = true) : exec (.kwait w) s = .next (scalarLeaves w [w.srcA] 0xFD s) := by
  rw [src, lastOpsRun] at he
  rw [src] at hv
  dsimp only [exec]
  exact runWord_leaves (scalarReady_iff.mpr ⟨hr, h⟩) (by simp only [takeSources_ok h, he, hv, hm]; rfl)

theorem kwait_waitsForOperations
    (he : lastOpsRun (begun s w.wait) (src s w [w.srcA] 0) = true) :
    exec (.kwait w) s = .next (stallAt (begun s w.wait) s.cur .queues 6) := by
  rw [src, lastOpsRun] at he
  dsimp only [exec]
  exact runWord_stalls (why := .queues) hr (by simp only [takeSources_ok h, he]; rfl)

theorem kwait_waitsForEnd
    (hv : kwaitValue (begun s w.wait) (taskOf (begun s w.wait) s.cur) (src s w [w.srcA] 0) = none)
    (hm : w.mod.getLsbD 0 = false) : exec (.kwait w) s = .next (stallAt (begun s w.wait) s.cur .queues 6) := by
  rw [src] at hv
  dsimp only [exec]
  refine runWord_stalls (why := .queues) hr ?_
  simp only [takeSources_ok h, hv, hm]
  exact ite_self _

/-! ### KCANCEL.kern (R283) -/

theorem kcancelKern_neverLaunched
    (hl : everLaunched (begun s w.wait) (taskOf (begun s w.wait) s.cur).ctx (src s w [w.srcA] 0) = false) :
    exec (.kcancelKern w) s = .next (scalarLeaves w [w.srcA] 1 s) := by
  rw [src] at hl
  dsimp only [exec]
  exact runWord_leaves (scalarReady_iff.mpr ⟨hr, h⟩) (by simp only [takeSources_ok h, hl]; rfl)

section

variable (hl : everLaunched (begun s w.wait) (taskOf (begun s w.wait) s.cur).ctx (src s w [w.srcA] 0) = true)

include hl

theorem kcancelKern_retired (hk : findKern (begun s w.wait) (src s w [w.srcA] 0) = none) :
    exec (.kcancelKern w) s = .next (scalarLeaves w [w.srcA] 2 s) := by
  rw [src] at hl hk
  dsimp only [exec]
  exact runWord_leaves (scalarReady_iff.mpr ⟨hr, h⟩) (by simp only [takeSources_ok h, hl, hk]; rfl)

variable {k : Kernel} (hk : findKern (begun s w.wait) (src s w [w.srcA] 0) = some k)

include hk

theorem kcancelKern_ending (he : k.ending.isSome = true) :
    exec (.kcancelKern w) s = .next (scalarLeaves w [w.srcA] 2 s) := by
  rw [src] at hl hk
  dsimp only [exec]
  exact runWord_leaves (scalarReady_iff.mpr ⟨hr, h⟩) (by simp only [takeSources_ok h, hl, hk, he]; rfl)

/-- R283: the nodes of the kernel are cancelled, that of the word's own task perhaps among them. -/
theorem kcancelKern_cancels (he : k.ending = none) :
    exec (.kcancelKern w) s = .next (commitsUnlessEnded w s
      (cancelKernel (writeScalar (begun s w.wait) s.cur w.dst 0) k) [w.srcA]) := by
  rw [src] at hl hk
  dsimp only [exec]
  refine runWord_commitsUnlessEnded hr ?_
  simp only [takeSources_ok h, hl, hk, he]
  rfl

end

end

end Sys2Proof.Machine

namespace Sys2Proof.Package

open Sys2Proof.Machine Sys2Proof.Claims

/-- Settles O10: each word's answer, wait or effect, by what it finds of the kernel. -/
theorem kernelWords : Obligations.KernelWords := by
  intro w s hr s1 g me
  refine ⟨fun h hb h0 h3 h5 hi hc hn hd ha => klaunch_holds hr h ⟨hb, h0, h3, h5, hi, hc⟩ hn hd ha, fun h => ?_⟩
  exact ⟨fun v he hv => kwait_answers hr h he hv, fun he hv hm => kwait_triesInVain hr h he hv hm,
    fun hw => hw.elim (fun he => kwait_waitsForOperations hr h he) (fun hv => kwait_waitsForEnd hr h hv.1 hv.2),
    fun hl => kcancelKern_neverLaunched hr h hl, fun hl hk => kcancelKern_retired hr h hl hk,
    fun k hl hk he => kcancelKern_ending hr h hl hk he, fun k hl hk he => kcancelKern_cancels hr h hl hk he⟩

end Sys2Proof.Package
end

section
/-! The four YIELD forms (R195, R252 to R256). -/

namespace Sys2Proof.Machine

open Sys2Proof Sys2Proof.Claims

theorem bankOf_modCore_swap (s : State) (g : Agent) (x : Swap) :
    bankOf (modCore s g.core (fun k => { k with swap := x })) g = bankOf s g :=
  bankOf_modCore s g g.core fun _ b => by cases b <;> rfl

/-- R84: a bank that is freed has no task. -/
theorem freeBank_task (s : State) (g : Agent) : (bankOf (freeBank s g.core g.bank) g).task = none := by
  have hfree : (bankOf (modAux (modBank s g.core g.bank emptyBank) g.core g.bank
      (fun a => { cleanAux a with hold := a.hold })) g).task = none := by
    rw [bankOf_modAux, bankOf, getBank_modBank]
    rfl
  simp only [freeBank]
  split
  · rw [bankOf_modCore_swap, hfree]
  · exact hfree

/-- The state in which a bank has yielded: its record is written to continuation slot n and listed, and the bank is free
(R253). -/
def yielded (s : State) (g : Agent) (n : Nat) (cond : ContCond) (pinned : Bool) (live : BitVec 32) : State :=
  let r := yieldRecord s g n cond pinned live
  freeBank (modCaux (enterAs s (dieOf g.core) [] { ctx := some (taskOf s g).ctx, agent := dieAgentNo (dieOf g.core) 11 }
    (contCells r)) (taskOf s g).ctx (fun a => { a with conts := a.conts ++ [r] })) g.core g.bank

theorem runB_faults {w : WordF} {s : State} {body : State → Agent → Res Done} {f : FaultInfo} (h : readyB w s = true)
    (hb : body (gathered s w.wait) s.cur = raise (gathered s w.wait) f) :
    runB w body s = .next (wordFault (gathered s w.wait) s.cur f true true) := by
  rw [runB_ready h, hb]
  rfl

/-- A B word whose effect frees its bank leaves nothing to commit. -/
theorem runB_frees {w : WordF} {s t : State} {body : State → Agent → Res Done} (h : readyB w s = true)
    (hb : body (gathered s w.wait) s.cur = done t) (ht : (bankOf t s.cur).task = none) : runB w body s = .next t := by
  rw [runB_commitsUnlessEnded h hb, ht]
  rfl

/-! ### The conditions (R252) -/

/-- YIELD.tl: the counter and the target of the die that is left, 0 where the bank sees it reached. -/
def yieldTlCond (s : State) (g : Agent) (w : WordF) : ContCond :=
  let k := bankOf s g
  let i : Fin 10 := if tlNo w.srcA = .co then 9 else 8
  let off := k.eng.view.get i
  let v := k.a.l.get (regNo w.srcC)
  .tl (if i = 9 then 1 else 0) (if v.toNat ≤ (dieCounter s (dieOf g.core) i + off).toNat then 0 else v - off)

/-- YIELD.nb: the barrier, and the phase in which the bank last arrived. -/
def yieldNbCond (s : State) (g : Agent) (w : WordF) : ContCond :=
  let vs := (streams.map (fun t => ((bankOf s g).regs t).nb.get (nbNo w.srcA))).filter (·.arrived)
  .nb (nbNo w.srcA) (lastPhase ((getCore s g.core).nb.get (nbNo w.srcA)).phase (vs.map (·.last))) (!vs.isEmpty)

theorem checkNb_ok {s : State} {g : Agent} {n : Fin 32} (h : nbAllowed s g.core g.bank n.val = true) :
    checkNb s g n = .ok () := if_pos h

theorem gbIndex_ok (s : State) {v : Word} (h : v.toNat < 64) : gbIndex s v = .ok ⟨v.toNat, h⟩ := dif_pos h

theorem exec_yieldTl (w : WordF) (s : State) : exec (.yieldTl w) s = execYieldTl w s := by dsimp only [exec]
theorem exec_yieldNb (w : WordF) (s : State) : exec (.yieldNb w) s = execYieldNb w s := by dsimp only [exec]
theorem exec_yieldGb (w : WordF) (s : State) : exec (.yieldGb w) s = execYieldGb w s := by dsimp only [exec]
theorem exec_yieldArr (w : WordF) (s : State) : exec (.yieldArr w) s = execYieldArr w s := by dsimp only [exec]

/-- The word is a YIELD, and its condition is c after the rendezvous. -/
def YieldsOn (i : Instr) (w : WordF) (s : State) (c : ContCond) (pinned : Bool) : Prop :=
  ∃ cond, exec i s = yieldForm w pinned cond s ∧ cond (gathered s w.wait) s.cur = .ok c

section

variable {w : WordF} {s : State}

theorem yieldTl_yieldsOn (h : (bankOf (gathered s w.wait) s.cur).a.badL.getLsbD (regNo w.srcC).val = false) :
    YieldsOn (.yieldTl w) w s (yieldTlCond (gathered s w.wait) s.cur w) (w.mod.getLsbD 2) := by
  refine ⟨_, exec_yieldTl w s, ?_⟩
  simp only [h]
  rfl

theorem yieldNb_yieldsOn (h : nbAllowed (gathered s w.wait) s.cur.core s.cur.bank (nbNo w.srcA).val = true) :
    YieldsOn (.yieldNb w) w s (yieldNbCond (gathered s w.wait) s.cur w) true := by
  refine ⟨_, exec_yieldNb w s, ?_⟩
  simp only [checkNb_ok h]
  rfl

theorem yieldGb_yieldsOn (h : (w64 (shortNat w.srcA)).toNat < 64) :
    YieldsOn (.yieldGb w) w s (.gb ⟨_, h⟩) (w.mod.getLsbD 2) := by
  refine ⟨_, exec_yieldGb w s, ?_⟩
  simp only [gbIndex_ok _ h]
  rfl

theorem yieldArr_yieldsOn : YieldsOn (.yieldArr w) w s .arr true := ⟨_, exec_yieldArr w s, rfl⟩

/-! ### The outcomes -/

variable {i : Instr} {c : ContCond} {pinned : Bool} (h : readyB w s = true) (hi : YieldsOn i w s c pinned)

include h hi

/-- R252: a queue or token left raises YIELDSTATE. -/
theorem YieldsOn.faults (hf : fullBits (bankOf (gathered s w.wait) s.cur) ≠ 0) :
    exec i s = .next (wordFault (gathered s w.wait) s.cur
      (flt .yieldstate 0 (w64 (fullBits (bankOf (gathered s w.wait) s.cur)))) true true) := by
  obtain ⟨cond, hi, hc⟩ := hi
  rw [hi]
  refine runB_faults h ?_
  simp only [hc, bind, Except.bind, if_pos hf]
  rfl

theorem YieldsOn.frees {n : Nat} (hf : fullBits (bankOf (gathered s w.wait) s.cur) = 0)
    (ho : opsOut (gathered s w.wait) s.cur = false) (hd : releaseReady (gathered s w.wait) s.cur .device 0 = true)
    (hb : yieldBad (bankOf (gathered s w.wait) s.cur) (yieldMask w.srcB) = none)
    (hn : contSlot (gathered s w.wait) (taskOf (gathered s w.wait) s.cur).ctx = some n) :
    exec i s = .next (yielded (gathered s w.wait) s.cur n c pinned (yieldMask w.srcB)) := by
  obtain ⟨cond, hi, hc⟩ := hi
  rw [hi]
  refine runB_frees h ?_ (freeBank_task ..)
  simp only [hc, bind, Except.bind, hf, ho, hd, hn, hb, ne_eq, not_true_eq_false]
  rfl

end

end Sys2Proof.Machine

namespace Sys2Proof.Package

open Sys2Proof.Machine Sys2Proof.Claims

/-- Settles O12: the four forms differ in their condition and their pin (`YieldsOn`); each frees its bank or raises
YIELDSTATE. -/
theorem yields : Obligations.Yields := by
  intro w s h s1 g k me ends i v off vs
  refine ⟨fun hf ho hd hb n hn => ⟨fun hl => ?tl, fun ha => ?nb, fun hg => ?gb, ?arr⟩, fun hf => ?left⟩
  case tl => exact (yieldTl_yieldsOn hl).frees h hf ho hd hb hn
  case nb => exact (yieldNb_yieldsOn ha).frees h hf ho hd hb hn
  case gb => exact (yieldGb_yieldsOn hg).frees h hf ho hd hb hn
  case arr => exact yieldArr_yieldsOn.frees h hf ho hd hb hn
  case left =>
    simp only [List.forall_mem_cons, List.not_mem_nil, false_imp_iff, implies_true, and_true]
    exact ⟨fun hl => (yieldTl_yieldsOn (Bool.not_eq_true' _ ▸ hl)).faults h hf,
      fun ha => (yieldNb_yieldsOn ha).faults h hf, fun hg => (yieldGb_yieldsOn (of_decide_eq_true hg)).faults h hf,
      fun _ => yieldArr_yieldsOn.faults h hf⟩

end Sys2Proof.Package
end

section
/-! Copies, the migrator's forms, PIN and UNPIN, and TLBINV (R225 to R230). -/

namespace Sys2Proof.Machine

open Sys2Proof Sys2Proof.Claims

/-! ### What the end of a page move and a pin leave of the banks (R217, R229) -/

theorem bankOf_putStatus (s : State) (g : Agent) (d : DieId) (x : CtxId) (a : Word) (i c : Nat) :
    bankOf (putStatus s d x a i c) g = bankOf s g := by
  unfold putStatus
  split
  · rfl
  · dsimp only
    split
    · rw [bankOf_enterAs, (deviceFrame_pageChange ..).bankOf]
    · exact (deviceFrame_pageChange ..).bankOf g

theorem bankOf_migrDone (s : State) (g : Agent) (d : DieId) (o i c : Nat) : bankOf (migrDone s d o i c) g = bankOf s g := by
  unfold migrDone
  split
  · rfl
  · exact bankOf_putStatus ..

theorem bankOf_wsDone (s : State) (g : Agent) (x : CtxId) (i c : Nat) : bankOf (wsDone s x i c) g = bankOf s g := by
  unfold wsDone
  split
  · rfl
  · exact bankOf_putStatus ..

theorem bankOf_moveEnded (s : State) (g : Agent) (m : Move) (c : Nat) : bankOf (moveEnded s m c) g = bankOf s g := by
  unfold moveEnded
  split
  · exact bankOf_migrDone ..
  · exact bankOf_wsDone ..
  · split <;> rfl
  · rfl
  · rfl

theorem freeFrame_pageChange (s : State) (x : CtxId) (f : Nat) : PageChange s (freeFrame s x f) := by
  unfold freeFrame
  split
  · exact .refl s
  · dsimp only
    split
    · exact .memory ..
    · split
      · exact .memory ..
      · exact (PageChange.memory ..).trans (.memory ..)

theorem writePte_pageChange (s : State) (a : Nat) (e : Pte) : PageChange s (writePte s a e) := by
  unfold writePte
  split
  · exact .refl s
  · exact enterAll_pageChange ..

theorem invalidateTouched_pageChange (s : State) (x : CtxId) (lo hi : Nat) :
    PageChange s (invalidateTouched s x lo hi) := foldAll_pageChange (fun s d => invalidateDie_pageChange s x lo hi d) _ _

theorem bankOf_abandonMove (s : State) (g : Agent) (m : Move) (c : Nat) : bankOf (abandonMove s m c) g = bankOf s g := by
  have settles : PageChange s (if eBit (homePte s.ms m.at_) 5 false = eBit m.entry 5 false then
      writePte s m.at_ (settledPte (homePte s.ms m.at_)) else s) := by
    split
    · exact writePte_pageChange ..
    · exact .refl s
  have frees (t : State) : PageChange t (if m.repair || m.tier = 4 then t else freeFrame t m.ctx m.frame.toNat) := by
    split
    · exact .refl t
    · exact freeFrame_pageChange ..
  rw [abandonMove, bankOf_moveEnded]
  exact (((settles.trans (invalidateTouched_pageChange ..)).trans (frees _)).trans (.memory ..)).bankOf g

theorem bankOf_pinPage (pin : Bool) (x : CtxId) (s : State) (g : Agent) (p : Part) :
    bankOf (pinPage pin x s p) g = bankOf s g := by
  unfold pinPage
  split
  · dsimp only
    rw [(writePte_pageChange ..).bankOf]
    split
    · split
      · exact bankOf_abandonMove ..
      · rfl
    · rfl
  all_goals rfl

theorem bankOf_pinPages (pin : Bool) (x : CtxId) (g : Agent) (ps : List Part) (s : State) :
    bankOf (foldAll s ps (pinPage pin x)) g = bankOf s g := by
  induction ps generalizing s with
  | nil => rfl
  | cons p ps ih => exact (ih _).trans (bankOf_pinPage pin x s g p)

/-! ### Checks of registers and acceptance by the engines of a die (R225, R228) -/

theorem takeSources_none (s : State) (g : Agent) : takeSources s g [] [] = .ok () := rfl

theorem checkReg_ok {s : State} {w : WordF} {i : Nat} {ok : Bool} (h : ok = true) : checkReg s w i ok = .ok () := if_pos h

/-- R228: the registers of a range of pages that its check passes. -/
structure PageRange (a n : Word) : Prop where
  aligned : a.toNat % 65536 = 0
  some_ : 1 ≤ n.toNat
  bounded : n.toNat ≤ 65536

theorem checkPages_ok {s : State} {w : WordF} {d : Nat → Word} (h : PageRange (d 0) (d 1)) : checkPages s w d = .ok () := by
  obtain ⟨ha, h1, hn⟩ := h
  rw [checkPages, checkReg_ok (beq_iff_eq.mpr ha), checkReg_ok (by simp [h1, hn])]
  rfl

section

variable {s t : State} {g : Agent} {w : WordF}

theorem noteDieOp_task (s : State) (g : Agent) (w : WordF) (i : Fin 10) (n : Word) :
    (bankOf (noteDieOp s g w i n) g).task = (bankOf s g).task := by
  dsimp only [noteDieOp]
  rw [← writeScalar_task s g w.dst]
  apply modBankOf_task
  exact fun _ => modRegs_task ..

theorem acceptCopy_task {a b : Word} {n : Nat} {h : Option (BitVec 12 × Nat × Bool)}
    (ht : acceptCopy s g w a b n h = .ok t) : (bankOf t g).task = (bankOf s g).task := by
  simp only [acceptCopy] at ht
  split at ht
  · cases ht
  · cases ht
    exact (noteDieOp_task ..).trans (congrArg Bank.task (bankOf_drainAll ..))

theorem acceptMig_task {z h : Bool} {a b : Word} {n k e : Nat} (ht : acceptMig s g w z a n b k h e = .ok t) :
    (bankOf t g).task = (bankOf s g).task := by
  simp only [acceptMig] at ht
  split at ht
  · cases ht
  · cases ht
    exact (noteDieOp_task ..).trans (congrArg Bank.task (bankOf_drainAll ..))

theorem checkStatus_task {a : Word} {n : Nat} (h : checkStatus s g a n = .ok t) :
    (bankOf t g).task = (bankOf s g).task := by
  unfold checkStatus at h
  split at h
  · cases h
    rfl
  · simp only [bind, Except.bind] at h
    split at h
    · cases h
    · next ha =>
      cases h
      exact wordAccess_task ha

end

/-! ### The words -/

/-- R226: the registers of a CPY that their checks pass. -/
structure CopyBlock (d : Nat → Word) : Prop where
  dst : (d 0).toNat % 128 = 0
  src : (d 1).toNat % 128 = 0
  whole : (d 2).toNat % 128 = 0
  bounded : (d 2).toNat ≤ 2 ^ 40

/-- R227: the registers of a CPYH that their checks pass, with the number of a handle. -/
structure HostCopyBlock (d : Nat → Word) : Prop where
  dst : (d 0).toNat % 128 = 0
  handle : (d 1).toNat < 4096
  nonzero : (d 1).toNat ≠ 0
  offset : (d 2).toNat % 128 = 0
  reserved : bits (d 3) 62 40 = 0
  whole : bits (d 3) 39 0 % 128 = 0

theorem HostCopyBlock.handle_ne_zero {d : Nat → Word} (h : HostCopyBlock d) : BitVec.ofNat 12 (d 1).toNat ≠ 0 := by
  have hn := h.nonzero
  rw [← Nat.mod_eq_of_lt h.handle] at hn
  exact fun he => hn (by simpa using congrArg BitVec.toNat he)

section

variable {w : WordF} {s t : State} (hr : ready w false s = true) {d : Nat → Word}
  (hd : d = descReg (begun s w.wait) s.cur w.srcA)

include hr hd

theorem cpy_accepted (hc : checkDesc (begun s w.wait) s.cur w.srcA 3 = .ok ()) (hb : CopyBlock d)
    (ht : acceptCopy (begun s w.wait) s.cur w (d 0) (d 1) (d 2).toNat none = .ok t) :
    exec (.cpy w) s = .next (commits w s t [] none) := by
  obtain ⟨h0, h1, h2, hl⟩ := hb
  subst hd
  dsimp only [exec]
  refine runWord_commits (srcs := []) hr ?_ (acceptCopy_task ht)
  simp only [takeSources_none, hc, checkReg, h0, h1, h2, hl, bind, Except.bind, ht]
  rfl

theorem cpyh_accepted {h : Handle} (hc : checkDesc (begun s w.wait) s.cur w.srcA 4 = .ok ()) (hk : HostCopyBlock d)
    (hh : findHandle (begun s w.wait) (taskOf (begun s w.wait) s.cur).ctx (BitVec.ofNat 12 (d 1).toNat) = some h)
    (hb : (d 2).toNat + bits (d 3) 39 0 ≤ h.len)
    (ht : acceptCopy (begun s w.wait) s.cur w (d 0) 0 (bits (d 3) 39 0)
      (some (BitVec.ofNat 12 (d 1).toNat, (d 2).toNat, bit (d 3) 63)) = .ok t) :
    exec (.cpyh w) s = .next (commits w s t [] none) := by
  have hz := hk.handle_ne_zero
  obtain ⟨h0, h1, -, h2, h3, hl⟩ := hk
  subst hd
  dsimp only [exec]
  refine runWord_commits (srcs := []) hr ?_ (acceptCopy_task ht)
  simp only [takeSources_none, hc, checkReg, h0, h1, h2, h3, hl, hh, hz, Nat.not_lt.mpr hb, bind, Except.bind, ht]
  rfl

section

variable (hp : PageRange (d 0) (d 1)) {u : State}
  (hs : checkStatus (begun s w.wait) s.cur (d 2) (d 1).toNat = .ok u)

include hp hs

/-- R228: the home that MIGR names is one of the tier that it moves its pages to. -/
theorem migr_accepted (hc : checkDesc (begun s w.wait) s.cur w.srcA 4 = .ok ()) (h3 : bits (d 3) 63 5 = 0)
    (hh : if w.mod.toNat = 0 then
        bit (d 3) 4 = true ∨ (bits (d 3) 3 0 < 8 ∧ presentNo (begun s w.wait) (bits (d 3) 3 0) = true)
      else bit (d 3) 4 = false ∧ (bits (d 3) 3 0 = 8 ∨ bits (d 3) 3 0 = 9))
    (ht : acceptMig u s.cur w false (d 0) (d 1).toNat (d 2) (if w.mod.toNat = 0 then 2 else 3) (bit (d 3) 4)
      (bits (d 3) 3 0) = .ok t) :
    exec (.migr w) s = .next (commits w s t [] none) := by
  have hok : (if w.mod.toNat = 0 then bit (d 3) 4 || (bits (d 3) 3 0 < 8 && presentNo (begun s w.wait) (bits (d 3) 3 0))
      else !bit (d 3) 4 && (bits (d 3) 3 0 = 8 || bits (d 3) 3 0 = 9)) = true := by
    simpa using hh
  subst hd
  dsimp only [exec]
  refine runWord_commits (srcs := []) hr ?_ ((acceptMig_task ht).trans (checkStatus_task hs))
  simp only [takeSources_none, hc, checkPages_ok hp, checkReg, h3, hok, hs, bind, Except.bind, ht]
  rfl

theorem pgzero_accepted (hc : checkDesc (begun s w.wait) s.cur w.srcA 3 = .ok ())
    (ht : acceptMig u s.cur w true (d 0) (d 1).toNat (d 2) 0 false 0 = .ok t) :
    exec (.pgzero w) s = .next (commits w s t [] none) := by
  subst hd
  dsimp only [exec]
  refine runWord_commits (srcs := []) hr ?_ ((acceptMig_task ht).trans (checkStatus_task hs))
  simp only [takeSources_none, hc, checkPages_ok hp, hs, bind, Except.bind, ht]
  rfl

end

/-- R230: the range is dropped from every die of the scope. -/
theorem tlbinv_drops (ha : (getCtx (begun s w.wait) (taskOf (begun s w.wait) s.cur).ctx).attr.getLsbD 1 = true)
    (hc : checkDesc (begun s w.wait) s.cur w.srcA 3 = .ok ()) (hp : w.mod.getLsbD 0 = false → PageRange (d 0) (d 1))
    (h2 : bits (d 2) 63 6 = 0) (hs : checkScope (begun s w.wait) s.cur w = .ok ())
    (hl : lostDie (begun s w.wait) w.scope (wordMask (begun s w.wait) s.cur w) = none) :
    exec (.tlbinv w) s = .next (commits w s (foldAll (begun s w.wait)
      (scopeDies (begun s w.wait) w.scope (dieOf s.cur.core) (wordMask (begun s w.wait) s.cur w)) (fun t e =>
        invalidateDie t (Fin.ofNat 64 (bits (d 2) 5 0)) (if w.mod.getLsbD 0 then 0 else (d 0).toNat)
          (if w.mod.getLsbD 0 then 2 ^ 52 else (d 0).toNat + 65536 * (d 1).toNat) e)) [] none) := by
  have hpages : (!w.mod.getLsbD 0) = true → checkPages (begun s w.wait) w d = .ok () :=
    fun h => checkPages_ok (hp ((Bool.not_eq_true' _).mp h))
  subst hd
  dsimp only [exec]
  refine runWord_commits (srcs := []) hr ?_
    (congrArg Bank.task ((foldAll_pageChange (fun t e => invalidateDie_pageChange ..) _ _).bankOf _))
  simp only [takeSources_none, ha, hc, passes_ite hpages, checkReg, h2, hs, hl]
  rfl

end

/-- R229: the range of a PIN or UNPIN that its checks pass. -/
structure PinRange (a n : Word) : Prop where
  aligned : a.toNat % 65536 = 0
  inside : a.toNat + n.toNat ≤ 2 ^ 52
  start : a.toNat < 2 ^ 52
  whole : n.toNat % 65536 = 0
  bounded : n.toNat ≤ 2 ^ 32

/-- R135, R229: each check passes over every page of the range before the next: ps are the parts of the access. -/
structure PinPages (s : State) (q : Req) (a n : Word) (xs : List (Part × Option Nat)) (ps : List Part) (us : List Unit) :
    Prop where
  translated : forPages (fun (p : Nat × Nat) => checkXlate s q ((spanPages 65536 a.toNat n.toNat).map (·.1)) p.1 p.2)
    (spanPages 65536 a.toNat n.toNat) = .ok xs
  permitted : forPages (checkPerm s q) xs = .ok ps
  taken : forPages (checkData s q ((spanPages 65536 a.toNat n.toNat).map (·.1))) ps = .ok us

section

variable {w : WordF} {s : State} (hr : ready w false s = true)

include hr

/-- R230: a context that may not use TLBINV raises PRIV. -/
theorem tlbinv_faults (ha : (getCtx (begun s w.wait) (taskOf (begun s w.wait) s.cur).ctx).attr.getLsbD 1 = false) :
    exec (.tlbinv w) s = .next (wordFault (begun s w.wait) s.cur (flt .priv 0 0x147) false false) := by
  dsimp only [exec]
  exact runWord_faults hr (by simp only [takeSources_none, ha]; rfl)

/-- R229: PIN, where no page is moving up, and UNPIN write the pin of every page of their range. -/
theorem pinForm_commits {pin : Bool} {xs : List (Part × Option Nat)} {ps : List Part} {us : List Unit}
    (h : sourcesOk (begun s w.wait) s.cur [w.srcA, w.srcB] [] = true)
    (ha : PinRange (src s w [w.srcA, w.srcB] 0) (src s w [w.srcA, w.srcB] 1))
    (hp : PinPages (begun s w.wait) (reqOf (begun s w.wait) s.cur false) (src s w [w.srcA, w.srcB] 0)
      (src s w [w.srcA, w.srcB] 1) xs ps us)
    (hw : pin = true → ps.any (pinWaits (begun s w.wait) (reqOf (begun s w.wait) s.cur false).ctx) = false) :
    pinForm w pin s = .next (commits w s (foldAll (begun s w.wait) ps
      (pinPage pin (reqOf (begun s w.wait) s.cur false).ctx)) [w.srcA, w.srcB] none) := by
  obtain ⟨ha, hi, hv, hl, hm⟩ := ha
  obtain ⟨hx, hperm, hdata⟩ := hp
  simp only [src] at ha hi hv hl hm hx hdata
  have hwait : (pin && ps.any (pinWaits (begun s w.wait) (reqOf (begun s w.wait) s.cur false).ctx)) = false := by
    cases pin with
    | false => rfl
    | true => exact hw rfl
  refine runWord_commits hr ?_ (congrArg Bank.task (bankOf_pinPages ..))
  simp only [takeSources_ok h, bind, Except.bind, if_pos hm, checkRange, hv, hi, if_true, checkAlign_ok _ ha, hl,
    Nat.not_lt.mpr hm, hx, hperm, hdata, hwait]
  rfl

end

end Sys2Proof.Machine

namespace Sys2Proof.Package

open Sys2Proof.Machine Sys2Proof.Claims

/-- Settles O22: each word's checks pass, and its engine accepts it or its effect is its own; TLBINV of a context without the
right faults. Of a hashed MIGR.hbm the model checks no home (log 23). -/
theorem pageWords : Obligations.PageWords := by
  intro w s hr s1 g d up
  refine ⟨fun hc h0 h1 h2 hl t ht => cpy_accepted hr rfl hc ⟨h0, h1, h2, hl⟩ ht,
    fun hc h0 h1 hn h2 h3 hl h hh hb t ht => cpyh_accepted hr rfl hc ⟨h0, h1, hn, h2, h3, hl⟩ hh hb ht,
    fun h0 h1 hn u hs => ⟨fun hc h3 hh t ht => migr_accepted hr rfl ⟨h0, h1, hn⟩ hs hc h3 hh ht,
      fun hc t ht => pgzero_accepted hr rfl ⟨h0, h1, hn⟩ hs hc ht⟩, ?pins,
    fun ha hc hp h2 hs hl => tlbinv_drops hr rfl ha hc (fun he => ?range) h2 hs hl, fun ha => tlbinv_faults hr ha⟩
  case pins =>
    intro srcs a len q h ha hi hv hl hm pages need xs ps us hx hp hd
    exact ⟨fun hw => pinForm_commits hr h ⟨ha, hi, hv, hl, hm⟩ ⟨hx, hp, hd⟩ fun _ => hw,
      pinForm_commits hr h ⟨ha, hi, hv, hl, hm⟩ ⟨hx, hp, hd⟩ nofun⟩
  case range =>
    obtain ⟨h0, h1, hn⟩ := hp he
    exact ⟨h0, h1, hn⟩

end Sys2Proof.Package
end

section
/-! Park images, the admission of launches, gang groups and sheds (R239, R242, R244, R266, R267, R289, R318). -/

namespace Sys2Proof.Machine

open Sys2Proof Sys2Proof.Claims

section

variable {s : State} {c : CoreId} {b : BankId} {x : CtxId} {n : Nat}

/-! ### Park and resume (R239, R242, R244) -/

theorem parkImage_due (hp : parkable s c b = true) (hs : b = .active → imageDue s c .shadow = false)
    (hf : allBanks.any (fun t => (dieOf t.1).val < (dieOf c).val && parkable s t.1 t.2) = false) :
    exec (.parkImage c b) s = .next (parkBank (modBank s c b (fun k => k.onStreams parkStream)) c b) := by
  have hshadow : (b = .active && imageDue s c .shadow) = false := by
    rw [Bool.and_eq_false_imp]
    exact fun hb => hs (of_decide_eq_true hb)
  simp only [exec, execParkImage, hp, hshadow, hf]
  rfl

theorem imageResume_resumes {i : ParkImg} {t : Task} (hi : (getCaux s x).images.find? (fun i => i.slot == n) = some i)
    (ht : i.bank.task = some t) (hr : imageReady s x i = true) (hw : i.fresh = true ∨ imageWhole s x i = true)
    (hg : i.gang = false) (hf : imageFirst s i = true) (hc : imageCore s i = some c) : exec (.imageResume x n true) s
      = .next (if i.shadow then beginSwap s c (.image x n) else resumeImage s x i c .active) := by
  have hkept : (!i.fresh && !(true && imageWhole s x i)) = false := by
    obtain hw | hw := hw <;> simp [hw]
  simp only [exec, execImageResume, hi, ht, hr, hkept, hg, hf, hc]
  cases i.shadow <;> rfl

theorem imageResume_loses {i : ParkImg} {t : Task} {readable : Bool}
    (hi : (getCaux s x).images.find? (fun i => i.slot == n) = some i) (ht : i.bank.task = some t)
    (hr : imageReady s x i = true) (hf : i.fresh = false) (hw : (readable && imageWhole s x i) = false) :
    exec (.imageResume x n readable) s = .next (loseImage s x i t) := by
  simp only [exec, execImageResume, hi, ht, hr, hf, hw]
  rfl

/-! ### Admission (R266, R267) -/

/-- The held launches of a context, in order. -/
def heldOf (s : State) (x : CtxId) : List Kernel := s.disp.kerns.filter (fun k => k.ctx == x && k.st == .held)

theorem kernelAdmit_dead {k : Kernel} (hd : (heldOf s x).find? (fun k => afterOf s k == .dead) = some k) :
    exec (.kernelAdmit x) s = .next (retireHeld s k .cancelled) := by
  rw [heldOf] at hd
  simp only [exec, execKernelAdmit, hd]

section

variable {k : Kernel} {ks : List Kernel} (hk : heldOf s x = k :: ks)
  (hd : (k :: ks).find? (fun k => afterOf s k == .dead) = none) (ha : admits s x = true) (hg : afterOf s k = .go)

include hk hd ha hg

theorem kernelAdmit_admits {g : Graph} (hi : readGraph s x k.image.toNat = .ok g) :
    exec (.kernelAdmit x) s = .next (admitKernel s k g) := by
  rw [heldOf] at hk
  simp only [exec, execKernelAdmit, hk, hd, ha, hg, hi]
  rfl

theorem kernelAdmit_malformed {e : Code} (hi : readGraph s x k.image.toNat = .error (.bad e)) :
    exec (.kernelAdmit x) s = .next (retireHeld s k e) := by
  rw [heldOf] at hk
  simp only [exec, execKernelAdmit, hk, hd, ha, hg, hi]
  rfl

end

/-! ### Gangs (R289) -/

/-- An instance, with its kernel, its number and its node. -/
abbrev InstAt := Kernel × Nat × Node × NodeInst

/-- The gang groups that are PENDING. -/
def pendingGangs (s : State) : List InstAt :=
  (allInsts s).filter (fun p => (pendingSince p.2.2.2).isSome && gangOpen s p.1 p.2.1 p.2.2.2)

/-- Will a group have too few cores for ever? -/
def gangShort (s : State) (p : InstAt) : Bool :=
  (everCores s p.2.2.1.affinity).length < gangSize s p.1 p.2.1 p.2.2.2

/-- May a group take its cores now: enough are eligible, and its turn has come? -/
def gangCan (s : State) (p : InstAt) : Bool :=
  dispatches s p.1.ctx && classAllowed s p.2.2.1.eclass
    && gangSize s p.1 p.2.1 p.2.2.2 ≤ (gangList s p.1 p.2.1 p.2.2.1.affinity).length
    && gangTurn s p.1 p.2.1 p.2.2.1.affinity

/-- The order of groups: by priority, then by age. -/
def gangScore (s : State) (p : InstAt) : Nat :=
  p.2.2.1.prio.val * (s.disp.order + 1) + (pendingSince p.2.2.2).getD 0

theorem gangReserve_cancels {p : InstAt} (hp : (pendingGangs s).find? (gangShort s) = some p) :
    exec .gangReserve s = .next (cancelGang s p.1 p.2.1) := by
  unfold pendingGangs gangShort at hp
  simp only [exec, execGangReserve, hp]

theorem gangReserve_reserves {p : InstAt} (hs : (pendingGangs s).find? (gangShort s) = none)
    (hr : (allInsts s).any (fun p => (reserved p.2.2.2).isSome) = false)
    (hp : argMin (gangScore s) ((pendingGangs s).filter (gangCan s)) = some p) :
    exec .gangReserve s = .next (modInst s p.1.kinst p.2.1 (fun i => { i with
      gang := .reserving ((pendingSince i).getD 0)
        ((gangList s p.1 p.2.1 p.2.2.1.affinity).take (gangSize s p.1 p.2.1 p.2.2.2)) })) := by
  unfold pendingGangs gangShort at hs
  unfold gangScore pendingGangs gangCan at hp
  simp only [exec, execGangReserve, hs, hr, hp]
  rfl

/-- A bank held for a group. -/
def holdBank (s : State) (c : CoreId) (p : InstAt) : State :=
  modAux s c (prioBank p.2.2.1) (fun a => { a with hold := some (p.1.kinst, p.2.1) })

section

variable {p : InstAt} {cores : List CoreId}
  (hp : (allInsts s).find? (fun p => ((reserved p.2.2.2).getD []).contains c) = some p)
  (hr : reserved p.2.2.2 = some cores) (hc : canHold s c (prioBank p.2.2.1) = true)

include hp hr hc

theorem gangBankHold_holds (ha : cores.all (fun d => heldNow (holdBank s c p) d (prioBank p.2.2.1)) = false) :
    exec (.gangBankHold c) s = .next (holdBank s c p) := by
  unfold holdBank at ha ⊢
  simp only [exec, execGangBankHold, hp, hr, hc, Option.getD_some, ha]
  rfl

theorem gangBankHold_places (ha : cores.all (fun d => heldNow (holdBank s c p) d (prioBank p.2.2.1)) = true)
    (hf : gangFit (holdBank s c p) p.1 p.2.1 p.2.2.1 p.2.2.2 = true) :
    exec (.gangBankHold c) s = .next (placeGang (holdBank s c p) p.1 p.2.1 (prioBank p.2.2.1) cores) := by
  unfold holdBank at ha hf ⊢
  simp only [exec, execGangBankHold, hp, hr, hc, Option.getD_some, ha, hf]
  rfl

end

/-! ### Sheds (R318) -/

/-- The shed of some instances. -/
def shedInsts (s : State) (ps : List InstAt) : State :=
  foldAll (foldAll s (detStruck s ps) (fun s p => detBreak s p.1 p.2)) ps (fun s p => cancelNode s p.1.kinst p.2.1 true)

theorem shedEnd_due (hg : 3 ≤ s.bud.grade) (hp : (allInsts s).filter shedDue ≠ []) :
    exec .shedEnd s = .next (shedInsts s ((allInsts s).filter shedDue)) :=
  if_neg (by simp [not_lt.mpr hg, List.isEmpty_eq_false_iff.mpr hp])

end

end Sys2Proof.Machine

namespace Sys2Proof.Package

open Sys2Proof.Machine Sys2Proof.Claims

/-- Settles O36: each event is due by its hypotheses, and the branch of its definition that they leave gives its effect. -/
theorem parkAndLaunchEvents : Obligations.ParkAndLaunchEvents := by
  intro s
  refine ⟨fun c b hp hs hf => parkImage_due hp hs hf,
    fun x n i t hi ht hr => ⟨fun c hw hg hf hc => imageResume_resumes hi ht hr hw hg hf hc,
      fun readable hf hw => imageResume_loses hi ht hr hf hw⟩,
    fun x k ks hk hd ha hg => ⟨fun g hi => kernelAdmit_admits hk hd ha hg hi,
      fun c hi => kernelAdmit_malformed hk hd ha hg hi⟩, fun x k hd => kernelAdmit_dead hd,
    ⟨fun p hp => gangReserve_cancels hp, fun p hs hr hp => gangReserve_reserves hs hr hp⟩,
    fun c p cores hp hr hc => ⟨fun ha => gangBankHold_holds hp hr hc ha, fun ha hf => gangBankHold_places hp hr hc ha hf⟩,
    fun hg hp => shedEnd_due hg hp⟩

end Sys2Proof.Package
end

section
/-! The host's rings: how a record is taken, and the steps of its command (R231 to R235, R257 to R259, R388). -/

namespace Sys2Proof.Machine

open Sys2Proof Sys2Proof.Claims

section

variable {s : State} {r : Fin 16} {x : CtxId} {c : RingRecord}

/-- A record that passes the checks common to every record and those of its command runs that command for its context (R257
to R259). -/
theorem serveRecord_taken {op : Nat} {mine : Nat → Bool} {zeros : RingRecord → Bool}
    {body : State → RingRecord → CtxId → State} (h : Claims.recordAt s r op zeros c x) (hm : mine op = true)
    (hop : [0x01, 0x10, 0x11, 0x12, 0x13, 0x14].contains op = true) :
    serveRecord s r mine zeros body = .next (body (advanceHead s r) c x) := by
  obtain ⟨hserved, hcount, hn, rfl, hseq, rfl, hflags, hva, hx, hallow, hbody⟩ := h
  simp only [serveRecord, hserved, hcount, not_lt.mpr hn, hseq, hm, hop, not_le.mpr hflags, hva, hx, hallow, hbody]
  simp

/-! ### Launches and contexts (R231 to R233, R266) -/

theorem launch_taken (h : Claims.recordAt s r 0x01 launchOk c x) :
    exec (.launch r) s = .next (launchBody r (advanceHead s r) c x) := by
  simp only [exec, execLaunch]
  exact serveRecord_taken h rfl rfl

theorem ctxopen_taken (h : Claims.recordAt s r 0x10 openOk c x) :
    exec (.ctxopen r) s = .next (if (getCtx (advanceHead s r) x).st ≠ .free then answer (advanceHead s r) r c 1 0
      else answer (openContext (advanceHead s r) c x) r c 0 0) := by
  simp only [exec, execCtxopen]
  exact serveRecord_taken h rfl rfl

theorem ctxready_taken (h : Claims.recordAt s r 0x11 zeroBody c x) :
    exec (.ctxready r) s = .next (if (getCtx (advanceHead s r) x).st ≠ .loading then answer (advanceHead s r) r c 1 0
      else answer (setCtxSt (advanceHead s r) x .ready) r c 0 0) := by
  simp only [exec, execCtxready]
  exact serveRecord_taken h rfl rfl

/-! ### Loads of a working set (R235) -/

/-- The load that a WSLOAD record asks for (R235). -/
def recordLoad (r : Fin 16) (c : RingRecord) : WsLoad :=
  { first := c.field 16 8, count := c.field 24 4, home := c.field 28 1, status := w64 (c.field 32 8), ring := r
    seq := BitVec.ofNat 32 c.seq, statva := w64 c.statva, irq := c.flags % 2 = 1 }

/-- What a WSLOAD record does once it is taken: its load is held, or the state of its context refuses it (R232). -/
def holdLoad (r : Fin 16) (s : State) (c : RingRecord) (x : CtxId) : State :=
  let st := (getCtx s x).st
  if st == .loading || st == .ready || st == .running || st == .parked then
    modCaux s x (fun a => { a with ws := a.ws ++ [recordLoad r c] })
  else answer s r c 1 0

theorem wsload_taken (h : Claims.recordAt s r 0x12 (wsloadOk s) c x) :
    exec (.wsload r) s = .next (holdLoad r (advanceHead s r) c x) := by
  simp only [exec, execWsload]
  exact serveRecord_taken (body := holdLoad r) h rfl rfl

theorem wsload_held (h : Claims.recordAt s r 0x12 (wsloadOk s) c x) (hs : (getCtx (advanceHead s r) x).st = .loading) :
    exec (.wsload r) s = .next (modCaux (advanceHead s r) x (fun a => { a with ws := a.ws ++ [recordLoad r c] })) := by
  rw [wsload_taken h, holdLoad, hs]
  rfl

theorem wsload_refused (h : Claims.recordAt s r 0x12 (wsloadOk s) c x) (hs : (getCtx (advanceHead s r) x).st = .free) :
    exec (.wsload r) s = .next (answer (advanceHead s r) r c 1 0) := by
  rw [wsload_taken h, holdLoad, hs]
  rfl

theorem wsloadBegin_due {w : WsLoad} {ws : List WsLoad} (hw : (getCaux s x).ws = w :: ws) (hc : w.cancelled = false)
    (hr : w.running = false) (ho : wsOpen s x = true) (hm : migRoom s (Fin.ofNat 10 w.home) = true) (hz : w.status = 0) :
    exec (.wsloadBegin x) s = .next (beginWs s x w ws) := by
  simp only [exec, execWsloadBegin, hw, hc, hr, ho, hm, hz]
  rfl

/-! ### Quiesce and release (R233, R234) -/

theorem ctxquiesce_taken (h : Claims.recordAt s r 0x13 zeroBody c x) (hf : (getCtx (advanceHead s r) x).st ≠ .free)
    (hq : (getCtx (advanceHead s r) x).st ≠ .quiesced) :
    exec (.ctxquiesce r) s = .next (modCaux (quiesce (advanceHead s r) x) x (fun a => { a with
      quiesce := some (r, BitVec.ofNat 32 c.seq, w64 c.statva, c.flags % 2 = 1) })) := by
  simp only [exec, execCtxquiesce]
  exact (serveRecord_taken h rfl rfl).trans (congrArg Host.Outcome.next (if_neg (by simp [hf, hq])))

theorem quiesceComplete_due {n : Fin 16} {q : BitVec 32} {va : Word} {irq : Bool}
    (hq : (getCaux s x).quiesce = some (n, q, va, irq)) (hl : dieOpsLeft s x = false) : exec (.quiesceComplete x) s
      = .next (writeStatus (modCaux s x (fun a => { a with quiesce := none })) n q va irq 0 0) := by
  simp only [exec, execQuiesceComplete, hq, hl]
  rfl

/-- A CTXRELEASE waits neither for a CTXQUIESCE nor for atomics that its context does not have (R234). -/
theorem quiescing_atomicsLeft_none {m : Nat} (hx : ctxNo m = some x) (hq : (getCaux s x).quiesce = none)
    (ha : s.ms.atomics.any (fun q => q.ctx == x) = false) : quiescing s m = false ∧ atomicsLeft s m = false := by
  simp only [quiescing, atomicsLeft, hx, Option.any_some, hq, ha, Option.isSome_none, and_self]

theorem ctxrelease_taken (h : Claims.recordAt s r 0x14 zeroBody c x) (hs : (getCtx (advanceHead s r) x).st = .quiesced)
    (hq : (getCaux s x).quiesce = none) (ha : s.ms.atomics.any (fun q => q.ctx == x) = false) :
    exec (.ctxrelease r) s = .next (answer (releaseContext (advanceHead s r) x) r c 0 0) := by
  obtain ⟨-, -, -, hc, -, -, -, -, hx, -⟩ := id h
  obtain ⟨hquiesce, hatomics⟩ := quiescing_atomicsLeft_none hx hq ha
  simp only [exec, execCtxrelease, hc, hquiesce, hatomics, Bool.or_self, Bool.false_eq_true, if_false]
  exact (serveRecord_taken h rfl rfl).trans (congrArg Host.Outcome.next (if_neg (by simp [hs])))

/-! ### The ring itself (R258, R388) -/

/-- A ring that starts runs from HEADSET. -/
theorem startRing_ring (s : State) (r : Fin 16) : ((startRing s r).disp.rings.get r).st = 1
    ∧ ((startRing s r).disp.rings.get r).head = (getRing16 s r).headset := by
  have h : (startRing s r).disp = (modRing16 s r (fun g =>
      { g with st := 1, starting := false, head := g.headset, tail := g.headset, fullcnt := 0 })).disp := rfl
  rw [h]
  simp [modRing16, modDisp, getRing16]

theorem regsRespond_ready (hb : s.boot.stat = 1) : regsRespond s = true := decide_eq_true hb

variable (hl : s.disp.linkDown = false) (hb : s.boot.stat = 1) (hr : ringOk (getRing16 s r) = true)

include hl hb hr

theorem ringStart_now (ho : recordsOut s r = false) : exec (.ringStart r) s = .next (startRing s r) := by
  simp [exec, execRingStart, hl, regsRespond_ready hb, hr, ho]

theorem ringStart_waits (ho : recordsOut s r = true) :
    exec (.ringStart r) s = .next (modRing16 s r (fun g => { g with starting := true })) := by
  simp [exec, execRingStart, hl, regsRespond_ready hb, hr, ho]

theorem ringDisable_stops :
    exec (.ringDisable r) s = .next (modRing16 s r (fun g => { g with st := 0, starting := false })) := by
  simp [exec, execRingDisable, hl, regsRespond_ready hb, hr]

end

end Sys2Proof.Machine

namespace Sys2Proof.Package

open Sys2Proof.Machine Sys2Proof.Claims

/-- Settles O41: a record of each command is taken (`serveRecord_taken`), and each other step is due by its hypotheses. -/
theorem ringCommands : Obligations.RingCommands := by
  intro s r x s1
  refine ⟨fun c hc => launch_taken hc, fun c hc => ctxopen_taken hc, fun c hc => ctxready_taken hc,
    fun c hc => ⟨fun hs => ⟨recordLoad r c, rfl, rfl, rfl, rfl, wsload_held hc hs⟩, fun hs => wsload_refused hc hs⟩,
    fun c hc hf hq => ctxquiesce_taken hc hf hq, fun c hc hs hq ha => ctxrelease_taken hc hs hq ha,
    fun hs hf => ?tailRead, fun n q va irq hq hd => quiesceComplete_due hq hd,
    fun w ws hw hc hr ho hm hz => wsloadBegin_due hw hc hr ho hm hz,
    fun hl hb hr => ⟨fun ho => ?starts, fun ho => ?waits, ?stops⟩⟩
  case tailRead => exact if_neg (by rw [hs, hf]; decide)
  case starts => exact ⟨_, ringStart_now hl hb hr ho, startRing_ring s r⟩
  case waits => exact ringStart_waits hl hb hr ho
  case stops => exact ⟨_, ringDisable_stops hl hb hr, by simp [modRing16, modDisp]⟩

end Sys2Proof.Package
end

section
/-! KRETRY, QTHAW and KCANCEL.task (R251, R282, R283). -/

namespace Sys2Proof.Machine

open Sys2Proof Sys2Proof.Claims

/-! ### What a word that acts on a frozen task answers -/

section

variable {w : WordF} {s : State} (opcode : Nat) (eff : State → CtxId → FrozenAt × Task × Freeze → State)
  (h : scalarReady w [w.srcA] s = true)

include h

theorem onFrozen_none
    (hf : frozenTask (begun s w.wait) (taskOf (begun s w.wait) s.cur).ctx (src s w [w.srcA] 0) = none) :
    onFrozen w opcode eff s = .next (scalarLeaves w [w.srcA] 1 s) := by
  rw [src] at hf
  exact runWord_leaves h (by simp only [takeSources_ok (scalarReady_iff.mp h).2, hf]; rfl)

variable {f : FrozenAt × Task × Freeze}
  (hf : frozenTask (begun s w.wait) (taskOf (begun s w.wait) s.cur).ctx (src s w [w.srcA] 0) = some f)

include hf

theorem onFrozen_closed (hc : nodeClosed (begun s w.wait) f.2.1.kinst f.2.1.node = true) :
    onFrozen w opcode eff s = .next (scalarLeaves w [w.srcA] 2 s) := by
  rw [src] at hf
  exact runWord_leaves h (by simp only [takeSources_ok (scalarReady_iff.mp h).2, hf, hc]; rfl)

variable (hc : nodeClosed (begun s w.wait) f.2.1.kinst f.2.1.node = false)

include hc

/-- The effect comes after the answer is written, and may end the task of the word's own bank. -/
theorem onFrozen_handler (hh : handlerOf (taskOf (begun s w.wait) s.cur) f.2.1.kinst f.2.1.node = true) :
    onFrozen w opcode eff s = .next (commitsUnlessEnded w s
      (eff (writeScalar (begun s w.wait) s.cur w.dst 0) (taskOf (begun s w.wait) s.cur).ctx f) [w.srcA]) := by
  rw [src] at hf
  obtain ⟨hr, hsrc⟩ := scalarReady_iff.mp h
  exact runWord_commitsUnlessEnded hr (by simp only [takeSources_ok hsrc, hf, hc, hh]; rfl)

theorem onFrozen_outsider (hh : handlerOf (taskOf (begun s w.wait) s.cur) f.2.1.kinst f.2.1.node = false) :
    onFrozen w opcode eff s
      = .next (wordFault (begun s w.wait) s.cur (flt .priv 0 (w64 opcode)) false false) := by
  rw [src] at hf
  obtain ⟨hr, hsrc⟩ := scalarReady_iff.mp h
  exact runWord_faults hr (by simp only [takeSources_ok hsrc, hf, hc, hh]; rfl)

end

/-! ### The three words -/

theorem exec_kretry (w : WordF) (s : State) :
    exec (.kretry w) s = onFrozen w 0x0CC (fun s x f => decideFrozen s x f true) s := rfl

theorem exec_qthaw (w : WordF) (s : State) :
    exec (.qthaw w) s = onFrozen w 0x0CE (fun s x f => decideFrozen s x f false) s := rfl

theorem exec_kcancelTask (w : WordF) (s : State) :
    exec (.kcancelTask w) s = onFrozen w 0x0CD (fun s _ f => cancelNode s f.2.1.kinst f.2.1.node false) s := rfl

/-- What `onFrozen` leaves whatever its opcode and effect, each of the three words leaves. -/
theorem frozenTaskWords_next {w : WordF} {s t : State} (h : ∀ opcode eff, onFrozen w opcode eff s = .next t) :
    ∀ i ∈ [Instr.kretry w, Instr.qthaw w, Instr.kcancelTask w], exec i s = .next t := by
  simp only [List.forall_mem_cons, List.not_mem_nil, false_imp_iff, implies_true, and_true]
  exact ⟨exec_kretry w s ▸ h .., exec_qthaw w s ▸ h .., exec_kcancelTask w s ▸ h ..⟩

end Sys2Proof.Machine

namespace Sys2Proof.Package

open Sys2Proof.Machine Sys2Proof.Claims

/-- Settles O11: the three words are `onFrozen` with their opcode and effect, and it answers by what it finds of the task, of
its node and of the word's own task. -/
theorem frozenTaskWords : Obligations.FrozenTaskWords := by
  intro w s h s1 g me
  refine ⟨fun hf => frozenTaskWords_next fun opcode eff => onFrozen_none opcode eff h hf, fun f hf => ⟨fun hc => ?closed,
    fun hc hh => ?handler, fun hc hh => ?outsider⟩⟩
  case closed => exact frozenTaskWords_next fun opcode eff => onFrozen_closed opcode eff h hf hc
  case handler =>
    rw [exec_kretry, exec_qthaw, exec_kcancelTask]
    exact ⟨onFrozen_handler _ _ h hf hc hh, onFrozen_handler _ _ h hf hc hh, onFrozen_handler _ _ h hf hc hh⟩
  case outsider =>
    simp only [List.forall_mem_cons, List.not_mem_nil, false_imp_iff, implies_true, and_true]
    rw [exec_kretry, exec_qthaw, exec_kcancelTask]
    exact ⟨onFrozen_outsider _ _ h hf hc hh, onFrozen_outsider _ _ h hf hc hh, onFrozen_outsider _ _ h hf hc hh⟩

end Sys2Proof.Package
end

section
/-! The barrier words (R293 to R297, R301, R302): named barriers at a core, group barriers by way of bridge die 8. -/

namespace Sys2Proof.Machine

open Sys2Proof Sys2Proof.Claims

/-! ### What the effects on a named barrier keep -/

theorem bankOf_foldAll {α : Type} {f : State → α → State} {g : Agent} (hf : ∀ s x, bankOf (f s x) g = bankOf s g)
    (xs : List α) (s : State) : bankOf (foldAll s xs f) g = bankOf s g := by
  induction xs generalizing s with
  | nil => rfl
  | cons x xs ih => exact (ih (f s x)).trans (hf s x)

theorem bankOf_modNb (s : State) (g : Agent) (c : CoreId) (n : Fin 32) (f : NBar → NBar) :
    bankOf (modNb s c n f) g = bankOf s g :=
  bankOf_modCore _ _ _ fun _ b => by cases b <;> rfl

theorem bankOf_settleSpad (s : State) (g : Agent) (c : CoreId) (p : Option Agent → Bool) :
    bankOf (settleSpad s c p) g = bankOf s g := by
  unfold settleSpad
  split
  · exact bankOf_modCore _ _ _ fun _ b => by cases b <;> rfl
  · rfl

theorem bankOf_applyContribution (s : State) (g : Agent) (c : CoreId) (n : Fin 32) (x : Contribution) :
    bankOf (applyContribution s c n x) g = bankOf s g := by
  have hcounted : bankOf (modNb (applyRed s c x) c n (fun b => (b.arrive 1).getD b)) g = bankOf s g := by
    rw [bankOf_modNb, applyRed, bankOf_spadWrite]
  unfold applyContribution
  dsimp only
  split
  · exact hcounted
  · rw [bankOf_settleSpad, hcounted]

theorem bankOf_settleHeld (s : State) (g : Agent) (c : CoreId) (n : Fin 32) :
    bankOf (settleHeld s c n) g = bankOf s g := by
  unfold settleHeld
  dsimp only
  split
  · rw [bankOf_foldAll fun t x => bankOf_applyContribution t g c n x, bankOf_modNb]
  · rfl

theorem markArrival_task (s : State) (g : Agent) (n : Fin 32) :
    (bankOf (markArrival s g n) g).task = (bankOf s g).task := modBankOf_task fun k => modRegs_task k ..

theorem openNb_task (s : State) (g : Agent) (n : Fin 32) (a : Nat) :
    (bankOf (openNb s g.core n a) g).task = (bankOf s g).task := by
  simp only [bankOf, getBank, openNb, getCore_modCore]
  cases g.bank <;> simp only [Core.bank, streams, List.foldl, modRegs_task]

/-! ### Arrivals (R295) -/

/-- An arrival that the count has room for is counted, and ends the phase where it is the last. -/
theorem arrive_counted {b : NBar} {k : Nat} (h0 : b.count ≠ 0) (h : b.arrivals.toNat + k ≤ b.count.toNat) :
    b.arrive k = some (if b.arrivals.toNat + k = b.count.toNat then { b with phase := b.phase + 1, arrivals := 0 }
      else { b with arrivals := BitVec.ofNat 16 (b.arrivals.toNat + k) }) := by
  simp only [NBar.arrive, h0, not_lt.mpr h, decide_false, Bool.or_false, Bool.false_eq_true, if_false]
  split <;> rfl

theorem arrive_refused {b : NBar} {k : Nat} (h : b.count = 0 ∨ b.count.toNat < b.arrivals.toNat + k) :
    b.arrive k = none := if_pos (by simpa using h)

/-! ### The barriers that words name -/

/-- The named barrier of an operand, as a word finds it once its wait has begun. -/
abbrev barrierNamed (s : State) (w : WordF) (o : Operand) : NBar := (getCore (begun s w.wait) s.cur.core).nb.get (nbNo o)

theorem checkNb_denied {s : State} {g : Agent} {n : Fin 32} (h : nbAllowed s g.core g.bank n.val = false) :
    checkNb s g n = raise s (flt .prot 0 4) := if_neg (Bool.eq_false_iff.mp h)

theorem gbIndex_outside (t : State) {v : Word} (h : 64 ≤ v.toNat) :
    gbIndex t v = raise t (flt .barrier 0 (w64 (64 + v.toNat))) := dif_neg (not_lt.mpr h)

/-- The check that BARINIT and BARARR make of their count. -/
theorem countCheck_passes {a : Word} (h1 : 1 ≤ a.toNat) (h2 : a.toNat ≤ 65535) :
    (decide (a.toNat = 0) || decide (65535 < a.toNat)) = false := by
  simp only [Bool.or_eq_false_iff, decide_eq_false_iff_not]
  omega

theorem countCheck_faults {a : Word} (h : a.toNat = 0 ∨ 65535 < a.toNat) :
    (decide (a.toNat = 0) || decide (65535 < a.toNat)) = true := by simpa using h

/-! ### BARINIT, BARARR and BARTRY -/

section

variable {w : WordF} {s : State} (hr : ready w false s = true)

include hr

section

variable (h : sourcesOk (begun s w.wait) s.cur [w.srcA] [] = true)

include h

theorem barinit_opens (hn : nbAllowed (begun s w.wait) s.cur.core s.cur.bank (nbNo w.dst).val = true)
    (h1 : 1 ≤ (src s w [w.srcA] 0).toNat) (h2 : (src s w [w.srcA] 0).toNat ≤ 65535)
    (hidle : (barrierNamed s w w.dst).count = 0
      ∨ ((barrierNamed s w w.dst).arrivals = 0 ∧ (barrierNamed s w w.dst).held = [])) :
    exec (.barinit w) s = .next (commits w s
      (openNb (begun s w.wait) s.cur.core (nbNo w.dst) (src s w [w.srcA] 0).toNat) [w.srcA] none) := by
  rw [src] at h1 h2
  dsimp only [exec]
  refine runWord_commits hr ?_ (openNb_task ..)
  rcases hidle with hc | ⟨ha, hh⟩
  · simp only [takeSources_ok h, checkNb_ok hn, countCheck_passes h1 h2, hc]
    rfl
  · simp only [takeSources_ok h, checkNb_ok hn, countCheck_passes h1 h2, ha, hh, ne_eq, not_true_eq_false, decide_false,
      List.isEmpty_nil, Bool.not_true, Bool.or_false, Bool.and_false]
    rfl

theorem barinit_denied (hn : nbAllowed (begun s w.wait) s.cur.core s.cur.bank (nbNo w.dst).val = false) :
    exec (.barinit w) s = .next (wordFault (begun s w.wait) s.cur (flt .prot 0 4) false false) := by
  dsimp only [exec]
  exact runWord_faults hr (by simp only [takeSources_ok h, checkNb_denied hn]; rfl)

end

section

variable (h : sourcesOk (begun s w.wait) s.cur [w.srcB] [] = true)

include h

theorem bararr_denied (hn : nbAllowed (begun s w.wait) s.cur.core s.cur.bank (nbNo w.srcA).val = false) :
    exec (.bararr w) s = .next (wordFault (begun s w.wait) s.cur (flt .prot 0 4) false false) := by
  dsimp only [exec]
  exact runWord_faults hr (by simp only [takeSources_ok h, checkNb_denied hn]; rfl)

variable (hn : nbAllowed (begun s w.wait) s.cur.core s.cur.bank (nbNo w.srcA).val = true)

include hn

theorem bararr_badCount (ha : (src s w [w.srcB] 0).toNat = 0 ∨ 65535 < (src s w [w.srcB] 0).toNat) :
    exec (.bararr w) s
      = .next (wordFault (begun s w.wait) s.cur (flt .barrier 0 (w64 (nbNo w.srcA).val)) false false) := by
  rw [src] at ha
  dsimp only [exec]
  exact runWord_faults hr (by simp only [takeSources_ok h, checkNb_ok hn, countCheck_faults ha]; rfl)

variable (h1 : 1 ≤ (src s w [w.srcB] 0).toNat) (h2 : (src s w [w.srcB] 0).toNat ≤ 65535)
  (hnow : arrivesNow (begun s w.wait) (barrierNamed s w w.srcA) (arrivalPlace s.cur.stream) = true)

include h1 h2 hnow

theorem bararr_arrives {b : NBar} (hb : (barrierNamed s w w.srcA).arrive (src s w [w.srcB] 0).toNat = some b) :
    let u := markArrival (drainAll (begun s w.wait) s.cur.core s.cur.bank) s.cur (nbNo w.srcA)
    exec (.bararr w) s = .next (commits w s (settleHeld (modNb u s.cur.core (nbNo w.srcA)
      (fun _ => { b with seen := some (u.cal.cycle, arrivalPlace s.cur.stream) })) s.cur.core (nbNo w.srcA))
      [w.srcB] none) := by
  rw [src] at h1 h2 hb
  dsimp only [exec]
  refine runWord_commits hr (by simp only [takeSources_ok h, checkNb_ok hn, countCheck_passes h1 h2, hnow, hb]; rfl) ?_
  rw [bankOf_settleHeld, bankOf_modNb, markArrival_task, bankOf_drainAll]

theorem bararr_refused (hb : (barrierNamed s w w.srcA).arrive (src s w [w.srcB] 0).toNat = none) :
    exec (.bararr w) s
      = .next (wordFault (begun s w.wait) s.cur (flt .barrier 0 (w64 (nbNo w.srcA).val)) false false) := by
  rw [src] at h1 h2 hb
  dsimp only [exec]
  exact runWord_faults hr (by simp only [takeSources_ok h, checkNb_ok hn, countCheck_passes h1 h2, hnow, hb]; rfl)

end

section

variable (h : sourcesOk (begun s w.wait) s.cur [] (dstPush w.dst) = true)

include h

theorem bartry_reads (hn : nbAllowed (begun s w.wait) s.cur.core s.cur.bank (nbNo w.srcA).val = true) :
    exec (.bartry w) s = .next (scalarLeaves w [] (tryWord (nbCond (begun s w.wait) s.cur (nbNo w.srcA))
      (barrierNamed s w w.srcA).arrivals.toNat (barrierNamed s w w.srcA).phase) s) := by
  dsimp only [exec]
  exact runWord_leaves (scalarReady_iff.mpr ⟨hr, h⟩) (by simp only [takeSources_ok h, checkNb_ok hn]; rfl)

theorem bartry_denied (hn : nbAllowed (begun s w.wait) s.cur.core s.cur.bank (nbNo w.srcA).val = false) :
    exec (.bartry w) s = .next (wordFault (begun s w.wait) s.cur (flt .prot 0 4) false false) := by
  dsimp only [exec]
  exact runWord_faults hr (by simp only [takeSources_ok h, checkNb_denied hn]; rfl)

end

/-! ### GBARARR and GBARTRY -/

theorem gbararr_sends {t : Task} (ht : (bankOf (begun s w.wait) s.cur).task = some t)
    (h : sourcesOk (begun s w.wait) s.cur [w.srcA] [] = true) (ha : (src s w [w.srcA] 0).toNat < 64) :
    let u := drainAll (begun s w.wait) s.cur.core s.cur.bank
    exec (.gbararr w) s = .next (pendWord (post (modMs { u with nextId := u.nextId + 1 } (fun m => { m with
      gbars := m.gbars ++ [{ id := u.nextId, agent := s.cur, g := ⟨(src s w [w.srcA] 0).toNat, ha⟩, task := t }] }))
      { src := agentDie s.cur, dst := 8, kind := .request u.nextId, ctx := some t.ctx, agent := streamNo s.cur })
      s.cur .gbar u.nextId w) := by
  have hi : gbIndex (begun s w.wait) (scal (begun s w.wait) s.cur w [w.srcA] 0)
      = .ok ⟨(src s w [w.srcA] 0).toNat, ha⟩ := gbIndex_ok _ ha
  dsimp only [exec]
  exact runWord_pends hr (by simp only [takeSources_ok h, hi, ht]; rfl)

theorem gbartry_reads {t : Task} (ht : (bankOf (begun s w.wait) s.cur).task = some t)
    (h : sourcesOk (begun s w.wait) s.cur [w.srcA] (dstPush w.dst) = true) (ha : (src s w [w.srcA] 0).toNat < 64) :
    exec (.gbartry w) s = .next (scalarLeaves w [w.srcA]
      (tryWord (gbCond (begun s w.wait) t ⟨(src s w [w.srcA] 0).toNat, ha⟩)
        ((getCaux (begun s w.wait) t.ctx).gb.get ⟨(src s w [w.srcA] 0).toNat, ha⟩).arrivals
        ((getCaux (begun s w.wait) t.ctx).gb.get ⟨(src s w [w.srcA] 0).toNat, ha⟩).phase) s) := by
  have hi : gbIndex (begun s w.wait) (scal (begun s w.wait) s.cur w [w.srcA] 0)
      = .ok ⟨(src s w [w.srcA] 0).toNat, ha⟩ := gbIndex_ok _ ha
  dsimp only [exec]
  exact runWord_leaves (scalarReady_iff.mpr ⟨hr, h⟩) (by simp only [takeSources_ok h, hi, ht]; rfl)

theorem groupBarrier_outside (ha : 64 ≤ (src s w [w.srcA] 0).toNat) :
    ∀ p ∈ [(Instr.gbararr w, ([] : List (Fin 16 × Nat))), (.gbartry w, dstPush w.dst)],
    sourcesOk (begun s w.wait) s.cur [w.srcA] p.2 = true →
    exec p.1 s = .next (wordFault (begun s w.wait) s.cur
      (flt .barrier 0 (w64 (64 + (src s w [w.srcA] 0).toNat))) false false) := by
  have hi := gbIndex_outside (begun s w.wait) ha
  rw [src] at hi
  simp only [List.forall_mem_cons, List.not_mem_nil, false_imp_iff, implies_true, and_true]
  refine ⟨fun h => ?_, fun h => ?_⟩ <;> dsimp only [exec] <;>
    exact runWord_faults hr (by simp only [takeSources_ok h, hi]; rfl)

end

end Sys2Proof.Machine

namespace Sys2Proof.Package

open Sys2Proof.Machine Sys2Proof.Claims

/-- Settles O7: the count of a word, the bank's use of the barrier and the room of the barrier's count decide between its
effect and its fault. -/
theorem namedBarriers : Obligations.NamedBarriers := by
  intro w s hr s1 g bar
  refine ⟨fun h hn h1 h2 hidle => barinit_opens hr h hn h1 h2 hidle, fun h hn h1 h2 hnow h0 hroom => ?arrives,
    fun h hn hbad => ?faults, fun h => ⟨fun hn => bartry_reads hr h hn, fun hn => bartry_denied hr h hn⟩,
    fun h hn => barinit_denied hr h hn, fun h hn => bararr_denied hr h hn⟩
  case arrives =>
    have hcounted := bararr_arrives hr h hn h1 h2 hnow (arrive_counted h0 hroom)
    dsimp only at hcounted ⊢
    rw [hcounted]
    split <;> rfl
  case faults =>
    by_cases hcount : (src s w [w.srcB] 0).toNat = 0 ∨ 65535 < (src s w [w.srcB] 0).toNat
    · exact bararr_badCount hr h hn hcount
    · obtain ⟨hnow, hfull⟩ := (or_assoc.mpr hbad).resolve_left hcount
      obtain ⟨h0, h2⟩ := not_or.mp hcount
      exact bararr_refused hr h hn (Nat.pos_of_ne_zero h0) (not_lt.mp h2) hnow (arrive_refused hfull)

/-- Settles O8: a number below 64 names a group barrier, which the word's arrival or its reading is for; another faults. -/
theorem groupBarrierWords : Obligations.GroupBarrierWords := by
  intro w s hr s1 g a t ht
  exact ⟨fun h ha => gbararr_sends hr ht h ha, fun h ha => gbartry_reads hr ht h ha,
    fun ha => groupBarrier_outside hr ha⟩

end Sys2Proof.Package
end

section
/-! Traps, collective words, the Plectrum words and the wait for a slot (R328, R332 to R341, R360, R361, R374, R375). -/

namespace Sys2Proof.Machine

open Sys2Proof Sys2Proof.Claims

/-! ### TRAP and BRK -/

theorem trapForm_faults {w : WordF} {s : State} (hr : ready w false s = true) (brk : Bool)
    (h : sourcesOk (begun s w.wait) s.cur (if w.mod.getLsbD 0 then [w.srcB] else []) [] = true) :
    trapForm w brk s = .next (wordFault (begun s w.wait) s.cur
      { code := .trapsw, detail := src s w (if w.mod.getLsbD 0 then [w.srcB] else []) 0, aux := trapCode w.srcA
        flags := if brk then 4 else 0 } false false) :=
  runWord_faults hr (by simp only [takeSources_ok h]; rfl)

/-! ### The wait for a slot -/

/-- R328: a wait of value 42 holds from the end of the first slot that begins at or after its start. -/
theorem waitHolds_slot (s : State) (g : Agent) (c : Nat) (e : WtEntry) :
    waitHolds s g { value := 42, start := c, entry := e } = decide (slotEndOf s (slotStartFrom s c) ≤ s.cal.cycle) := rfl

theorem slotEndOf_alone {s : State} {p : Nat} (h : extOf s p = none) : slotEndOf s (65536 * p) = 65536 * p + 4096 := by
  simp only [slotEndOf, Nat.mul_div_cancel_left p (by decide : 0 < 65536), h]

theorem slotEndOf_extended {s : State} {p e : Nat} (h : extOf s p = some e) : slotEndOf s (65536 * p) = 65536 * (e + 4) := by
  simp only [slotEndOf, Nat.mul_div_cancel_left p (by decide : 0 < 65536), h]

/-- A wait of value 42 uses no barrier and no entry of the wait table. -/
theorem checkWait_slot (s : State) (g : Agent) : checkWait s g 42 = .ok () := rfl

/-- R328: to wait for a slot changes the waiting stream alone. -/
theorem begun_slot (s : State) : (begun s 42).ms = s.ms ∧ (begun s 42).dies = s.dies := by
  simp only [begun, passSlipWait, checkWait_slot]
  split
  · next t ht =>
    split at ht
    · cases ht
    · split at ht
      · cases ht
        exact ⟨rfl, rfl⟩
      · split at ht
        · split at ht
          · cases ht
            exact ⟨rfl, rfl⟩
          · cases ht
        · cases ht
          exact ⟨rfl, rfl⟩
  · next t ht =>
    split at ht
    · cases ht
      exact ⟨rfl, rfl⟩
    · split at ht
      · cases ht
      · split at ht
        · split at ht
          · cases ht
          · cases ht
            exact ⟨rfl, rfl⟩
        · cases ht

/-! ### Reset -/

theorem getCore_reset (c : CoreId) : getCore State.reset c = {} := Vector.get_replicate ..

theorem getCaux_reset (x : CtxId) : getCaux State.reset x = {} := Vector.get_replicate ..

theorem memOk_reset : memOk State.reset := by
  refine ⟨reset_mem_wf, fun c => ?_, fun x i hi => ?_⟩
  · rw [getCore_reset]
    exact ⟨rfl, rfl⟩
  · rw [getCaux_reset] at hi
    cases hi

/-! ### COLL and DIGEST -/

theorem acceptColl_task {s t : State} {g : Agent} {w : WordF} {o : CollOp} {counted : Bool}
    (h : acceptColl s g w o counted = .ok t) : (bankOf t g).task = (bankOf s g).task := by
  simp only [acceptColl] at h
  split at h
  · cases h
  · cases h
    refine (noteDieOp_task ..).trans (.trans ?_ (congrArg Bank.task (bankOf_drainAll s g g.core g.bank)))
    cases counted <;> rfl

/-- R360: the registers of a COLL that their checks pass before its communicator is looked up. -/
structure CollBlock (r : Nat → Word) : Prop where
  src : (r 0).toNat % 256 = 0
  dst : (r 1).toNat % 256 = 0
  some_ : 1 ≤ bits (r 2) 31 0
  bounded : bits (r 2) 31 0 < 2 ^ 31
  reduction : (bits (r 2) 33 32 != 3) = true
  reserved : bits (r 2) 63 34 = 0

section

variable {w : WordF} {s : State} (hr : ready w false s = true) {r : Nat → Word}
  (hd : r = descReg (begun s w.wait) s.cur w.srcA) (hc : checkDesc (begun s w.wait) s.cur w.srcA 4 = .ok ())

include hr hd hc

section

variable (hb : CollBlock r)

include hb

/-- R360: an all-gather has no reduction. -/
theorem coll_illop (h1 : w.mod.toNat % 8 = 1) (hn : bits (r 2) 33 32 ≠ 0) :
    exec (.coll w) s = .next (wordFault (begun s w.wait) s.cur (wordIllop (.coll w)) false false) := by
  obtain ⟨h0, h1', hs, hl, hk, hz⟩ := hb
  subst hd
  dsimp only [exec]
  refine runWord_faults hr ?_
  simp only [takeSources_none, hc, checkReg, h0, h1', hs, hl, hk, hz, h1, ne_eq, hn, not_false_eq_true]
  rfl

variable (ho : w.mod.toNat % 8 = 1 → bits (r 2) 33 32 = 0)

include ho

theorem coll_unknown (hf : findComm (begun s w.wait) (taskOf (begun s w.wait) s.cur).ctx ((r 3).setWidth 8) = none) :
    exec (.coll w) s = .next (wordFault (begun s w.wait) s.cur (descFault w 3) false false) := by
  obtain ⟨h0, h1, hs, hl, hk, hz⟩ := hb
  have hop : (decide (w.mod.toNat % 8 = 1) && decide (bits (r 2) 33 32 ≠ 0)) = false := by simpa using ho
  subst hd
  dsimp only [exec]
  refine runWord_faults hr ?_
  simp only [takeSources_none, hc, checkReg, h0, h1, hs, hl, hk, hz, hop, hf]
  rfl

theorem coll_accepted {c : Comm} {t : State}
    (hf : findComm (begun s w.wait) (taskOf (begun s w.wait) s.cur).ctx ((r 3).setWidth 8) = some c)
    (h3 : bits (r 3) 63 8 = 0)
    (hsz : buffersOk (w.mod.toNat % 8) (r 0) (r 1)
      (collSizes (w.mod.toNat % 8) c.p (bits (r 2) 31 0) (EType.width w.etype)) = true)
    (hdie : commDie c (dieOf s.cur.core) = true)
    (ht : acceptColl (begun s w.wait) s.cur w (newColl s.cur (w.mod.toNat % 8) w.etype (r 0) (r 1) (bits (r 2) 31 0)
      (bits (r 2) 33 32) ((r 3).setWidth 8)) true = .ok t) :
    exec (.coll w) s = .next (commits w s t [] none) := by
  obtain ⟨h0, h1, hs, hl, hk, hz⟩ := hb
  have hop : (decide (w.mod.toNat % 8 = 1) && decide (bits (r 2) 33 32 ≠ 0)) = false := by simpa using ho
  subst hd
  dsimp only [exec]
  refine runWord_commits (srcs := []) hr ?_ (acceptColl_task ht)
  simp only [takeSources_none, hc, checkReg, h0, h1, hs, hl, hk, hz, hop, hf, h3, hsz, agentDie, hdie, bind, Except.bind, ht]
  rfl

end

variable {t : State} (hl : (r 1).toNat ≤ 2 ^ 40) (ha : (r 2).toNat % 8 = 0)

include hl ha

theorem digestX_accepted {c : Comm} (hx : w.mod.getLsbD 0 = true)
    (hf : findComm (begun s w.wait) (taskOf (begun s w.wait) s.cur).ctx ((r 3).setWidth 8) = some c)
    (h3 : bits (r 3) 63 8 = 0) (hdie : commDie c (dieOf s.cur.core) = true)
    (ht : acceptColl (begun s w.wait) s.cur w
      (newColl s.cur 3 w.etype (r 0) (r 2) (r 1).toNat 0 ((r 3).setWidth 8)) true = .ok t) :
    exec (.digest w) s = .next (commits w s t [] none) := by
  subst hd
  dsimp only [exec]
  refine runWord_commits (srcs := []) hr ?_ (acceptColl_task ht)
  simp only [takeSources_none, hc, checkReg, hl, ha, hx, hf, h3, agentDie, hdie, bind, Except.bind, ht]
  rfl

theorem digest_accepted (hx : w.mod.getLsbD 0 = false) (h3 : r 3 = 0)
    (ht : acceptColl (begun s w.wait) s.cur w (newColl s.cur 4 w.etype (r 0) (r 2) (r 1).toNat 0 0) false = .ok t) :
    exec (.digest w) s = .next (commits w s t [] none) := by
  subst hd
  dsimp only [exec]
  refine runWord_commits (srcs := []) hr ?_ (acceptColl_task ht)
  simp only [takeSources_none, hc, checkReg, hl, ha, hx, h3, bind, Except.bind, ht]
  rfl

end

/-! ### The Plectrum words -/

/-- A word of X that goes on to its effect commits what its body leaves once its sources are taken. -/
theorem runX_leaves {w : WordF} {srcs : List Operand} {pushes : List (Fin 16 × Nat)} {perLane : Bool} {s t : State}
    {body : State → Agent → Res Done} (h : vectorReady w srcs pushes perLane s = true)
    (hb : takeSources (begun s w.wait) s.cur srcs pushes = .ok () → body (begun s w.wait) s.cur = donePop t srcs)
    (ht : (bankOf t s.cur).task = (bankOf (begun s w.wait) s.cur).task) :
    runX w perLane body s = .next (commits w s t srcs none) := by
  obtain ⟨hr, hd, hs⟩ := vectorReady_iff.mp h
  refine runWord_commits hr ?_ ht
  simp only [hd, hb (takeSources_ok hs)]
  rfl

theorem modPk_task (s : State) (g : Agent) (f : Plectrum → Plectrum) :
    (bankOf (modPk s g f) g).task = (bankOf s g).task := modBankOf_task fun _ => rfl

theorem putList_task (s : State) (g : Agent) (off : Nat) (l : List Cand) :
    (bankOf (putList s g off l) g).task = (bankOf s g).task := by
  rw [putList, bankOf_spadWrite, bankOf_spadWrite]

theorem setTopk_task {s t : State} {g : Agent} {a : Nat} (h : setTopk s g a = .ok t) :
    (bankOf t g).task = (bankOf s g).task := by
  have hset (f : Plectrum → Plectrum) (x : Flagset) : (bankOf (setFp (modPk s g f) g x) g).task = (bankOf s g).task :=
    (setFp_task ..).trans (modPk_task ..)
  simp only [setTopk, bind, Except.bind] at h
  split at h
  · cases h
    exact hset _ _
  · split at h
    · cases h
    · cases h
      simp only [apply_ite (fun t => (bankOf t g).task), bankOf_spadWrite, hset, ite_self]

theorem setList_task {s t : State} {g : Agent} {a : Word} (h : setList s g a = .ok t) :
    (bankOf t g).task = (bankOf s g).task := by
  simp only [setList, bind, Except.bind] at h
  split at h
  · cases h
  · split at h
    · cases h
    · cases h
      rw [bankOf_spadWrite]
      exact modPk_task ..

theorem pkmerge_merges {w : WordF} {s : State} (h : vectorReady w [w.srcA] [] false s = true) {off : Nat} {cs : List Cand}
    {l : Nat × List Cand} (ho : checkList (begun s w.wait) s.cur (src s w [w.srcA] 0) = .ok off)
    (hc : listEntries (begun s w.wait) s.cur off = .ok cs) (hl : currentList (begun s w.wait) s.cur = .ok l) :
    let r := offerAll (bankOf (begun s w.wait) s.cur).pk.k l.2 cs
    exec (.pkmerge w) s = .next (commits w s (setFp (putList (begun s w.wait) s.cur l.1 r.1) s.cur (flagIf r.2 fNV))
      [w.srcA] none) := by
  rw [src] at ho
  dsimp only [exec]
  refine runX_leaves h (fun hs => ?_) ((setFp_task ..).trans (putList_task ..))
  simp only [hs, ho, hc, hl, bind, Except.bind]
  rfl

theorem pkdraw_draws {w : WordF} {s : State} (h : vectorReady w [w.srcA] (dstPush w.dst) false s = true)
    {l : Nat × List Cand} (hl : currentList (begun s w.wait) s.cur = .ok l) :
    let r := pkDraw (bankOf (begun s w.wait) s.cur).pk l.2 (src s w [w.srcA] 0).toNat
    exec (.pkdraw w) s = .next (commits w s (setFp (writeScalar (begun s w.wait) s.cur w.dst
      (w64 (r.1 + r.2.1 * 2 ^ 32 + r.2.2.1 * 2 ^ 48))) s.cur (flagIf r.2.2.2 fNV)) [w.srcA] none) := by
  dsimp only [exec]
  refine runX_leaves h (fun hs => ?_) ((setFp_task ..).trans (writeScalar_task ..))
  simp only [hs, hl, bind, Except.bind]
  rfl

theorem pktopk_offers {w : WordF} {s : State} (h : vectorReady w [w.srcA, w.srcB] [] false s = true)
    {l : Nat × List Cand} (hl : currentList (begun s w.wait) s.cur = .ok l) :
    let v := vecSource (begun s w.wait) s.cur .f32 [w.srcA, w.srcB] 0
    let b := src s w [w.srcA, w.srcB] 1
    let r := offerAll (bankOf (begun s w.wait) s.cur).pk.k l.2
      (((List.range (Nat.min (bits b 38 32) 64)).filter (fun j => bits b 23 0 + j < 2 ^ 24)).map
        (fun j => (elemAt v 32 j, bits b 23 0 + j)))
    exec (.pktopk w) s = .next (commits w s (setFp (putList (begun s w.wait) s.cur l.1 r.1) s.cur (flagIf r.2 fNV))
      [w.srcA, w.srcB] none) := by
  dsimp only [exec]
  refine runX_leaves h (fun hs => ?_) ((setFp_task ..).trans (putList_task ..))
  simp only [hs, hl, bind, Except.bind]
  rfl

end Sys2Proof.Machine

namespace Sys2Proof.Package

open Sys2Proof.Machine Sys2Proof.Claims

/-- Settles O6: the two forms are one, whose body raises TRAPSW. -/
theorem softwareTraps : Obligations.SoftwareTraps := by
  intro w s hr s1 srcs h f
  exact ⟨trapForm_faults hr false h, trapForm_faults hr true h⟩

/-- Settles O53: the slot that a wait ends with is read off the calendar. -/
theorem slotWait : Obligations.SlotWait := by
  intro s g c p holds
  have hp : (c + 65535) / 65536 = p := rfl
  refine ⟨fun hn => ?alone, fun he => ?extended, fun e he hne hn => ?after, begun_slot s⟩
  all_goals rw [show holds = _ from waitHolds_slot s g c {}, slotStartFrom]
  case alone => simp only [hp, hn, slotEndOf_alone hn]
  case extended => simp only [hp, he, if_true, slotEndOf_extended he, Nat.mul_add]
  case after => simp only [hp, he, if_neg hne, slotEndOf_alone hn]

/-- Settles O23: each word's registers pass their checks, and its engine accepts it; a communicator that the context does not
have, and an all-gather that names a reduction, fault. -/
theorem collectiveWords : Obligations.CollectiveWords := by
  intro w s hr s1 g r h comm hc
  refine ⟨fun h0 h1 hn hl hk hz => ?coll, fun hl ha => ⟨fun hx c t hf h3 hdie ht => ?x, fun hx h3 t ht => ?plain⟩⟩
  case coll =>
    have hb : CollBlock r := ⟨h0, h1, hn, hl, bne_iff_ne.mpr hk, hz⟩
    exact ⟨fun ho hne => coll_illop hr rfl hc hb ho hne, fun ho hf => coll_unknown hr rfl hc hb ho hf,
      fun c t ho hf h3 hsz hdie ht => coll_accepted hr rfl hc hb ho hf h3 hsz hdie ht⟩
  case x => exact digestX_accepted hr rfl hc hl ha hx hf h3 hdie ht
  case plain => exact digest_accepted hr rfl hc hl ha hx h3 ht

/-- Settles O31: each word takes its sources and its effect commits; PKSET's effect is that of the register it names. -/
theorem plectrumWords : Obligations.PlectrumWords := by
  intro w s
  dsimp only
  refine ⟨fun h => ⟨fun hm => ?seed, fun hm => ?seq, fun hm => ?pos, fun hm => ?temp, fun hm t ht => ?topk, fun hm => ?topp,
    fun hm t ht => ?list, fun off cs l ho hc hl => pkmerge_merges h ho hc hl⟩, fun h => ⟨?rand, fun l hl => pkdraw_draws h hl⟩,
    fun h l hl => pktopk_offers h hl⟩
  case rand =>
    dsimp only [exec, execPkrand]
    exact runX_leaves h (fun hs => by simp only [hs]; rfl) (writeVec_task ..)
  all_goals dsimp only [exec, execPkset]
  case topk =>
    refine runX_leaves h (fun hs => ?_) (setTopk_task ht)
    rw [src] at ht
    simp only [hs, hm, bind, Except.bind, ht]
  case list =>
    refine runX_leaves h (fun hs => ?_) (setList_task ht)
    rw [src] at ht
    simp only [hs, hm, bind, Except.bind, ht]
  case temp | topp =>
    refine runX_leaves h (fun hs => ?_) ((setFp_task ..).trans (modBankOf_task fun _ => rfl))
    simp only [hs, hm, bind, Except.bind]
    rfl
  all_goals
    refine runX_leaves h (fun hs => ?_) (modBankOf_task fun _ => rfl)
    simp only [hs, hm, bind, Except.bind]
    rfl

/-- Settles O55: after reset no byte of any memory is set, no task is parked and no leaf has signed. -/
theorem invariantsAtReset : Obligations.InvariantsAtReset := ⟨memOk_reset, Nat.zero_le _⟩

end Sys2Proof.Package
end

section
/-! The host's registers, their commands and its CXL accesses (R306, R365, R375, R379 to R391). -/

namespace Sys2Proof.Machine

open Sys2Proof Sys2Proof.Claims

/-! ### The records of the budget leave boot as it is -/

@[simp] theorem budgetLog_boot (s : State) (k n o : Nat) (v : Int) : (budgetLog s k n o v).boot = s.boot := by simp only [budgetLog]

@[simp] theorem budgetLog_topSeq (s : State) (k n o : Nat) (v : Int) :
    (budgetLog s k n o v).bud.topSeq = s.bud.topSeq := by simp only [budgetLog]

@[simp] theorem sumTarget_boot (s : State) : (sumTarget s).boot = s.boot := rfl

@[simp] theorem sumTarget_topSeq (s : State) : (sumTarget s).bud.topSeq = s.bud.topSeq := rfl

@[simp] theorem noteStep_boot (s t : State) : (noteStep s t).boot = t.boot := by
  unfold noteStep
  split <;> rfl

@[simp] theorem noteStep_topSeq (s t : State) : (noteStep s t).bud.topSeq = t.bud.topSeq := by
  unfold noteStep
  split <;> rfl

theorem acceptCurve_boot (s : State) (c : Curve) : (acceptCurve s c).boot = s.boot := by
  unfold acceptCurve
  dsimp only
  split <;> simp

theorem acceptCurve_topSeq (s : State) (c : Curve) : (acceptCurve s c).bud.topSeq = some c.seq := by
  unfold acceptCurve
  dsimp only
  split <;> simp

theorem takeCurve_boot (s : State) (bs : List Byte) : (takeCurve s bs).boot = s.boot := by
  unfold takeCurve
  dsimp only
  split
  · exact acceptCurve_boot ..
  · exact budgetLog_boot ..

/-- R306: an accepted curve's SEQ is the highest. -/
theorem takeCurve_topSeq {s : State} {bs : List Byte} (h : curveCode s bs = 0) :
    (takeCurve s bs).bud.topSeq = some (readCurve bs).seq := by
  rw [takeCurve, if_pos h, acceptCurve_topSeq]

/-! ### The report (R385, R386) -/

theorem length_reportBody (s : State) (result step leaf : Nat) (nonce : List Byte) :
    (reportBody s result step leaf nonce).length = 256 := by
  simp [reportBody, toBytes_length]

/-- R386: while there is a leaf a report takes it, and both signatures follow its body. -/
theorem makeReport_signed {s : State} (h : leavesLeft s = true) (result step : Nat) (nonce : List Byte) :
    (makeReport s result step nonce).1 = { s with boot := { s.boot with leaf := s.boot.leaf + 1 } }
      ∧ (makeReport s result step nonce).2.length = 3020 := by
  simp [makeReport, h, length_reportBody]

/-! ### Commands of registers -/

/-- The offsets that hold a command: CMD of a ring entry, and GO of a mailbox (R388, R389). -/
def holdsCommand (off : Nat) (v : Word) : Prop :=
  (0x1000 ≤ off ∧ off < 0x1200 ∧ (off - 0x1000) % 32 = 16 ∧ (bits v 47 40 = 1 ∨ bits v 47 40 = 2))
    ∨ ((off = 0x6000 ∨ off = 0xA000 ∨ off = 0xC000) ∧ v.getLsbD 32 = true)

theorem runCommand_none (s : State) {off : Nat} {v : Word} (h : ¬ holdsCommand off v) : runCommand s off v = .next s := by
  simp only [holdsCommand, not_or, not_and] at h
  obtain ⟨hring, hmail⟩ := h
  unfold runCommand
  split
  · next hc =>
    simp only [Bool.and_eq_true, decide_eq_true_eq] at hc
    obtain ⟨⟨h1, h2⟩, h3⟩ := hc
    obtain ⟨hn1, hn2⟩ := hring h1 h2 h3
    simp only [if_neg hn1, if_neg hn2]
  · have hg (o : Nat) (ho : o = 0x6000 ∨ o = 0xA000 ∨ o = 0xC000) : ¬ (decide (off = o) && v.getLsbD 32) = true := by
      simp only [Bool.and_eq_true, decide_eq_true_eq, not_and]
      rintro rfl
      exact hmail ho
    rw [if_neg (hg _ (.inl rfl)), if_neg (hg _ (.inr (.inl rfl))), if_neg (hg _ (.inr (.inr rfl)))]

section

variable {s : State} (hl : s.disp.linkDown = false)

include hl

/-! ### Before READY -/

theorem commands_booting (hb : regsRespond s = false) :
    exec .curveSubmit s = .next s ∧ exec .attestRequest s = .next s ∧ exec .commRegister s = .next s
      ∧ ∀ w, exec (.dbgReleaseThaw w) s = .next s ∧ exec (.dbgReleaseCancel w) s = .next s := by
  simp [exec, execCurveSubmit, execAttestRequest, execCommRegister, execDbgReleaseThaw, execDbgReleaseCancel, releaseHeld,
    hl, hb]

/-! ### The commands of the mailboxes (R306, R385, R386, R389, R391) -/

theorem curveSubmit_busy (hb : s.boot.curve.busy = true) : exec .curveSubmit s = .next s := by
  simp [exec, execCurveSubmit, hl, hb]

theorem attestRequest_busy (hb : s.boot.attest.busy = true) : exec .attestRequest s = .next s := by
  simp [exec, execAttestRequest, hl, hb]

theorem commRegister_busy (hb : s.boot.comm.busy = true) : exec .commRegister s = .next s := by
  simp [exec, execCommRegister, hl, hb]

variable (hr : regsRespond s = true)

include hr

/-- The bytes of a curve record that the mailbox holds: none where LEN is above the buffer's size. -/
def curveRecord (m : Mailbox) : List Byte :=
  if m.len.toNat ≤ 8192 then (m.buf ++ List.replicate 8192 0).take (Nat.min m.len.toNat 8192) else []

theorem curveSubmit_takes (hb : s.boot.curve.busy = false) : exec .curveSubmit s = .next (takeCurve { s with
      boot := { s.boot with curve := { s.boot.curve with
        status := curveCode s (curveRecord s.boot.curve), busy := true } } } (curveRecord s.boot.curve)) := by
  simp only [exec, execCurveSubmit, hl, hr, hb]
  rfl

theorem attestRequest_exhausted (hb : s.boot.attest.busy = false) (hn : leavesLeft s = false) :
    exec .attestRequest s
      = .next { s with boot := { s.boot with attest := { s.boot.attest with status := 3, busy := true } } } := by
  simp only [exec, execAttestRequest, hl, hr, hb, hn]
  rfl

theorem attestRequest_reports (hb : s.boot.attest.busy = false) (hn : leavesLeft s = true) :
    let r := makeReport s 0 0 (s.boot.attest.buf.take 32)
    exec .attestRequest s = .next { r.1 with
      boot := { r.1.boot with attest := { s.boot.attest with status := 0, buf := r.2, busy := true } } } := by
  simp only [exec, execAttestRequest, hl, hr, hb, hn]
  rfl

theorem commRegister_malformed (hb : s.boot.comm.busy = false) (hn : readComm s s.boot.comm.arg.toNat = none) :
    exec .commRegister s
      = .next { s with boot := { s.boot with comm := { s.boot.comm with status := 1, busy := true } } } := by
  simp only [exec, execCommRegister, hl, hr, hb, hn]
  rfl

variable {x : CtxId} {c : Comm}

theorem commRegister_outstanding (hb : s.boot.comm.busy = false) (hc : readComm s s.boot.comm.arg.toNat = some (x, c))
    (hn : commBusy s x c.handle = true) : exec .commRegister s
      = .next { s with boot := { s.boot with comm := { s.boot.comm with status := 2, busy := true } } } := by
  simp only [exec, execCommRegister, hl, hr, hb, hc, hn]
  rfl

theorem commRegister_registers (hb : s.boot.comm.busy = false) (hc : readComm s s.boot.comm.arg.toNat = some (x, c))
    (hn : commBusy s x c.handle = false) :
    let t := modCaux s x (fun a => { a with comms := a.comms.filter (fun d => d.handle != c.handle) ++ [c] })
    exec .commRegister s
      = .next { t with boot := { t.boot with comm := { t.boot.comm with status := 0, busy := true } } } := by
  simp only [exec, execCommRegister, hl, hr, hb, hc, hn]
  rfl

/-! ### The debug hold (R375, R390) -/

theorem dbgHold_writes (x : CtxId) {v : Word} (h1 : bits v 3 2 ≠ 1) (h2 : bits v 3 2 ≠ 2) :
    exec (.dbgHold x v) s = .next (modCaux s x (fun a => { a with dbgHold := v.getLsbD 0 })) := by
  simp [exec, execDbgHold, hl, hr, h1, h2]

theorem releaseHeld_releases (w : DbgWrite) (f : State → FrozenAt × Task × Freeze → State) :
    releaseHeld s w f = .next (modCaux (foldAll s (heldTasks s w.ctx) f) w.ctx (fun a => { a with dbgHold := w.hold })) := by
  simp only [releaseHeld, hl, hr]
  rfl

/-! ### Writes of registers (R379, R387 to R390) -/

/-- From READY on an aligned write to a register is stored, and then its command runs. -/
theorem regWrite_stores {off : Nat} (v : Word) (ha : off % 8 = 0) (ho : off < 0x80000) (h40 : off ≠ 0x40)
    (hd : off < 0x5000 ∨ 0x5200 ≤ off) : exec (.regWrite off v) s = runCommand (writeReg s off v) off v := by
  have hd' : (decide (0x5000 ≤ off) && decide (off < 0x5200)) = false := by
    simp only [Bool.and_eq_false_iff, decide_eq_false_iff_not]
    omega
  simp [exec, execRegWrite, hl, hr, ha, h40, Nat.not_le.mpr ho, hd']

theorem regWrite_debug (x : CtxId) (v : Word) : exec (.regWrite (0x5000 + 8 * x.val) v) s = writeDbg s x v := by
  have hx := x.isLt
  have ha : (0x5000 + 8 * x.val) % 8 = 0 := by omega
  have ho : ¬ 0x80000 ≤ 0x5000 + 8 * x.val := by omega
  have h40 : 0x5000 + 8 * x.val ≠ 0x40 := by omega
  have hu : 0x5000 + 8 * x.val < 0x5200 := by omega
  simp [exec, execRegWrite, hl, hr, ha, ho, h40, hu]

theorem regWrite_outside {off : Nat} (v : Word) (ha : off % 8 = 0) (ho : 0x80000 ≤ off) :
    exec (.regWrite off v) s = .next (logViolation s 8 0xFE 0xFF 0xFF 2 off) := by
  have h40 : off ≠ 0x40 := by omega
  simp only [exec, execRegWrite, hl, hr, ha, h40, if_pos ho]
  rfl

/-- A write that gives no command stores its value alone. -/
theorem regWrite_only {off : Nat} {v : Word} (ha : off % 8 = 0) (ho : off < 0x80000) (h40 : off ≠ 0x40)
    (hd : off < 0x5000 ∨ 0x5200 ≤ off) (hc : ¬ holdsCommand off v) :
    exec (.regWrite off v) s = .next (writeReg s off v) := by
  rw [regWrite_stores hl hr v ha ho h40 hd, runCommand_none _ hc]

/-! ### CXL accesses (R365, R379) -/

theorem cxlMemAccess_performed {a : HostAccess} (hi : 65536 * (hdmRange s).1 ≤ a.pa.toNat
    ∧ a.pa.toNat + a.len ≤ 65536 * (hdmRange s).1 + 65536 * (hdmRange s).2) :
    exec (.cxlMemAccess a) s = .next (match a.write with
      | none => setHostRead s (some (viewBytes s.ms 9 a.pa.toNat a.len))
      | some bs => enterView s 9 (cellsAt a.pa.toNat (bs.take a.len))) := by
  have hb : s.boot.stat = 1 := of_decide_eq_true hr
  obtain ⟨h1, h2⟩ := hi
  simp only [exec, execCxlMemAccess, hl, hb, h1, h2]
  cases a.write <;> rfl

theorem cxlMemAccess_outside {a : HostAccess} (ho : ¬ (65536 * (hdmRange s).1 ≤ a.pa.toNat
    ∧ a.pa.toNat + a.len ≤ 65536 * (hdmRange s).1 + 65536 * (hdmRange s).2)) :
    exec (.cxlMemAccess a) s
      = .next (setHostRead (logViolation s 8 0xFE 0xFF 0xFF 2 a.pa.toNat) none) := by
  have hb : s.boot.stat = 1 := of_decide_eq_true hr
  simp [exec, execCxlMemAccess, hl, hb, ← Bool.decide_and, ho]

end

/-! ### What a write stores and runs -/

theorem writeReg_ring (s : State) (r : Fin 16) {j : Nat} (hj : j < 32) (v : Word) :
    writeReg s (0x1000 + 32 * r.val + j) v = modRing16 s r (fun g => writeRing g j v) := by
  have hr := r.isLt
  have h1 : (0x1000 + 32 * r.val + j - 0x1000) / 32 = r.val := by omega
  have h2 : (0x1000 + 32 * r.val + j - 0x1000) % 32 = j := by omega
  have h3 : (decide (0x1000 ≤ 0x1000 + 32 * r.val + j) && decide (0x1000 + 32 * r.val + j < 0x1200)) = true := by
    simp only [Bool.and_eq_true, decide_eq_true_eq]
    omega
  simp only [writeReg, h1, h2, if_pos h3, Fin.ofNat_val_eq_self]

/-- An offset of a mailbox's buffer is none of the offsets that `writeReg` asks for before it. -/
theorem writeReg_curveBuf (s : State) {k : Nat} (hk : k < 1024) (v : Word) :
    writeReg s (0x8000 + 8 * k) v = { s with boot := { s.boot with curve := writeData s.boot.curve (8 * k) v } } := by
  have h1 : ¬ 0x8000 + 8 * k < 0x1200 := by omega
  have h2 : 0x8000 + 8 * k ≠ 0x6000 := by omega
  have h3 : 0x8000 + 8 * k < 0xA000 := by omega
  have h4 : 0x8000 + 8 * k ≠ 0xA000 := by omega
  have h5 : 0x8000 + 8 * k ≠ 0xC000 := by omega
  have h6 : 0x8000 + 8 * k ≠ 0xC008 := by omega
  simp [writeReg, h1, h2, h3, h4, h5, h6]

theorem writeReg_attestBuf (s : State) {k : Nat} (hk : k < 512) (v : Word) :
    writeReg s (0xB000 + 8 * k) v = { s with boot := { s.boot with attest := writeData s.boot.attest (8 * k) v } } := by
  have h1 : ¬ 0xB000 + 8 * k < 0x1200 := by omega
  have h2 : 0xB000 + 8 * k ≠ 0x6000 := by omega
  have h3 : ¬ 0xB000 + 8 * k < 0xA000 := by omega
  have h4 : 0xB000 + 8 * k ≠ 0xA000 := by omega
  have h5 : 0xB000 + 8 * k ≠ 0xC000 := by omega
  have h6 : 0xB000 + 8 * k ≠ 0xC008 := by omega
  have h7 : 0xB000 + 8 * k < 0xC000 := by omega
  simp [writeReg, h1, h2, h3, h4, h5, h6, h7]

theorem writeControl_free {m : Mailbox} (h : m.busy = false) (v : Word) :
    writeControl m 0 v = { m with len := v.setWidth 32 } ∧ writeControl m 8 v = { m with arg := v } := by
  simp [writeControl, h]

theorem writeControl_busy {m : Mailbox} (h : m.busy = true) (j : Nat) (v : Word) : writeControl m j v = m := if_pos h

theorem writeData_free {m : Mailbox} (h : m.busy = false) (j : Nat) (v : Word) :
    writeData m j v = { m with buf := writeBuf m.buf j (toBytes 8 v.toNat) } := by
  simp [writeData, h]

end Sys2Proof.Machine

namespace Sys2Proof.Package

open Sys2Proof.Machine Sys2Proof.Claims

/-- Settles O44: before READY a command has no effect; from READY on a mailbox's command is run, and a write to a register is
stored where its offset says, with the command that it holds. -/
theorem hostRegisterEvents : Obligations.HostRegisterEvents := by
  intro s hl
  refine ⟨fun hb => commands_booting hl (decide_eq_false hb), fun hb => ?_⟩
  have hr : regsRespond s = true := decide_eq_true hb
  refine ⟨fun hn => ?curve, fun hn hx => ?exhausted, fun hn hx => ?report, fun hn hc => ?malformed, fun hn x c hc ho => ?busy,
    curveSubmit_busy hl, attestRequest_busy hl, commRegister_busy hl, fun hn x c hc ho => ?registers,
    fun x v h1 h2 => dbgHold_writes hl hr x h1 h2,
    fun w => ⟨releaseHeld_releases hl hr w _, releaseHeld_releases hl hr w _⟩, fun v => ?address, fun v hv => ?lengths,
    fun v hv hn => ?go, fun k v hk hn => ?curveBuf, fun k v hk hn => ?attestBuf, fun r v => ?ring,
    fun x v => regWrite_debug hl hr x v, fun off v ha ho => regWrite_outside hl hr v ha ho,
    fun a => ⟨fun hi => cxlMemAccess_performed hl hr hi, fun ho => cxlMemAccess_outside hl hr ho⟩⟩
  case curve =>
    exact ⟨_, curveSubmit_takes hl hr hn, by rw [takeCurve_boot]; rfl, fun hc => takeCurve_topSeq hc⟩
  case exhausted => exact attestRequest_exhausted hl hr hn (decide_eq_false (Nat.not_lt.mpr hx))
  case report =>
    obtain ⟨hs, hlen⟩ := makeReport_signed (decide_eq_true hx : leavesLeft s = true) 0 0 (s.boot.attest.buf.take 32)
    exact ⟨_, attestRequest_reports hl hr hn (decide_eq_true hx), by rw [hs], rfl, hlen⟩
  case malformed => exact ⟨_, commRegister_malformed hl hr hn hc, rfl⟩
  case busy => exact ⟨_, commRegister_outstanding hl hr hn hc ho, rfl⟩
  case registers => exact ⟨_, commRegister_registers hl hr hn hc ho, rfl, by simp [getCaux, modCaux]⟩
  case address =>
    rw [regWrite_only hl hr (by decide) (by decide) (by decide) (by decide) (by simp [holdsCommand])]
    exact ⟨fun hn => by simp [writeReg, writeControl_free hn], fun hn => by simp [writeReg, writeControl_busy hn]⟩
  case lengths =>
    rw [regWrite_only hl hr (by decide) (by decide) (by decide) (by decide) (by simp_all [holdsCommand]),
      regWrite_only hl hr (by decide) (by decide) (by decide) (by decide) (by simp_all [holdsCommand]),
      regWrite_only hl hr (by decide) (by decide) (by decide) (by decide) (by simp_all [holdsCommand])]
    exact ⟨fun hn => by simp [writeReg, writeControl_free hn], fun hn => by simp [writeReg, writeControl_free hn],
      fun hn => by simp [writeReg, writeControl_free hn]⟩
  case go =>
    rw [regWrite_stores hl hr v (by decide) (by decide) (by decide) (by decide)]
    simp [writeReg, writeControl_free hn, runCommand, hv, exec]
  case curveBuf =>
    rw [regWrite_only hl hr (by omega) (by omega) (by omega) (by omega) (by simp only [holdsCommand]; omega),
      writeReg_curveBuf s hk, writeData_free hn]
  case attestBuf =>
    rw [regWrite_only hl hr (by omega) (by omega) (by omega) (by omega) (by simp only [holdsCommand]; omega),
      writeReg_attestBuf s hk, writeData_free hn]
  case ring =>
    have hring {j : Nat} (h8 : j % 8 = 0) (hj : j < 32) (hc : j = 16 → bits v 47 40 ≠ 1 ∧ bits v 47 40 ≠ 2) :
        exec (.regWrite (0x1000 + 32 * r.val + j) v) s = .next (modRing16 s r (fun g => writeRing g j v)) := by
      have hlt := r.isLt
      rw [regWrite_only hl hr (by omega) (by omega) (by omega) (by omega) (by simp only [holdsCommand]; omega),
        writeReg_ring s r hj]
    exact ⟨hring (j := 0) rfl (by decide) nofun, hring (j := 24) rfl (by decide) nofun,
      fun h1 h2 => hring (j := 16) rfl (by decide) fun _ => ⟨h1, h2⟩⟩

end Sys2Proof.Package
end

section
/-! Every function of the model that leads from one state to another keeps the canonical form of the memories (log 1) and the
count of the leaves that have signed (R386). One relation says so of two states, and a lemma for each function, named after
it, carries the relation through that function; a proof is the chain of the functions that a definition applies. -/

namespace Sys2Proof.Machine

open Sys2Proof

/-! ### The relation -/

/-- The state t has its memories in canonical form if s has, and as many leaves of the identity key used, or more of those
that there are. -/
structure Keeps (s t : State) : Prop where
  mem : memOk s → memOk t
  leaves : leavesOk s → leavesOk t
  leaf : s.boot.leaf ≤ t.boot.leaf

/-- What stops a word carries a state that keeps the two. -/
def StopKeeps (s : State) : Stop → Prop
  | .stall t _ => Keeps s t
  | .fault t _ => Keeps s t

/-- What a word ends in carries a state that keeps the two. -/
def DoneKeeps (s : State) : Done → Prop
  | .commit t _ _ => Keeps s t
  | .pend t _ _ => Keeps s t

/-- A result that has P, or a stop that keeps the two. -/
def ResKeeps (s : State) {α : Type} (P : α → Prop) : Res α → Prop
  | .ok a => P a
  | .error e => StopKeeps s e

/-- A check: its result says nothing of a state. -/
abbrev ChecksKeep (s : State) {α : Type} (r : Res α) : Prop := ResKeeps s (fun _ => True) r

/-- The outcome of a step keeps the two, if it is a state. -/
def OutKeeps (s : State) : Out → Prop
  | .next t => Keeps s t
  | .fault _ => True
  | .refused _ => True

/-- A word that waits, or goes on: both states keep the two. -/
def EndKeeps (s : State) : Except State State → Prop
  | .ok t => Keeps s t
  | .error t => Keeps s t

/-- What becomes of a page carries a state that keeps the two. -/
def ActKeeps (s : State) : PageAct → Prop
  | .status t _ => Keeps s t
  | .begun t => Keeps s t
  | .again t => Keeps s t
  | .wait => True

/-- What a fetch brings is a word, or a stop that keeps the two. -/
def FetchKeeps (s : State) : Fetched → Prop
  | .skip => True
  | .instr _ => True
  | .stop x => StopKeeps s x

/-- The images that a context holds after a change are in canonical form if the memories of s are. -/
def ImagesKeep (s : State) (l : List ParkImg) : Prop := ∀ i ∈ l, memOk s → imageMemOk i

variable {s₀ s t : State}

namespace ImagesKeep

variable {l : List ParkImg}

theorem filter {p : ParkImg → Bool} (h : ImagesKeep s₀ l) : ImagesKeep s₀ (l.filter p) :=
  fun i hi => h i (List.mem_filter.1 hi).1

theorem map {f : ParkImg → ParkImg} (h : ImagesKeep s₀ l) (hf : ∀ i, imageMemOk i → imageMemOk (f i)) :
    ImagesKeep s₀ (l.map f) := by
  intro j hj h0
  obtain ⟨i, hi, rfl⟩ := List.mem_map.1 hj
  exact hf i (h i hi h0)

/-- A change of some images that leaves their memories alone. -/
theorem mapIf {p : ParkImg → Prop} [DecidablePred p] {f : ParkImg → ParkImg} (h : ImagesKeep s₀ l)
    (hf : ∀ i, imageMemOk i → imageMemOk (f i)) : ImagesKeep s₀ (l.map fun i => if p i then f i else i) := by
  refine h.map fun i hi => ?_
  split
  · exact hf i hi
  · exact hi

theorem append {k : List ParkImg} (h : ImagesKeep s₀ l) (hk : ImagesKeep s₀ k) : ImagesKeep s₀ (l ++ k) :=
  fun i hi => (List.mem_append.1 hi).elim (h i) (hk i)

end ImagesKeep

namespace ResKeeps

variable {α β : Type} {P : α → Prop} {Q : β → Prop} {r : Res α}

theorem bind {f : α → Res β} (h : ResKeeps s₀ P r) (hf : ∀ a, P a → ResKeeps s₀ Q (f a)) : ResKeeps s₀ Q (r >>= f) := by
  cases r with
  | ok a => exact hf a h
  | error e => exact h

theorem ok {a : α} (h : ResKeeps s₀ P r) (e : r = .ok a) : P a := by
  subst e
  exact h

theorem fault {f : FaultInfo} (h : ResKeeps s₀ P r) (e : r = .error (.fault s f)) : Keeps s₀ s := by
  subst e
  exact h

theorem stall {w : StallStep} (h : ResKeeps s₀ P r) (e : r = .error (.stall s w)) : Keeps s₀ s := by
  subst e
  exact h

theorem stop {x : Stop} (h : ResKeeps s₀ P r) (e : r = .error x) : StopKeeps s₀ x := by
  subst e
  exact h

/-- A check that is made only under a condition. -/
theorem when {c : Prop} [Decidable c] {r : Res PUnit} {v : PUnit → Res β} (h : ChecksKeep s₀ r)
    (hv : ResKeeps s₀ Q (v ⟨⟩)) : ResKeeps s₀ Q (if c then r >>= v else v ⟨⟩) := by
  split
  · exact h.bind fun _ _ => hv
  · exact hv

end ResKeeps

theorem EndKeeps.ok {r : Except State State} (h : EndKeeps s₀ r) (e : r = .ok s) : Keeps s₀ s := by
  subst e
  exact h

theorem EndKeeps.error {r : Except State State} (h : EndKeeps s₀ r) (e : r = .error s) : Keeps s₀ s := by
  subst e
  exact h

theorem ActKeeps.ite {c : Prop} [Decidable c] {a b : PageAct} (h : ActKeeps s₀ a) (k : ActKeeps s₀ b) :
    ActKeeps s₀ (if c then a else b) := by
  split
  · exact h
  · exact k

theorem ActKeeps.status {a : PageAct} {n : Nat} (h : ActKeeps s₀ a) (e : a = .status s n) : Keeps s₀ s := by
  subst e
  exact h

theorem ActKeeps.begun {a : PageAct} (h : ActKeeps s₀ a) (e : a = .begun s) : Keeps s₀ s := by
  subst e
  exact h

theorem ActKeeps.again {a : PageAct} (h : ActKeeps s₀ a) (e : a = .again s) : Keeps s₀ s := by
  subst e
  exact h

theorem FetchKeeps.stop {a : Fetched} {x : Stop} (h : FetchKeeps s₀ a) (e : a = .stop x) : StopKeeps s₀ x := by
  subst e
  exact h

theorem OutKeeps.next {r : Out} (h : OutKeeps s₀ r) (e : r = .next s) : Keeps s₀ s := by
  subst e
  exact h

namespace Keeps

theorem refl (s : State) : Keeps s s := ⟨id, id, Nat.le_refl _⟩

theorem trans {u : State} (h : Keeps s t) (k : Keeps t u) : Keeps s u :=
  ⟨k.mem ∘ h.mem, k.leaves ∘ h.leaves, h.leaf.trans k.leaf⟩

theorem fst {α : Type} {p : State × α} {a : α} (h : Keeps s₀ p.1) (e : p = (t, a)) : Keeps s₀ t := by
  subst e
  exact h

theorem ite {c : Prop} [Decidable c] {u : State} (h : Keeps s₀ t) (k : Keeps s₀ u) : Keeps s₀ (if c then t else u) := by
  split
  · exact h
  · exact k

theorem getD {r : Option State} (h : Keeps s₀ s) (hr : ∀ t, r = some t → Keeps s₀ t) : Keeps s₀ (r.getD s) := by
  cases r with
  | none => exact h
  | some t => exact hr t rfl

/-- A fault or a stall that a check or an effect gives back. -/
theorem raise {α : Type} {P : α → Prop} {f : FaultInfo} (h : Keeps s₀ s) : ResKeeps s₀ P (raise s f) := h

theorem stall {α : Type} {P : α → Prop} {w : StallStep} (h : Keeps s₀ s) : ResKeeps s₀ P (stall s w) := h

theorem raise_bind {α β : Type} {P : β → Prop} {f : FaultInfo} {g : α → Res β} (h : Keeps s₀ s) :
    ResKeeps s₀ P (Machine.raise s f >>= g) := h

theorem stall_bind {α β : Type} {P : β → Prop} {w : StallStep} {g : α → Res β} (h : Keeps s₀ s) :
    ResKeeps s₀ P (Machine.stall s w >>= g) := h

/-! ### Parts of the state -/

/-- Everything but the cores, the contexts' images, the memory and boot. -/
theorem frame {ctl dies dlinks fabs ctxs disp bud cal care cur agenda turn nextId fresh} (h : Keeps s₀ s) :
    Keeps s₀ ⟨s.cores, ctl, dies, dlinks, fabs, ctxs, s.caux, s.ms, disp, bud, cal, care, s.boot, cur, agenda, turn, nextId,
      fresh⟩ :=
  h.trans ⟨id, id, Nat.le_refl _⟩

/-- Boot, with the leaves that have signed as they were. -/
theorem boot {stat step cause resetCause itable node present forward tests minSvn slot boots curve attest comm report hostRead
    silent standby missed beat} (h : Keeps s₀ s) :
    Keeps s₀ { s with boot := ⟨stat, step, cause, resetCause, itable, node, present, forward, tests, s.boot.leaf, minSvn, slot,
      boots, curve, attest, comm, report, hostRead, silent, standby, missed, beat⟩ } :=
  h.trans ⟨id, id, Nat.le_refl _⟩

/-- A change of the memory system that keeps the form of the memory. -/
theorem modMsAt {f : MemSys → MemSys} (h : Keeps s₀ s) (hf : Mem.wf s.ms.mem = true → Mem.wf (f s.ms).mem = true) :
    Keeps s₀ (modMs s f) :=
  h.trans ⟨fun ⟨hm, hc, hx⟩ => ⟨hf hm, hc, hx⟩, id, Nat.le_refl _⟩

/-- A change of the memory system that leaves the memory alone. -/
theorem modMs {writes unplaced atomics watches sends gbars contribs moves free owners withdrawn badTables latent : MemSys → _}
    (h : Keeps s₀ s) :
    Keeps s₀ (modMs s fun m => ⟨m.mem, writes m, unplaced m, atomics m, watches m, sends m, gbars m, contribs m, moves m, free m,
      owners m, withdrawn m, badTables m, latent m⟩) :=
  h.modMsAt id

theorem setCore {c : CoreId} {k : Core} (h : Keeps s₀ s) (hk : memOk s₀ → coreMemOk k) : Keeps s₀ (setCore s c k) := by
  refine ⟨fun h0 => ?_, h.leaves, h.leaf⟩
  obtain ⟨hm, hc, hx⟩ := h.mem h0
  refine ⟨hm, fun d => ?_, hx⟩
  simp only [getCore, Machine.setCore, vset_get]
  split
  · exact hk h0
  · exact hc d

theorem core (h : Keeps s₀ s) (c : CoreId) (h0 : memOk s₀) : coreMemOk (getCore s c) := (h.mem h0).2.1 c

theorem images (h : Keeps s₀ s) (x : CtxId) : ImagesKeep s₀ (getCaux s x).images := fun i hi h0 => (h.mem h0).2.2 x i hi

/-- A change of a core that keeps the form of its memories. -/
theorem modCoreAt {c : CoreId} {f : Core → Core} (h : Keeps s₀ s)
    (hf : coreMemOk (getCore s c) → coreMemOk (f (getCore s c))) : Keeps s₀ (modCore s c f) :=
  h.setCore fun h0 => hf (h.core c h0)

/-- A change of a core that leaves its memories alone. -/
theorem modCore {c : CoreId} {active shadow aAux sAux badSpad badAcc racing nb work urgen accres swap tlb : Core → _}
    (h : Keeps s₀ s) :
    Keeps s₀ (modCore s c fun k => ⟨active k, shadow k, aAux k, sAux k, k.spad, k.acc, badSpad k, badAcc k, racing k, nb k,
      work k, urgen k, accres k, swap k, tlb k⟩) :=
  h.modCoreAt id

theorem setBank {c : CoreId} {b : BankId} {k : Bank} (h : Keeps s₀ s) : Keeps s₀ (setBank s c b k) :=
  h.modCoreAt (by cases b <;> exact id)

theorem modBank {c : CoreId} {b : BankId} {f : Bank → Bank} (h : Keeps s₀ s) : Keeps s₀ (modBank s c b f) := h.setBank

theorem modAux {c : CoreId} {b : BankId} {f : BankAux → BankAux} (h : Keeps s₀ s) : Keeps s₀ (modAux s c b f) :=
  h.modCoreAt (by cases b <;> exact id)

theorem modBankOf {g : Agent} {f : Bank → Bank} (h : Keeps s₀ s) : Keeps s₀ (modBankOf s g f) := h.modBank

theorem modStOf {g : Agent} {f : StreamSt → StreamSt} (h : Keeps s₀ s) : Keeps s₀ (modStOf s g f) := h.modBankOf

theorem modRegsOf {g : Agent} {f : StreamRegs → StreamRegs} (h : Keeps s₀ s) : Keeps s₀ (modRegsOf s g f) := h.modBankOf

/-- A change of what a context holds that keeps the form of its images. -/
theorem modCauxAt {x : CtxId} {f : CtxAux → CtxAux} (h : Keeps s₀ s)
    (hf : ImagesKeep s₀ (getCaux s x).images → ImagesKeep s₀ (f (getCaux s x)).images) : Keeps s₀ (modCaux s x f) := by
  refine ⟨fun h0 => ?_, h.leaves, h.leaf⟩
  obtain ⟨hm, hc, hx⟩ := h.mem h0
  refine ⟨hm, hc, fun y i hi => ?_⟩
  simp only [getCaux, Machine.modCaux, vmod_get] at hi
  split at hi
  · next hxy =>
    subst hxy
    exact hf (fun j hj _ => hx x j hj) i hi h0
  · exact hx y i hi

/-- A change of what a context holds that leaves its images alone. -/
theorem modCaux {x : CtxId} {epoch serial retired frozen kept frozenN handles comms gb conts fwd ws dbgHold quiesce : CtxAux → _}
    (h : Keeps s₀ s) :
    Keeps s₀ (modCaux s x fun a => ⟨epoch a, serial a, retired a, frozen a, kept a, frozenN a, handles a, comms a, gb a, conts a,
      a.images, fwd a, ws a, dbgHold a, quiesce a⟩) :=
  h.modCauxAt id

theorem modDie {d : DieId} {f : Die → Die} (h : Keeps s₀ s) : Keeps s₀ (modDie s d f) := h.frame

theorem modCtx {x : CtxId} {f : Ctx → Ctx} (h : Keeps s₀ s) : Keeps s₀ (modCtx s x f) := h.frame

theorem modDisp {f : Dispatcher → Dispatcher} (h : Keeps s₀ s) : Keeps s₀ (modDisp s f) := h.frame

theorem modCtl {c : CoreId} {f : CoreCtl → CoreCtl} (h : Keeps s₀ s) : Keeps s₀ (modCtl s c f) := h.frame

theorem takeId (h : Keeps s₀ s) : Keeps s₀ (takeId s).1 := h.frame

theorem foldAll {α : Type} {xs : List α} {f : State → α → State} (h : Keeps s₀ s)
    (hf : ∀ t x, Keeps s₀ t → Keeps s₀ (f t x)) : Keeps s₀ (foldAll s xs f) := by
  induction xs generalizing s with
  | nil => exact h
  | cons x xs ih => exact ih (hf s x h)

theorem touch {x : CtxId} {d : DieId} (h : Keeps s₀ s) : Keeps s₀ (touch s x d) := h.modCtx

theorem touchAll {x : CtxId} {ds : List DieId} (h : Keeps s₀ s) : Keeps s₀ (touchAll s x ds) := by
  induction ds generalizing s with
  | nil => exact h
  | cons d ds ih => exact ih h.touch

end Keeps

/-! ### Memory -/

theorem zeroActive_memOk {k : Core} (h : coreMemOk k) : coreMemOk (zeroActive k) :=
  ⟨Mem.wf_filter _ h.1, Mem.wf_filter _ h.2⟩

theorem copyFrame_wf {m : Mem} (src dst : Nat) (h : Mem.wf m = true) : Mem.wf (copyFrame m src dst) = true :=
  Mem.wf_writeCells _ (Mem.wf_clear _ _ h)

theorem tilePart_wf {m : Mem} (accres : BitVec 13) (b : Bool) (h : Mem.wf m = true) :
    Mem.wf (tilePart accres b m) = true := Mem.wf_filter _ h

theorem spadPart_wf {m : Mem} (b : Bool) (h : Mem.wf m = true) : Mem.wf (spadPart b m) = true := Mem.wf_filter _ h

theorem restoreStores_memOk {k : Core} {i : ParkImg} (h : coreMemOk k) (hi : imageMemOk i) :
    coreMemOk (restoreStores k i) := by
  obtain ⟨hs, ha⟩ := h
  unfold restoreStores
  extract_lets
  split
  · exact ⟨Mem.wf_writeCells _ (spadPart_wf _ hs), Mem.wf_writeCells _ (tilePart_wf _ _ ha)⟩
  · split
    · exact ⟨Mem.wf_writeCells _ (spadPart_wf _ hs), Mem.wf_writeCells _ (tilePart_wf _ _ ha)⟩
    · exact hi

theorem setBank_memOk {k : Core} {b : BankId} {m : Bank} (h : coreMemOk k) : coreMemOk (k.setBank b m) := by
  cases b
  · exact h
  · exact h

theorem mem_images_of_mem_gangImages {s : State} {k : Kernel} {n : Nat} {i : ParkImg} (h : i ∈ gangImages s k n) :
    i ∈ (getCaux s k.ctx).images :=
  (List.mem_filter.1 (List.mem_mergeSort.1 h)).1

namespace Keeps

theorem settled (h : Keeps s₀ s) : Keeps s₀ (settled s) :=
  h.modMsAt (f := fun m => { m with mem := _, writes := _ }) (settled_wf s)

theorem postAll {d : DieId} {ps : List Payload} (h : Keeps s₀ s) : Keeps s₀ (postAll s d ps) := h.modDie

theorem post {p : Payload} (h : Keeps s₀ s) : Keeps s₀ (post s p) := h.postAll

theorem enterAs {d : DieId} {after : List (Nat × List DieId)} {o : Origin} {cells : List Host.Cell} (h : Keeps s₀ s) :
    Keeps s₀ (enterAs s d after o cells) := by
  unfold Machine.enterAs
  split
  · exact h
  · exact h.takeId.modDie.postAll.modMs

end Keeps

end Sys2Proof.Machine
end

section
/-! Packets, page tables, page moves and checked accesses keep the canonical form and the count of leaves. -/

namespace Sys2Proof.Machine

open Sys2Proof

variable {s₀ s t : State}

namespace Keeps

/-! ### Packets (R24, R191, R345) -/

theorem enterView {d : DieId} {cells : List Host.Cell} (h : Keeps s₀ s) : Keeps s₀ (enterView s d cells) := h.enterAs

theorem enterAtomic {home : DieId} {task : Option Word} {after : List (Nat × List DieId)} {o : Origin}
    {cells : List Host.Cell} (h : Keeps s₀ s) : Keeps s₀ (enterAtomic s home task after o cells) := by
  unfold Machine.enterAtomic
  split
  · next e => exact (h.takeId.fst e).postAll.modMs.settled

theorem enterAll {home : DieId} {cells : List Host.Cell} (h : Keeps s₀ s) : Keeps s₀ (enterAll s home cells) := by
  unfold Machine.enterAll
  split
  · next e => exact (h.takeId.fst e).modMs.settled

theorem applyWrite {d : DieId} {w : Write} (h : Keeps s₀ s) : Keeps s₀ (applyWrite s d w) := by
  unfold Machine.applyWrite
  extract_lets t t2
  have ht : Keeps s₀ t := h.modMs
  have ht2 : Keeps s₀ t2 := by
    unfold t2
    split
    · exact ht
    · exact ht.modDie
  exact ht2.settled

theorem placeWrite {w : Write} (h : Keeps s₀ s) : Keeps s₀ (placeWrite s w) := h.modMs.settled

theorem reachWrite {d : DieId} {id : Nat} (h : Keeps s₀ s) : Keeps s₀ (reachWrite s d id) := by
  unfold Machine.reachWrite
  exact h.modMs

theorem acquireWrites {c : CoreId} {b : BankId} {ids : List Nat} {ds : List DieId} (h : Keeps s₀ s) :
    Keeps s₀ (acquireWrites s c b ids ds) := by
  unfold Machine.acquireWrites
  extract_lets _
  split
  · exact h
  · exact h.modAux

theorem engineStore {c : CoreId} {b : BankId} {o : Origin} {u : Nat} {cells : List Host.Cell} (h : Keeps s₀ s) :
    Keeps s₀ (engineStore s c b o u cells) := by
  unfold Machine.engineStore
  exact h.enterAs.enterAs

theorem dieStore {d : DieId} {o : Origin} {u : Nat} {cells : List Host.Cell} (h : Keeps s₀ s) :
    Keeps s₀ (dieStore s d o u cells) :=
  h.enterAs.enterAs

theorem drainOne {c : CoreId} {b : BankId} (h : Keeps s₀ s) : Keeps s₀ (drainOne s c b) := by
  unfold Machine.drainOne
  split
  · exact h
  · exact h.modAux.enterAs

theorem drainN {c : CoreId} {b : BankId} {n : Nat} (h : Keeps s₀ s) : Keeps s₀ (drainN s c b n) := by
  induction n generalizing s with
  | zero => exact h
  | succ n ih => exact ih h.drainOne

theorem drainAll {c : CoreId} {b : BankId} (h : Keeps s₀ s) : Keeps s₀ (drainAll s c b) := h.drainN

theorem bufferStore {c : CoreId} {b : BankId} {cells : List Host.Cell} (h : Keeps s₀ s) :
    Keeps s₀ (bufferStore s c b cells) := by
  unfold Machine.bufferStore
  split
  · exact h
  · split
    · next e => exact (h.takeId.fst e).modAux

theorem bufferUnits {c : CoreId} {b : BankId} {u : Nat} {cells : List Host.Cell} (h : Keeps s₀ s) :
    Keeps s₀ (bufferUnits s c b u cells) :=
  h.bufferStore.bufferStore

theorem publishAll (h : Keeps s₀ s) : Keeps s₀ (publishAll s) := by
  unfold Machine.publishAll
  split
  · exact h
  · exact h.frame.modMsAt (Mem.wf_writeCells _)

/-! ### Slots -/

theorem takeCadence {c : CoreId} (h : Keeps s₀ s) : Keeps s₀ (takeCadence s c) := by
  unfold Machine.takeCadence
  split
  · exact h.modCtl
  · exact h

/-! ### Walks (R210, R222) -/

theorem invalidateDie {x : CtxId} {lo hi : Nat} {d : DieId} (h : Keeps s₀ s) : Keeps s₀ (invalidateDie s x lo hi d) := by
  unfold Machine.invalidateDie
  extract_lets t
  have ht : Keeps s₀ t := h.modDie
  refine ht.foldAll fun _ _ ht2 => ?_
  split
  · exact ht2
  · exact ht2.modCore

theorem invalidateTouched {x : CtxId} {lo hi : Nat} (h : Keeps s₀ s) : Keeps s₀ (invalidateTouched s x lo hi) :=
  h.foldAll fun _ _ ht => ht.invalidateDie

/-! ### Physical addresses and homes (R214, R215) -/

theorem loseWrite {d : DieId} {id : Nat} (h : Keeps s₀ s) : Keeps s₀ (loseWrite s d id) := by
  unfold Machine.loseWrite
  exact h.modMs.reachWrite

/-! ### Frames (R216, R379) -/

theorem takeFrame {x : CtxId} {tier : Nat} {hsh : Bool} {home : Nat} {p : State × Nat} (h : Keeps s₀ s)
    (e : takeFrame s x tier hsh home = some p) : Keeps s₀ p.1 := by
  unfold Machine.takeFrame at e
  split at e
  · cases e
  · cases e
    dsimp only
    exact h.modMsAt (Mem.wf_clear _ _)

theorem freeFrame {x : CtxId} {f : Nat} (h : Keeps s₀ s) : Keeps s₀ (freeFrame s x f) := by
  unfold Machine.freeFrame
  split
  · exact h
  · extract_lets t
    have ht : Keeps s₀ t := h.modMs
    split
    · exact ht
    · split
      · exact ht
      · exact ht.modMs

theorem takeTable {x : CtxId} {p : State × Nat} (h : Keeps s₀ s) (e : takeTable s x = some p) : Keeps s₀ p.1 := by
  unfold Machine.takeTable at e
  split at e
  · next e1 =>
    cases e
    exact h.takeFrame e1
  · split at e
    · next e2 =>
      cases e
      exact h.takeFrame e2
    · exact h.takeFrame e

theorem logViolation {d : DieId} {srcDie srcCore ctx kind paddr : Nat} (h : Keeps s₀ s) :
    Keeps s₀ (logViolation s d srcDie srcCore ctx kind paddr) :=
  h.modDie

/-! ### Page moves that accesses begin (R216 to R218) -/

theorem writePte {at_ : Nat} {e : Pte} (h : Keeps s₀ s) : Keeps s₀ (writePte s at_ e) := by
  unfold Machine.writePte
  split
  · exact h
  · exact h.enterAll

theorem splitLarge {x : CtxId} {l : Leaf} (h : Keeps s₀ s) (e : splitLarge s x l = some t) : Keeps s₀ t := by
  unfold Machine.splitLarge at e
  split at e
  · cases e
  · next e1 =>
    cases e
    exact (h.takeTable e1).enterAll.writePte.invalidateTouched

theorem beginMove {by_ : MoveBy} {x : CtxId} {l : Leaf} {down : Bool} {tier : Nat} {hsh : Bool} {home f : Nat} {own : Bool}
    (h : Keeps s₀ s) : Keeps s₀ (beginMove s by_ x l down tier hsh home f own) := by
  unfold Machine.beginMove
  extract_lets +onlyGivenNames t
  have ht : Keeps s₀ t := by
    unfold t
    split
    · exact h.touch
    · exact h
  split
  · next e => exact (ht.takeId.fst e).writePte.invalidateTouched.modMs

theorem noFrame {tier : Nat} {x : CtxId} {need : List Nat} {va : Nat} (h : Keeps s₀ s) :
    StopKeeps s₀ (noFrame s tier x need va) := by
  unfold Machine.noFrame
  split <;> exact h

theorem staleEntry {d : DieId} {x : CtxId} {l : Leaf} (h : Keeps s₀ s) : StopKeeps s₀ (staleEntry s d x l) :=
  h.invalidateDie.takeId

theorem allocZero {d : DieId} {x : CtxId} {l : Leaf} {need : List Nat} {va : Nat} (h : Keeps s₀ s) :
    StopKeeps s₀ (allocZero s d x l need va) := by
  rw [Machine.allocZero]
  split
  · exact h.staleEntry
  · split
    · split
      · next e3 => exact h.splitLarge e3
      · exact h.noFrame
    · extract_lets _
      split
      · next e2 => exact (h.takeFrame e2).beginMove
      · exact h.noFrame

theorem flipUp {d : DieId} {x : CtxId} {l : Leaf} {need : List Nat} {va : Nat} (h : Keeps s₀ s) :
    StopKeeps s₀ (flipUp s d x l need va) := by
  rw [Machine.flipUp]
  split
  · exact h.staleEntry
  · exact h.noFrame
  · split
    · next e3 => exact (h.takeFrame e3).beginMove
    · exact h.noFrame

theorem takeZeroFrame {x : CtxId} {l : Leaf} (h : Keeps s₀ s) (e : takeZeroFrame s x l = some t) : Keeps s₀ t := by
  rw [Machine.takeZeroFrame] at e
  split at e
  · cases e
  · extract_lets _ at e
    split at e
    · cases e
    · next e1 =>
      cases e
      exact (h.takeFrame e1).writePte.invalidateTouched

/-! ### Event log (R238) -/

theorem deviceFrame {x : CtxId} {va : Nat} (h : Keeps s₀ s) : Keeps s₀ (deviceFrame s x va) := by
  unfold Machine.deviceFrame
  extract_lets
  split
  · split
    · exact h
    · extract_lets t
      have ht : Keeps s₀ t := (h.getD fun _ => h.splitLarge).ite h
      split
      · exact ht.ite (ht.getD fun _ => ht.takeZeroFrame)
      · exact ht
  · exact h

theorem logEvent {x : CtxId} {kind die core arg : Nat} {kinst : Word} {detail : Nat} (h : Keeps s₀ s) :
    Keeps s₀ (logEvent s x kind die core arg kinst detail) := by
  unfold Machine.logEvent
  extract_lets _ _ t _ t2
  have ht : Keeps s₀ t := h.modCtx
  have ht2 : Keeps s₀ t2 := ht.deviceFrame
  split
  · exact ht2
  · exact ht2.enterAll

theorem setCtxSt {x : CtxId} {t : CtxSt} (h : Keeps s₀ s) : Keeps s₀ (setCtxSt s x t) := by
  unfold Machine.setCtxSt
  extract_lets _
  split
  · exact h
  · exact h.modCtx.logEvent

/-! ### Entries at their home (R223) -/

theorem updateLeaf {x : CtxId} {l : Leaf} {e : Pte} (h : Keeps s₀ s) : Keeps s₀ (updateLeaf s x l e) :=
  h.writePte.invalidateTouched

/-! ### Moves in progress -/

theorem dropMove {id : Nat} (h : Keeps s₀ s) : Keeps s₀ (dropMove s id) := h.modMs

theorem freePteFrame {x : CtxId} {e : Pte} (h : Keeps s₀ s) : Keeps s₀ (freePteFrame s x e) := by
  unfold Machine.freePteFrame
  split
  · exact h.freeFrame
  · exact h.freeFrame
  · exact h.freeFrame
  · exact h

theorem putStatus {d : DieId} {x : CtxId} {array : Word} {idx code : Nat} (h : Keeps s₀ s) :
    Keeps s₀ (putStatus s d x array idx code) := by
  unfold Machine.putStatus
  split
  · exact h
  · extract_lets t
    have ht : Keeps s₀ t := h.deviceFrame
    split
    · exact ht.enterAs
    · exact ht

theorem migrDone {d : DieId} {op idx code : Nat} (h : Keeps s₀ s) : Keeps s₀ (migrDone s d op idx code) := by
  unfold Machine.migrDone
  split
  · exact h
  · exact h.putStatus.modDie

theorem wsDone {x : CtxId} {idx code : Nat} (h : Keeps s₀ s) : Keeps s₀ (wsDone s x idx code) := by
  unfold Machine.wsDone
  split
  · exact h
  · exact h.putStatus.modCaux

theorem evictionDone (h : Keeps s₀ s) : Keeps s₀ (evictionDone s) := h.modDie

theorem moveEnded {m : Move} {code : Nat} (h : Keeps s₀ s) : Keeps s₀ (moveEnded s m code) := by
  unfold Machine.moveEnded
  split
  · exact h.migrDone
  · exact h.wsDone
  · split
    · exact h
    · exact h.evictionDone
  all_goals exact h

theorem abandonMove {m : Move} {code : Nat} (h : Keeps s₀ s) : Keeps s₀ (abandonMove s m code) := by
  unfold Machine.abandonMove
  extract_lets _ t t2 t3
  have ht : Keeps s₀ t := by
    unfold t
    split
    · exact h.writePte
    · exact h
  have ht2 : Keeps s₀ t2 := ht.invalidateTouched
  have ht3 : Keeps s₀ t3 := by
    unfold t3
    split
    · exact ht2
    · exact ht2.freeFrame
  exact ht3.dropMove.moveEnded

/-! ### Poison and repair (R217, R219) -/

theorem beginRepair {x : CtxId} {l : Leaf} {e : Pte} (h : Keeps s₀ s) : Keeps s₀ (beginRepair s x l e) := by
  unfold Machine.beginRepair
  split
  · next e2 => exact (h.takeId.fst e2).updateLeaf.modMs

theorem pageError {x : CtxId} {va : Nat} (h : Keeps s₀ s) : Keeps s₀ (pageError s x va) := by
  unfold Machine.pageError
  split
  · extract_lets t _
    have ht : Keeps s₀ t := by
      unfold t
      split
      · split
        · exact h
        · exact h.abandonMove
      · exact h
    split
    · exact ht
    · split
      · split
        · exact ht.beginRepair
        · split
          · exact ht.updateLeaf
          · next e4 =>
              split
              · exact (ht.splitLarge e4).beginRepair
              all_goals exact ht.splitLarge e4
      · exact ht.updateLeaf
  all_goals exact h

theorem meetError {f : Nat} (h : Keeps s₀ s) : Keeps s₀ (meetError s f) := by
  unfold Machine.meetError
  exact (h.modMs.frame.foldAll (fun _ _ ht => ht.pageError)).takeId

/-! ### Checked accesses (R134 to R137) -/

theorem checkRange {va : Word} {len : Nat} (h : Keeps s₀ s) : ChecksKeep s₀ (checkRange s va len) := by
  unfold Machine.checkRange
  split
  · split
    · trivial
    · exact h.raise
  · exact h.raise

theorem checkAlign {va : Word} {align : Nat} (h : Keeps s₀ s) : ChecksKeep s₀ (checkAlign s va align) := by
  unfold Machine.checkAlign
  split
  · trivial
  · exact h.raise

theorem walkFault {α : Type} {P : α → Prop} {c : Code} {va detail : Nat} (h : Keeps s₀ s) :
    ResKeeps s₀ P (walkFault s c va detail) := by
  unfold Machine.walkFault
  split
  · exact h.frame.raise
  · exact h.raise

theorem checkXlate {q : Req} {need : List Nat} {va len : Nat} (h : Keeps s₀ s) :
    ChecksKeep s₀ (checkXlate s q need va len) := by
  unfold Machine.checkXlate
  split
  · exact h.raise
  · exact h.walkFault
  · trivial
  · split
    · trivial
    · split
      · extract_lets t
        have ht : Keeps s₀ t := h.touch
        split
        · exact ht.raise
        · split
          · exact ht.raise
          · exact ht.flipUp
      · trivial

theorem checkPerm {q : Req} {p : Part × Option Nat} (h : Keeps s₀ s) : ChecksKeep s₀ (checkPerm s q p) := by
  unfold Machine.checkPerm
  split
  · exact h.raise
  · extract_lets _
    split
    · split
      · trivial
      · exact h.raise
    · split
      · split
        · exact h.raise
        · split
          · exact h.raise
          · trivial
      · split
        · trivial
        · exact h.raise

theorem touchPart {q : Req} {p : Part} (h : Keeps s₀ s) : Keeps s₀ (touchPart s q p) := h.touchAll

theorem checkData {q : Req} {need : List Nat} {p : Part} (h : Keeps s₀ s) : ChecksKeep s₀ (checkData s q need p) := by
  unfold Machine.checkData
  extract_lets +onlyGivenNames _
  split
  · split
    · exact h.touchPart.raise
    · trivial
  · split
    · exact h.stall
    · split
      · exact h.stall
      · split
        · exact h.allocZero
        · split
          · exact h.raise
          · split
            · exact h.stall
            · split
              · exact h.meetError.stall
              · extract_lets +onlyGivenNames _
                split
                · exact h.raise
                · split
                  · exact h.raise
                  · split
                    · exact h.logViolation.raise
                    · trivial

theorem forPages {α β : Type} {f : α → Res β} {l : List α} (hf : ∀ a, ChecksKeep s₀ (f a)) :
    ChecksKeep s₀ (forPages f l) := by
  induction l with
  | nil => trivial
  | cons a l ih =>
    unfold Machine.forPages
    split
    · next e => exact (hf a).stop e
    · split
      · next e => exact ih.stop e
      · trivial

theorem accessParts {q : Req} {va len : Nat} {fmt : List Part → Res Unit} (h : Keeps s₀ s)
    (hfmt : ∀ (a : List Part), ChecksKeep s₀ (fmt a)) : ChecksKeep s₀ (accessParts s q va len fmt) := by
  unfold Machine.accessParts
  exact (Keeps.forPages (fun _ => h.checkXlate)).bind fun _ _ => (Keeps.forPages (fun _ => h.checkPerm)).bind fun _ _ =>
      (hfmt _).bind fun _ _ => (Keeps.forPages (fun _ => h.checkData)).bind fun _ _ => trivial

theorem noFmt {x : List Part} : ChecksKeep s₀ (noFmt x) := trivial

theorem countBytes {d : DieId} {x : CtxId} {n : Nat} (h : Keeps s₀ s) : Keeps s₀ (countBytes s d x n) := by
  unfold Machine.countBytes
  exact h.frame

theorem noteBytes {q : Req} {ps : List Part} (h : Keeps s₀ s) : Keeps s₀ (noteBytes s q ps) :=
  h.foldAll fun _ _ ht => ht.countBytes

theorem served {q : Req} {ps : List Part} (h : Keeps s₀ s) : Keeps s₀ (served s q ps) := by
  unfold Machine.served
  extract_lets t
  have ht : Keeps s₀ t := h.touchAll.noteBytes
  refine ht.foldAll fun _ _ ht2 => ?_
  split
  · exact ht2.logEvent
  · exact ht2

theorem access {q : Req} {va : Word} {len align : Nat} (h : Keeps s₀ s) :
    ResKeeps s₀ (fun p => Keeps s₀ p.1) (access s q va len align) :=
  h.checkRange.bind fun _ _ => h.checkAlign.bind fun _ _ => (h.accessParts (fun _ => Keeps.noFmt)).bind fun _ _ => h.served

/-! ### Scratchpad accesses (R98, R134) -/

theorem spadStore {c : CoreId} {off : Nat} {bs : List Byte} (h : Keeps s₀ s) : Keeps s₀ (spadStore s c off bs) :=
  h.modCoreAt fun ⟨hs, ha⟩ => ⟨Mem.wf_store _ _ hs, ha⟩

theorem noteRacing {c : CoreId} {by_ : Option Agent} {u : Nat} {as : List Nat} (h : Keeps s₀ s) :
    Keeps s₀ (noteRacing s c by_ u as) :=
  h.frame.modCore

theorem spadWrite {c : CoreId} {by_ : Option Agent} {u off : Nat} {bs : List Byte} (h : Keeps s₀ s) :
    Keeps s₀ (spadWrite s c by_ u off bs) :=
  h.noteRacing.spadStore

theorem settleSpad {c : CoreId} {done_ : Option Agent → Bool} (h : Keeps s₀ s) : Keeps s₀ (settleSpad s c done_) := by
  unfold Machine.settleSpad
  split
  · exact h.modCore
  · exact h

theorem spadCheck {c : CoreId} {b : BankId} {off : Word} {len align : Nat} {rd : Bool} (h : Keeps s₀ s) :
    ChecksKeep s₀ (spadCheck s c b off len align rd) := by
  unfold Machine.spadCheck
  refine h.raise.when <| h.raise.when <| h.checkAlign.bind fun _ _ => h.raise.when ?_
  split
  · split
    · exact h.raise
    · trivial
  · trivial

end Keeps

end Sys2Proof.Machine
end

section
/-! Tasks, kernels, park images and freezes keep the canonical form and the count of leaves. -/

namespace Sys2Proof.Machine

open Sys2Proof

variable {s₀ s t : State}

namespace Keeps

/-! ### Clock levels (R18, R269) -/

theorem budgetLog {kind new old : Nat} {value : Int} (h : Keeps s₀ s) : Keeps s₀ (budgetLog s kind new old value) := by
  unfold Machine.budgetLog
  exact h.frame

/-! ### Kernels and node instances -/

theorem modKern {k : Word} {f : Kernel → Kernel} (h : Keeps s₀ s) : Keeps s₀ (modKern s k f) := h.modDisp

theorem modInst {k : Word} {n : Nat} {f : NodeInst → NodeInst} (h : Keeps s₀ s) : Keeps s₀ (modInst s k n f) := h.modKern

theorem modStats {k : Word} {f : KernStats → KernStats} (h : Keeps s₀ s) : Keeps s₀ (modStats s k f) := h.modKern

/-! ### Interrupts, statuses, records for the host -/

theorem msix {v : Nat} (h : Keeps s₀ s) : Keeps s₀ (msix s v) := h.modDisp

theorem writeStatus {ring : Fin 16} {seq : BitVec 32} {statva : Word} {irq : Bool} {code : Nat} {result : Word}
    (h : Keeps s₀ s) : Keeps s₀ (writeStatus s ring seq statva irq code result) := by
  unfold Machine.writeStatus
  extract_lets t
  have ht : Keeps s₀ t := by
    unfold t
    split
    · exact h
    · exact h.enterAll
  split
  · exact ht.msix
  · exact ht

theorem deviceStore {x : CtxId} {va : Nat} {bs : List Byte} (h : Keeps s₀ s) : Keeps s₀ (deviceStore s x va bs) := by
  induction bs generalizing s va with
  | nil => exact h
  | cons b bs ih =>
    unfold Machine.deviceStore
    extract_lets t u
    refine ih (?_ : Keeps s₀ u)
    unfold u
    split
    · exact h.deviceFrame.enterAll
    · exact h.deviceFrame

/-! ### Starting a task (R83, R167, R277) -/

theorem passContext {c : CoreId} {x : CtxId} (h : Keeps s₀ s) : Keeps s₀ (passContext s c x) := by
  unfold Machine.passContext
  extract_lets
  split
  · exact h
  · refine h.modCtl.modCoreAt fun hk => ?_
    split
    · exact zeroActive_memOk hk
    · exact ⟨rfl, rfl⟩

theorem traceStart {c : CoreId} {t : Task} {cont : Bool} (h : Keeps s₀ s) : Keeps s₀ (traceStart s c t cont) := by
  unfold Machine.traceStart
  split
  · exact h
  · extract_lets +onlyGivenNames _
    split
    · split
      · exact h.deviceStore.modStats
      · exact h.modStats
    · split
      · split
        · exact h.modKern
        · exact h.modStats
      · exact h

theorem forwardTo {x : CtxId} {task : Word} {c : CoreId} (h : Keeps s₀ s) : Keeps s₀ (forwardTo s x task c) := by
  unfold Machine.forwardTo
  split
  · exact h.modCaux
  · exact h

theorem noteStart {c : CoreId} {t : Task} {cont : Bool} (h : Keeps s₀ s) : Keeps s₀ (noteStart s c t cont) := by
  unfold Machine.noteStart
  extract_lets +onlyGivenNames t2 t3 t4 t5
  have ht2 : Keeps s₀ t2 := h.traceStart.settleSpad
  have ht3 : Keeps s₀ t3 := ht2.forwardTo
  have ht4 : Keeps s₀ t4 := ht3.touch
  have ht5 : Keeps s₀ t5 := by
    unfold t5
    split
    · exact ht4.setCtxSt
    · exact ht4
  split
  · exact ht5
  · exact ht5.modInst.modStats

theorem zeroReserved {c : CoreId} (h : Keeps s₀ s) : Keeps s₀ (zeroReserved s c) :=
  h.modCoreAt fun ⟨hs, ha⟩ => ⟨Mem.wf_filter _ hs, Mem.wf_filter _ ha⟩

theorem passShadow {c : CoreId} {x : CtxId} (h : Keeps s₀ s) : Keeps s₀ (passShadow s c x) := by
  unfold Machine.passShadow
  extract_lets _
  split
  · exact h
  · exact h.modCtl.zeroReserved

theorem passBank {c : CoreId} {b : BankId} {x : CtxId} (h : Keeps s₀ s) : Keeps s₀ (passBank s c b x) := by
  unfold Machine.passBank
  split
  · exact h.passContext
  · exact h.passShadow

theorem startTask {c : CoreId} {b : BankId} {q : QTask} (h : Keeps s₀ s) : Keeps s₀ (startTask s c b q) := by
  unfold Machine.startTask
  exact h.passBank.modBank.modAux.noteStart

theorem startCont {c : CoreId} {b : BankId} {x : CtxId} {k : Cont} (h : Keeps s₀ s) : Keeps s₀ (startCont s c b x k) := by
  unfold Machine.startCont
  exact h.passBank.modBank.modCaux.modAux.noteStart

/-! ### Freeing a bank (R84, R99, R174) -/

theorem freeBank {c : CoreId} {b : BankId} (h : Keeps s₀ s) : Keeps s₀ (freeBank s c b) := by
  unfold Machine.freeBank
  extract_lets t t2
  have ht : Keeps s₀ t := h.modBank
  have ht2 : Keeps s₀ t2 := ht.modAux
  split
  · exact ht2.modCore
  · exact ht2

theorem discardDieOps {task : Word} (h : Keeps s₀ s) : Keeps s₀ (discardDieOps s task) := by
  unfold Machine.discardDieOps
  exact h.modMs.frame

theorem dropForward {x : CtxId} {task : Word} (h : Keeps s₀ s) : Keeps s₀ (dropForward s x task) := h.modCaux

theorem dropFrozen {x : CtxId} {task : Word} (h : Keeps s₀ s) : Keeps s₀ (dropFrozen s x task) := h.modCaux

/-! ### Park images (R239 to R241) -/

theorem settleParked {x : CtxId} (h : Keeps s₀ s) : Keeps s₀ (settleParked s x) := by
  unfold Machine.settleParked
  split
  · exact h.setCtxSt
  · exact h

/-- An image takes its memories from its core: whole, or the part of one side (R239). -/
theorem parkBank {c : CoreId} {b : BankId} (h : Keeps s₀ s) : Keeps s₀ (parkBank s c b) := by
  unfold Machine.parkBank
  extract_lets gang core k _ acc spad _ t _
  split
  · exact h
  · exact h
  · extract_lets _ _ img _ t3 t4
    have hacc : memOk s₀ → Mem.wf acc = true := by
      intro h0
      obtain ⟨-, ha⟩ := h.core c h0
      unfold acc
      split
      · exact tilePart_wf _ _ ha
      · split
        · exact tilePart_wf _ _ ha
        · exact ha
    have hspad : memOk s₀ → Mem.wf spad = true := by
      intro h0
      obtain ⟨hs, -⟩ := h.core c h0
      unfold spad
      split
      · exact spadPart_wf _ hs
      · split
        · exact spadPart_wf _ hs
        · exact hs
    have ht3 : Keeps s₀ t3 := h.drainAll.logEvent.frame.enterAs
    have himg : ImagesKeep s₀ [img] := fun i hi h0 => by
      cases List.mem_singleton.1 hi
      exact ⟨hspad h0, hacc h0⟩
    have ht4 : Keeps s₀ t4 := ht3.modCauxAt fun hk => hk.append himg
    exact (ht4.modStats.modInst.ite ht4.modStats).freeBank.settleParked

/-! ### Opening, closing and retiring node instances (R247, R266, R268, R275, R276) -/

theorem takeHandle (h : Keeps s₀ s) : Keeps s₀ (takeHandle s).1 := by
  unfold Machine.takeHandle
  dsimp only
  exact h.modDisp

theorem takeOrder (h : Keeps s₀ s) : Keeps s₀ (takeOrder s).1 := by
  unfold Machine.takeOrder
  dsimp only
  exact h.modDisp

theorem addMembers {k : Kernel} {n : Nat} {node : Node} {ri : Nat} {row : Row} {g m : Nat} (h : Keeps s₀ s) :
    Keeps s₀ (addMembers s k n node ri row g m) := by
  induction m generalizing s with
  | zero => exact h
  | succ m ih => exact ih h.takeHandle.takeOrder.modInst

theorem openNode {kinst : Word} {n : Nat} (h : Keeps s₀ s) : Keeps s₀ (openNode s kinst n) := by
  unfold Machine.openNode
  split
  · exact h
  · split
    · exact h
    · split
      extract_lets t
      have ht : Keeps s₀ t := by
        unfold t
        split
        · exact h
        · exact h.modStats.logEvent
      split
      · exact ht
      · exact ht.modInst.addMembers

theorem keepStatus {k : Kernel} {status : Code} {fired : Bool} (h : Keeps s₀ s) :
    Keeps s₀ (keepStatus s k status fired) := by
  unfold Machine.keepStatus
  exact h.modCaux.modDisp

theorem launchStatus {k : Kernel} {code : Nat} (h : Keeps s₀ s) : Keeps s₀ (launchStatus s k code) := by
  unfold Machine.launchStatus
  split
  · exact h.writeStatus
  · exact h

theorem writeCompletion {k : Kernel} {status : Code} (h : Keeps s₀ s) : Keeps s₀ (writeCompletion s k status) := by
  unfold Machine.writeCompletion
  extract_lets t
  have ht : Keeps s₀ t := h.deviceStore
  split
  · exact ht
  · exact ht.msix

theorem settleCtx {x : CtxId} (h : Keeps s₀ s) : Keeps s₀ (settleCtx s x) := by
  unfold Machine.settleCtx
  split
  · exact h.setCtxSt
  · exact h

theorem retireKernel {kinst : Word} {status : Code} (h : Keeps s₀ s) : Keeps s₀ (retireKernel s kinst status) := by
  unfold Machine.retireKernel
  split
  · exact h
  · exact h.writeCompletion.modCtx.keepStatus.settleCtx

theorem retireHeld {k : Kernel} {status : Code} (h : Keeps s₀ s) : Keeps s₀ (retireHeld s k status) := by
  unfold Machine.retireHeld
  exact h.writeCompletion.keepStatus.launchStatus

theorem endKernel {kinst : Word} {status : Code} (h : Keeps s₀ s) : Keeps s₀ (endKernel s kinst status) := by
  unfold Machine.endKernel
  split
  · exact h
  · split
    · exact h
    · split
      · exact h.modKern
      · exact h.retireKernel

theorem settleNodes {kinst : Word} {fuel : Nat} (h : Keeps s₀ s) : Keeps s₀ (settleNodes s kinst fuel) := by
  induction fuel generalizing s with
  | zero => exact h
  | succ fuel ih =>
    unfold Machine.settleNodes
    split
    · exact h
    · split
      · exact h.endKernel.ite h
      · split
        · exact h
        · exact (ih h.modInst).ite (ih h.openNode)

theorem closeIfDone {kinst : Word} {n : Nat} (h : Keeps s₀ s) : Keeps s₀ (closeIfDone s kinst n) := by
  unfold Machine.closeIfDone
  split
  · exact h
  · split
    · exact h.modInst.modStats.settleNodes
    · exact h

theorem nodesDone (h : Keeps s₀ s) : OutKeeps s₀ (nodesDone s) := by
  unfold Machine.nodesDone
  split
  · exact h.closeIfDone
  · trivial

theorem kernelsDone (h : Keeps s₀ s) : OutKeeps s₀ (kernelsDone s) := by
  unfold Machine.kernelsDone
  split
  · exact h.retireKernel
  · trivial

theorem freeGbars {x : CtxId} {kinst : Word} {n : Nat} (h : Keeps s₀ s) : Keeps s₀ (freeGbars s x kinst n) := h.modCaux

theorem dropQueued {kinst : Word} {n : Nat} (h : Keeps s₀ s) : Keeps s₀ (dropQueued s kinst n) := by
  unfold Machine.dropQueued
  extract_lets t
  have ht : Keeps s₀ t := h.modDisp
  refine ht.foldAll fun _ _ ht2 => ?_
  split
  · exact ht2
  · exact ht2.modCore

theorem cancelBank {c : CoreId} {b : BankId} (h : Keeps s₀ s) : Keeps s₀ (cancelBank s c b) := by
  unfold Machine.cancelBank
  split
  · exact h
  · exact h.drainAll.discardDieOps.dropFrozen.modBank.freeBank

theorem dropDeliveries {mine : Task → Bool} (h : Keeps s₀ s) : Keeps s₀ (dropDeliveries s mine) := h.modMs

theorem cancelNode {kinst : Word} {n : Nat} {shed : Bool} (h : Keeps s₀ s) : Keeps s₀ (cancelNode s kinst n shed) := by
  unfold Machine.cancelNode
  split
  · exact h
  · extract_lets banks imgs conts ended t t2 t3 t4 t5 t6 t7 t8 succ t9
    have ht3 : Keeps s₀ t3 := by
      refine (h.dropQueued.foldAll fun _ _ hu => hu.cancelBank).foldAll fun _ _ hu => ?_
      split
      · exact hu.discardDieOps.dropFrozen
      · exact hu
    have ht5 : Keeps s₀ t5 := ht3.dropDeliveries.modCauxAt ImagesKeep.filter
    exact (ht5.freeGbars.modInst.modStats.foldAll fun _ _ hu => hu.modInst).settleNodes

/-! ### Freezing (R85, R247, R274, R373) -/

theorem freezeNode {kinst : Word} {n : Nat} (h : Keeps s₀ s) : Keeps s₀ (freezeNode s kinst n) := by
  unfold Machine.freezeNode
  extract_lets _ t
  have ht : Keeps s₀ t := by
    refine h.foldAll fun _ _ ht => ?_
    split
    · exact ht.modCore
    · exact ht
  exact ht.modInst

theorem enterEngine {at_ : Option CoreId} {q : QTask} (h : Keeps s₀ s) : Keeps s₀ (enterEngine s at_ q) := by
  unfold Machine.enterEngine
  split
  · exact h.modCore
  · exact h.modDisp

theorem noteHandler {t : Task} {w : Word} (h : Keeps s₀ s) : Keeps s₀ (noteHandler s t w) :=
  (h.foldAll fun _ _ hu => hu.modAux).modCauxAt fun hk => hk.map fun _ hi => hi

theorem spawnHandler {t : Task} {f : FaultInfo} {node : Node} (h : Keeps s₀ s) : Keeps s₀ (spawnHandler s t f node) := by
  unfold Machine.spawnHandler
  split
  · next e =>
      split
      · next e2 => exact ((h.takeHandle.fst e).takeOrder.fst e2).noteHandler.enterEngine

theorem noteFrozen {x : CtxId} {task : Word} {f : FaultInfo} (h : Keeps s₀ s) : Keeps s₀ (noteFrozen s x task f) := by
  unfold Machine.noteFrozen
  exact h.modCaux

theorem keepFrozen {x : CtxId} (h : Keeps s₀ s) : Keeps s₀ (keepFrozen s x) := h.modCaux

theorem freezeStopped {c : CoreId} {b : BankId} {z : Freeze} {t : Task} (h : Keeps s₀ s) :
    Keeps s₀ (freezeStopped s c b z t) := by
  unfold Machine.freezeStopped
  extract_lets +onlyGivenNames _ _ t3 t4
  have ht3 : Keeps s₀ t3 := h.modAux
  have ht4 : Keeps s₀ t4 := ht3.modStats
  extract_lets t5
  have ht5 : Keeps s₀ t5 := ht4.noteFrozen
  split
  · exact ht5.parkBank
  · exact ht5

theorem stopBank {f : FaultInfo} {c : CoreId} {b : BankId} {t : Task} (h : Keeps s₀ s) : Keeps s₀ (stopBank s f c b t) := by
  unfold Machine.stopBank
  extract_lets +onlyGivenNames t2 _
  have ht2 : Keeps s₀ t2 := h.modBank
  split
  · exact ht2
  · extract_lets +onlyGivenNames _
    extract_lets _
    split
    · exact ht2.modAux
    · exact ht2.freezeStopped

theorem stopContext {x : CtxId} {f : FaultInfo} (h : Keeps s₀ s) : Keeps s₀ (stopContext s x f) :=
  h.foldAll fun _ _ ht => ht.stopBank

theorem faultContext {x : CtxId} {f : FaultInfo} (h : Keeps s₀ s) : Keeps s₀ (faultContext s x f) := by
  unfold Machine.faultContext
  split
  · exact h.setCtxSt.keepFrozen.stopContext.msix.foldAll fun _ _ ht => ht.retireHeld
  · exact h.setCtxSt.keepFrozen.stopContext.msix.foldAll fun _ _ ht => ht.retireHeld
  · exact h

theorem trapContext {x : CtxId} {code : Code} {detail aux : Word} (h : Keeps s₀ s) :
    Keeps s₀ (trapContext s x code detail aux) := by
  unfold Machine.trapContext
  split
  case h_6 => exact h
  all_goals
    extract_lets f t u v w x' y ks
    have ht : Keeps s₀ t := h.ite h.keepFrozen
    have hx : Keeps s₀ x' := ht.modCaux.setCtxSt.stopContext.msix
    exact (hx.logEvent.ite hx).foldAll fun _ _ hz => hz.retireHeld.ite hz.endKernel

theorem freezeBank {c : CoreId} {b : BankId} (h : Keeps s₀ s) : Keeps s₀ (freezeBank s c b) := by
  unfold Machine.freezeBank
  split
  · split
    · exact h.freezeStopped
    · extract_lets +onlyGivenNames _ _ _ t2 t3 t4 t5
      have ht2 : Keeps s₀ t2 := h.modAux
      have ht3 : Keeps s₀ t3 := ht2.modStats
      have ht4 : Keeps s₀ t4 := ht3.noteFrozen
      have ht5 : Keeps s₀ t5 := ht4.freezeNode
      extract_lets t6
      have ht6 : Keeps s₀ t6 := by
        unfold t6
        split
        · exact ht5
        · split
          · exact ht5.faultContext
          · split
            · exact ht5.faultContext
            · exact ht5.spawnHandler
          · exact ht5.faultContext
      split
      · exact ht6.parkBank
      · exact ht6
  · exact h

theorem freezeIfStill {c : CoreId} {b : BankId} (h : Keeps s₀ s) : Keeps s₀ (freezeIfStill s c b) := by
  unfold Machine.freezeIfStill
  split
  · split
    · exact h.freezeBank
    · exact h
  · exact h

theorem thawNode {kinst : Word} {n : Nat} (h : Keeps s₀ s) : Keeps s₀ (thawNode s kinst n) := by
  unfold Machine.thawNode
  extract_lets _ _
  split
  · exact h
  · split
    · exact h.modInst
    · exact h

end Keeps

end Sys2Proof.Machine
end

section
/-! The evaluation of a word and the scalar words keep the canonical form and the count of leaves. -/

namespace Sys2Proof.Machine

open Sys2Proof

variable {s₀ s t : State}

namespace Keeps

/-! ### Sources (R39 to R42, R87, R88, R90) -/

theorem takeSources {g : Agent} {srcs : List Operand} {pushes : List (Fin 16 × Nat)} (h : Keeps s₀ s) :
    ChecksKeep s₀ (takeSources s g srcs pushes) := by
  unfold Machine.takeSources
  extract_lets _ _
  split
  · exact h.stall
  · split
    · exact h.raise
    · split
      · exact h.raise
      · trivial

/-! ### Destinations (R37, R87, R88, R90, R94) -/

theorem writeScalar {g : Agent} {o : Operand} {v : Word} (h : Keeps s₀ s) : Keeps s₀ (writeScalar s g o v) := by
  unfold Machine.writeScalar
  exact h.modBankOf

theorem writeVec {g : Agent} {o : Operand} {sel v : Vec} (h : Keeps s₀ s) : Keeps s₀ (writeVec s g o sel v) := by
  unfold Machine.writeVec
  exact h.modBankOf

theorem writeMask {g : Agent} {o : Operand} {sel v : Word} (h : Keeps s₀ s) : Keeps s₀ (writeMask s g o sel v) :=
  h.modBankOf

/-! ### Descriptor registers (R145) -/

theorem checkDesc {g : Agent} {o : Operand} {k : Nat} (h : Keeps s₀ s) :
    ResKeeps s₀ (fun _ => True) (checkDesc s g o k) := by
  unfold Machine.checkDesc
  split
  · exact h.raise
  · trivial

/-! ### Scopes and die masks (R43, R186, R187) -/

theorem checkDieMask {v : Word} (h : Keeps s₀ s) : ChecksKeep s₀ (checkDieMask s v) := by
  unfold Machine.checkDieMask
  split
  · trivial
  · exact h.raise

theorem checkScope {g : Agent} {w : WordF} (h : Keeps s₀ s) : ChecksKeep s₀ (checkScope s g w) := by
  unfold Machine.checkScope
  split
  · exact h.checkDesc.bind fun _ _ => h.checkDieMask
  · trivial

/-! ### Named barriers (R293, R294) -/

theorem checkNb {g : Agent} {n : Fin 32} (h : Keeps s₀ s) : ChecksKeep s₀ (checkNb s g n) := by
  unfold Machine.checkNb
  split
  · trivial
  · exact h.raise

/-! ### The evaluation of a word (R33 to R38) -/

theorem done (h : Keeps s₀ s) : ResKeeps s₀ (DoneKeeps s₀) (done s) := h

theorem donePop {srcs : List Operand} (h : Keeps s₀ s) : ResKeeps s₀ (DoneKeeps s₀) (donePop s srcs) := h

/-! ### Taking a fault -/

theorem giveBack {g : Agent} {y : Freeze} (h : Keeps s₀ s) : Keeps s₀ (giveBack s g y) := by
  unfold Machine.giveBack
  split
  · exact h
  · exact h.modStOf

theorem takeFault {g : Agent} {f : FaultInfo} {src : FaultSrc} {all : Bool} (h : Keeps s₀ s) :
    Keeps s₀ (takeFault s g f src all) := by
  unfold Machine.takeFault
  extract_lets f' z old t u
  have ht : Keeps s₀ t := h.modBankOf.ite h.modStOf
  have hu : Keeps s₀ u := by
    unfold u
    clear_value old
    split
    · exact ht.modAux
    · exact ht.modAux.giveBack.ite ht.modAux
  exact hu.freezeIfStill

theorem wordFault {g : Agent} {f : FaultInfo} {bword all : Bool} (h : Keeps s₀ s) : Keeps s₀ (wordFault s g f bword all) :=
  h.takeFault

theorem takeDeferred {g : Agent} {d : Deferred} {rest : List Deferred} (h : Keeps s₀ s) :
    Keeps s₀ (takeDeferred s g d rest) := by
  unfold Machine.takeDeferred
  extract_lets +onlyGivenNames _ t
  have ht : Keeps s₀ t := by
    unfold t
    split
    · exact h
    · exact h.modStOf
  exact ht.takeFault

theorem deferFault {g : Agent} {f : FaultInfo} {src : FaultSrc} (h : Keeps s₀ s) : Keeps s₀ (deferFault s g f src) :=
  h.modStOf

/-! ### Stalling and committing -/

theorem stallAt {g : Agent} {why : StallStep} {passed : Nat} (h : Keeps s₀ s) : Keeps s₀ (stallAt s g why passed) :=
  h.modStOf

theorem commitWord {g : Agent} {toks : Tokens} {pops : List (Fin 16)} {next : Option VAddr} {words : Nat} (h : Keeps s₀ s) :
    Keeps s₀ (commitWord s g toks pops next words) := by
  unfold Machine.commitWord
  exact h.modBankOf

theorem commitB {g : Agent} (h : Keeps s₀ s) : Keeps s₀ (commitB s g) := h.modBankOf

theorem pendWord {g : Agent} {kind : PendKind} {sent : Nat} {w : WordF} (h : Keeps s₀ s) :
    Keeps s₀ (pendWord s g kind sent w) :=
  h.modStOf

/-! ### Steps 3 to 6 -/

theorem beginWait {g : Agent} {v : BitVec 6} (h : Keeps s₀ s) : Keeps s₀ (beginWait s g v) := by
  unfold Machine.beginWait
  exact h.modStOf

theorem checkWait {g : Agent} {v : BitVec 6} (h : Keeps s₀ s) : ChecksKeep s₀ (checkWait s g v) := by
  unfold Machine.checkWait
  extract_lets _
  split
  · exact h.checkNb
  · split
    · exact h.raise
    · trivial

theorem passSlipWait {g : Agent} {v : BitVec 6} {bword : Bool} (h : Keeps s₀ s) :
    EndKeeps s₀ (passSlipWait s g v bword) := by
  unfold Machine.passSlipWait
  extract_lets +onlyGivenNames _
  split
  · exact h.stallAt
  · split
    · exact h
    · split
      · next e => exact (h.checkWait.fault e).wordFault
      · next e => exact (h.checkWait.stall e).stallAt
      · extract_lets t
        have ht : Keeps s₀ t := h.beginWait
        split
        · split
          · exact ht
          · exact ht.stallAt
        · exact ht

theorem finishWord {g : Agent} {w : WordF} {toks : Tokens} {words : Nat} {r : Res Done}
    (hr : ResKeeps s₀ (DoneKeeps s₀) r) : Keeps s₀ (finishWord g w toks words r) := by
  match r, hr with
  | .ok (.commit t _ _), (h : Keeps s₀ t) => exact h.ite h.commitWord
  | .ok (.pend t _ _), (h : Keeps s₀ t) => exact h.pendWord
  | .error (.stall t _), (h : Keeps s₀ t) => exact h.stallAt
  | .error (.fault t _), (h : Keeps s₀ t) => exact h.wordFault

theorem evalWord {pbl pbr pal par : Bool} {wait : BitVec 6} {pidx : Fin 8} {pneg perLane : Bool} {words : Nat} {w : WordF}
    {form n : Nat} {right : Bool} {body : State → Agent → Res Done}
    (hbody : ∀ (a : State) (b : Agent), Keeps s₀ a → ResKeeps s₀ (DoneKeeps s₀) (body a b)) (h2 : Keeps s₀ s) :
    OutKeeps s₀ (evalWord pbl pbr pal par wait pidx pneg perLane words w form n right body s) := by
  unfold Machine.evalWord
  extract_lets +onlyGivenNames _
  split
  · trivial
  · split
    · exact h2.takeDeferred
    · split
      · next e2 => exact h2.passSlipWait.error e2
      · next e2 =>
          extract_lets _ _
          split
          · exact (h2.passSlipWait.ok e2).stallAt
          · split
            · exact (h2.passSlipWait.ok e2).wordFault
            · split
              · exact (h2.passSlipWait.ok e2).commitWord
              · split
                · exact (h2.passSlipWait.ok e2).wordFault
                · split
                  · exact (h2.passSlipWait.ok e2).commitWord
                  · exact Keeps.finishWord (hbody _ _ (h2.passSlipWait.ok e2))

theorem runWord {w : WordF} {perLane : Bool} {body : State → Agent → Res Done}
    (hbody : ∀ (a : State) (b : Agent), Keeps s₀ a → ResKeeps s₀ (DoneKeeps s₀) (body a b)) (h2 : Keeps s₀ s) :
    OutKeeps s₀ (runWord w perLane body s) :=
  h2.evalWord fun _ _ ht => hbody _ _ ht

theorem runTokens {w : WordF} {form : Nat} (h : Keeps s₀ s) : OutKeeps s₀ (runTokens w form s) :=
  h.evalWord fun _ _ ht => ht.done

theorem runRec {r : RecF} {body : State → Agent → Res Done}
    (hbody : ∀ (a : State) (b : Agent), Keeps s₀ a → ResKeeps s₀ (DoneKeeps s₀) (body a b)) (h2 : Keeps s₀ s) :
    OutKeeps s₀ (runRec r body s) :=
  h2.evalWord fun _ _ ht => hbody _ _ ht

/-! ### B words (R38) -/

theorem pendAll {g : Agent} {kind : PendKind} {n : Nat} {w : WordF} (h : Keeps s₀ s) : Keeps s₀ (pendAll s g kind n w) := by
  unfold Machine.pendAll
  exact h.modBankOf

theorem stallAll {g : Agent} {why : StallStep} (h : Keeps s₀ s) : Keeps s₀ (stallAll s g why) := by
  unfold Machine.stallAll
  exact h.modBankOf

theorem finishB {g : Agent} {w : WordF} {r : Res Done} (hr : ResKeeps s₀ (DoneKeeps s₀) r) : Keeps s₀ (finishB g w r) := by
  match r, hr with
  | .ok (.commit t _ _), (h : Keeps s₀ t) => exact h.ite h.commitB
  | .ok (.pend t _ _), (h : Keeps s₀ t) => exact h.pendAll
  | .error (.stall t _), (h : Keeps s₀ t) => exact h.stallAll
  | .error (.fault t _), (h : Keeps s₀ t) => exact h.wordFault

theorem runB {w : WordF} {body : State → Agent → Res Done}
    (hbody : ∀ (a : State) (b : Agent), Keeps s₀ a → ResKeeps s₀ (DoneKeeps s₀) (body a b)) (h2 : Keeps s₀ s) :
    OutKeeps s₀ (runB w body s) := by
  unfold Machine.runB
  extract_lets _
  split
  · trivial
  · split
    · exact h2.takeDeferred
    · split
      · next e2 => exact h2.passSlipWait.error e2
      · next e2 =>
          extract_lets t2 _ _
          have ht2 : Keeps s₀ t2 := (h2.passSlipWait.ok e2).modStOf
          split
          · split
            · exact ht2.commitB
            · exact Keeps.finishB (hbody _ _ ht2)
          · exact ht2.stallAt

/-! ### Scalar forms (R88, R102) -/

theorem scalarForm {w : WordF} {srcs : List Operand} {f : State → Agent → Word} (h : Keeps s₀ s) :
    OutKeeps s₀ (scalarForm w srcs f s) :=
  h.runWord fun _ _ ht => ht.takeSources.bind fun _ _ => ht.writeScalar.donePop

/-! ### Fetching and decoding the word at a stream's PC (R28, R29, R31, R32, R48) -/

theorem fetchParts {g : Agent} {va : Word} {n : Nat} (h : Keeps s₀ s) : ChecksKeep s₀ (fetchParts s g va n) :=
  h.checkRange.bind fun _ _ => h.accessParts fun _ => Keeps.noFmt

theorem fetchBytes {g : Agent} {va : Word} {n : Nat} (h : Keeps s₀ s) : ChecksKeep s₀ (fetchBytes s g va n) :=
  h.fetchParts.bind fun _ _ => trivial

theorem fetchServed {g : Agent} {va : Word} {n : Nat} (h : Keeps s₀ s) : Keeps s₀ (fetchServed s g va n) := by
  unfold Machine.fetchServed
  split
  · exact h.served
  · exact h

theorem illop {raw : Nat} (h : Keeps s₀ s) : StopKeeps s₀ (illop s raw) := h

theorem fetchInstr {g : Agent} (h : Keeps s₀ s) : FetchKeeps s₀ (fetchInstr s g) := by
  unfold Machine.fetchInstr
  extract_lets _
  split
  · next e => exact h.fetchBytes.stop e
  · extract_lets _
    split
    · trivial
    · exact h
    · split
      · split
        · next e4 => exact h.fetchBytes.stop e4
        · split
          · trivial
          · exact h
      · split
        · trivial
        · exact h

theorem textServed {g : Agent} (h : Keeps s₀ s) : Keeps s₀ (textServed s g) := by
  unfold Machine.textServed
  extract_lets +onlyGivenNames _
  split
  · exact h
  · extract_lets t
    have ht : Keeps s₀ t := h.fetchServed
    split
    · exact ht.fetchServed
    · exact ht

theorem skipWord {g : Agent} (h : Keeps s₀ s) : Keeps s₀ (skipWord s g) := h.modBankOf

theorem fetchStop {g : Agent} {x : Stop} (hx : StopKeeps s₀ x) : Keeps s₀ (fetchStop g x) := by
  match x, hx with
  | .stall t _, (h : Keeps s₀ t) => exact h.stallAt
  | .fault t _, (h : Keeps s₀ t) => exact h.wordFault

/-! ### The status flags of FPSTAT and MSTAT (R74, R75) -/

theorem setFp {g : Agent} {f : Flagset} (h : Keeps s₀ s) : Keeps s₀ (setFp s g f) := h.modBankOf

theorem setMstat {c : CoreId} {b : BankId} {f : Flagset} (h : Keeps s₀ s) : Keeps s₀ (setMstat s c b f) := h.modBank

/-! ### The scalar integer forms (R103) -/

theorem binForm {w : WordF} {f : Word → Word → Word} (h : Keeps s₀ s) : OutKeeps s₀ (binForm w f s) := by
  unfold Machine.binForm
  exact h.scalarForm

theorem unForm {w : WordF} {f : Word → Word} (h : Keeps s₀ s) : OutKeeps s₀ (unForm w f s) := by
  unfold Machine.unForm
  exact h.scalarForm

theorem triForm {w : WordF} {f : Word → Word → Word → Word} (h : Keeps s₀ s) : OutKeeps s₀ (triForm w f s) := by
  unfold Machine.triForm
  exact h.scalarForm

theorem execNop {w : WordF} (h : Keeps s₀ s) : OutKeeps s₀ (execNop w s) := h.runWord fun _ _ ht => ht.done

theorem execMov {w : WordF} (h : Keeps s₀ s) : OutKeeps s₀ (execMov w s) := h.unForm

theorem execAdd {w : WordF} (h : Keeps s₀ s) : OutKeeps s₀ (execAdd w s) := h.binForm

theorem execSub {w : WordF} (h : Keeps s₀ s) : OutKeeps s₀ (execSub w s) := h.binForm

theorem execMul {w : WordF} (h : Keeps s₀ s) : OutKeeps s₀ (execMul w s) := h.binForm

theorem execMulh {w : WordF} (h : Keeps s₀ s) : OutKeeps s₀ (execMulh w s) := h.binForm

theorem execDiv {w : WordF} (h : Keeps s₀ s) : OutKeeps s₀ (execDiv w s) := h.binForm

theorem execRem {w : WordF} (h : Keeps s₀ s) : OutKeeps s₀ (execRem w s) := h.binForm

theorem execAnd {w : WordF} (h : Keeps s₀ s) : OutKeeps s₀ (execAnd w s) := h.binForm

theorem execOr {w : WordF} (h : Keeps s₀ s) : OutKeeps s₀ (execOr w s) := h.binForm

theorem execXor {w : WordF} (h : Keeps s₀ s) : OutKeeps s₀ (execXor w s) := h.binForm

theorem execShl {w : WordF} (h : Keeps s₀ s) : OutKeeps s₀ (execShl w s) := h.binForm

theorem execShr {w : WordF} (h : Keeps s₀ s) : OutKeeps s₀ (execShr w s) := h.binForm

theorem execSra {w : WordF} (h : Keeps s₀ s) : OutKeeps s₀ (execSra w s) := h.binForm

theorem execMin {w : WordF} (h : Keeps s₀ s) : OutKeeps s₀ (execMin w s) := h.binForm

theorem execMax {w : WordF} (h : Keeps s₀ s) : OutKeeps s₀ (execMax w s) := h.binForm

theorem execSet {w : WordF} (h : Keeps s₀ s) : OutKeeps s₀ (execSet w s) := h.binForm

theorem execSel {w : WordF} (h : Keeps s₀ s) : OutKeeps s₀ (execSel w s) := h.triForm

theorem execMadd {w : WordF} (h : Keeps s₀ s) : OutKeeps s₀ (execMadd w s) := h.triForm

theorem execScale {w : WordF} (h : Keeps s₀ s) : OutKeeps s₀ (execScale w s) := h.binForm

theorem execClz {w : WordF} (h : Keeps s₀ s) : OutKeeps s₀ (execClz w s) := h.unForm

theorem execPopc {w : WordF} (h : Keeps s₀ s) : OutKeeps s₀ (execPopc w s) := h.unForm

theorem execBfx {w : WordF} (h : Keeps s₀ s) : OutKeeps s₀ (execBfx w s) := h.binForm

theorem execBfi {w : WordF} (h : Keeps s₀ s) : OutKeeps s₀ (execBfi w s) := h.triForm

/-! ### Named barriers -/

theorem modNb {c : CoreId} {n : Fin 32} {f : NBar → NBar} (h : Keeps s₀ s) : Keeps s₀ (modNb s c n f) := h.modCore

theorem applyRed {c : CoreId} {x : Contribution} (h : Keeps s₀ s) : Keeps s₀ (applyRed s c x) := by
  unfold Machine.applyRed
  exact h.spadWrite

theorem applyContribution {c : CoreId} {n : Fin 32} {x : Contribution} (h : Keeps s₀ s) :
    Keeps s₀ (applyContribution s c n x) := by
  unfold Machine.applyContribution
  extract_lets t
  have ht : Keeps s₀ t := h.applyRed.modNb
  split
  · exact ht
  · exact ht.settleSpad

theorem settleHeld {c : CoreId} {n : Fin 32} (h : Keeps s₀ s) : Keeps s₀ (settleHeld s c n) := by
  unfold Machine.settleHeld
  extract_lets _
  split
  · exact h.modNb.foldAll fun _ _ ht => ht.applyContribution
  · exact h

theorem markArrival {g : Agent} {n : Fin 32} (h : Keeps s₀ s) : Keeps s₀ (markArrival s g n) := by
  unfold Machine.markArrival
  exact h.modRegsOf

theorem openNb {c : CoreId} {n : Fin 32} {a : Nat} (h : Keeps s₀ s) : Keeps s₀ (openNb s c n a) := by
  unfold Machine.openNb
  exact h.modCore

theorem execBarinit {w : WordF} (h : Keeps s₀ s) : OutKeeps s₀ (execBarinit w s) := by
  unfold Machine.execBarinit
  extract_lets _ _
  exact h.runWord fun _ _ ht => ht.takeSources.bind fun _ _ => ht.checkNb.bind fun _ _ => ht.raise.when <| ht.raise.when <|
      ht.openNb.donePop

theorem execBararr {w : WordF} (h : Keeps s₀ s) : OutKeeps s₀ (execBararr w s) := by
  unfold Machine.execBararr
  extract_lets _ _
  refine h.runWord fun _ _ ht => ht.takeSources.bind fun _ _ => ht.checkNb.bind fun _ _ => ht.raise.when <| ht.stall.when ?_
  split
  · exact ht.raise
  · exact ht.drainAll.markArrival.modNb.settleHeld.donePop

theorem execBartry {w : WordF} (h : Keeps s₀ s) : OutKeeps s₀ (execBartry w s) := by
  unfold Machine.execBartry
  exact h.runWord fun _ _ ht => ht.takeSources.bind fun _ _ => ht.checkNb.bind fun _ _ => ht.writeScalar.done

/-! ### Group barriers -/

theorem gbIndex {v : Word} (h : Keeps s₀ s) : ChecksKeep s₀ (gbIndex s v) := by
  unfold Machine.gbIndex
  split
  · trivial
  · exact h.raise

theorem execGbararr {w : WordF} (h : Keeps s₀ s) : OutKeeps s₀ (execGbararr w s) := by
  unfold Machine.execGbararr
  extract_lets _
  refine h.runWord fun _ _ ht => ht.takeSources.bind fun _ _ => ht.gbIndex.bind fun _ _ => ?_
  split
  · exact ht.raise
  · split
    · next e2 => exact (ht.drainAll.takeId.fst e2).modMs.post

theorem execGbartry {w : WordF} (h : Keeps s₀ s) : OutKeeps s₀ (execGbartry w s) := by
  unfold Machine.execGbartry
  extract_lets _
  refine h.runWord fun _ _ ht => ht.takeSources.bind fun _ _ => ht.gbIndex.bind fun _ _ => ?_
  split
  · exact ht.raise
  · exact ht.writeScalar.donePop

/-! ### Timeline forms -/

theorem execWaittl {w : WordF} (h : Keeps s₀ s) : OutKeeps s₀ (execWaittl w s) := by
  unfold Machine.execWaittl
  extract_lets _
  exact h.runWord fun _ _ ht => ht.takeSources.bind fun _ _ => ht.stall.when <| ht.donePop

theorem execTlget {w : WordF} (h : Keeps s₀ s) : OutKeeps s₀ (execTlget w s) :=
  h.runWord fun _ _ ht => ht.takeSources.bind fun _ _ => ht.writeScalar.done

theorem execSetwt {w : WordF} (h : Keeps s₀ s) : OutKeeps s₀ (execSetwt w s) := by
  unfold Machine.execSetwt
  exact h.runWord fun _ _ ht => ht.takeSources.bind fun _ _ => ht.modRegsOf.donePop

/-! ### What the vector forms share (R111 to R116) -/

theorem runX {w : WordF} {perLane : Bool} {body : State → Agent → Res Done} {rounds : Bool}
    (hbody : ∀ (a : State) (b : Agent), Keeps s₀ a → ResKeeps s₀ (DoneKeeps s₀) (body a b)) (h2 : Keeps s₀ s) :
    OutKeeps s₀ (runX w perLane body s rounds) := by
  unfold Machine.runX
  refine h2.runWord fun _ _ ht => ?_
  split
  · exact ht.modAux.raise
  · split
    · exact ht.raise
    · exact hbody _ _ ht

theorem putElems {g : Agent} {w : WordF} {width : Nat} {rs : List (Nat × Flagset)} (h : Keeps s₀ s) :
    Keeps s₀ (putElems s g w width rs) := by
  unfold Machine.putElems
  exact h.setFp.writeVec

theorem putVec {g : Agent} {w : WordF} {width : Nat} {v : Vec} (h : Keeps s₀ s) : Keeps s₀ (putVec s g w width v) :=
  h.writeVec

theorem putMask {g : Agent} {w : WordF} {width : Nat} {v : Word} (h : Keeps s₀ s) : Keeps s₀ (putMask s g w width v) :=
  h.writeMask

theorem mapForm {w : WordF} {srcs : List Operand} {f : State → Agent → Nat → (Nat → Nat) → Nat × Flagset} {rounds : Bool}
    (h : Keeps s₀ s) : OutKeeps s₀ (mapForm w srcs f s rounds) :=
  h.runX fun _ _ ht => ht.takeSources.bind fun _ _ => ht.putElems.donePop

end Keeps

end Sys2Proof.Machine
end

section
/-! Deliveries between cores and the loads of L keep the canonical form and the count of leaves. -/

namespace Sys2Proof.Machine

open Sys2Proof

variable {s₀ s t : State}

namespace Keeps

/-! ### Requests -/

theorem countMisses {g : Agent} {n : Nat} (h : Keeps s₀ s) : Keeps s₀ (countMisses s g n) := by
  unfold Machine.countMisses
  split
  · exact h
  · exact h.modRegsOf

theorem checkedBy {q : Req} {va : Word} {len align : Nat} (h : Keeps s₀ s) : ChecksKeep s₀ (checkedBy s q va len align) :=
  h.checkRange.bind fun _ _ => h.checkAlign.bind fun _ _ => (h.accessParts (fun _ => Keeps.noFmt)).bind fun _ _ => trivial

theorem wordServed {g : Agent} {as : List Checked} (h : Keeps s₀ s) : Keeps s₀ (wordServed s g as) := by
  unfold Machine.wordServed
  exact h.served.countMisses

theorem wordAccess {g : Agent} {wr : Bool} {va : Word} {len align : Nat} (h : Keeps s₀ s) :
    ResKeeps s₀ (fun p => Keeps s₀ p.1) (wordAccess s g wr va len align) :=
  h.checkedBy.bind fun _ _ => h.wordServed

theorem companion {g : Agent} {wr : Bool} {va len : Nat} (h : Keeps s₀ s) : ChecksKeep s₀ (companion s g wr va len) :=
  h.checkedBy

theorem orStall {α : Type} {P : α → Prop} {r : Res α} (h : Keeps s₀ s) (hr : ResKeeps s₀ P r) :
    ResKeeps s₀ P (orStall s r) := by
  unfold Machine.orStall
  split
  · split
    · exact h
    · exact hr
  · exact hr

theorem wordLoad {g : Agent} {va : Word} {len align : Nat} (h : Keeps s₀ s) :
    ResKeeps s₀ (fun p => Keeps s₀ p.1) (wordLoad s g va len align) := by
  unfold Machine.wordLoad
  refine h.wordAccess.bind fun _ ht => ?_
  split
  exact ht

theorem wordStore {g : Agent} {va : Word} {bs : List Byte} {align : Nat} (h : Keeps s₀ s) :
    ResKeeps s₀ (Keeps s₀) (wordStore s g va bs align) := by
  unfold Machine.wordStore
  refine h.wordAccess.bind fun _ ht => ?_
  split
  exact ht.bufferStore

theorem atPos {α : Type} {P : α → Prop} {i : Nat} {r : Res α} (hr : ResKeeps s₀ P r) : ResKeeps s₀ P (atPos i r) := by
  unfold Machine.atPos
  split
  · exact hr
  · exact hr

theorem partsMany {q : Req} {len align i : Nat} {vas : List Word} (h : Keeps s₀ s) :
    ChecksKeep s₀ (partsMany s q len align i vas) := by
  induction vas generalizing i with
  | nil => trivial
  | cons va vas ih =>
    exact (Keeps.atPos <| h.checkRange.bind fun _ _ => h.checkAlign.bind fun _ _ => h.accessParts fun _ => Keeps.noFmt).bind
      fun _ _ => ih.bind fun _ _ => trivial

theorem wordAccesses {g : Agent} {wr : Bool} {len : Nat} {vas : List Word} (h : Keeps s₀ s) :
    ResKeeps s₀ (fun p => Keeps s₀ p.1) (wordAccesses s g wr len vas) := by
  unfold Machine.wordAccesses
  exact h.partsMany.bind fun _ _ => h.served.countMisses

/-! ### Completion of releases and sc (R192, R195, R197) -/

theorem drainRead {g : Agent} {keys : List Nat} (h : Keeps s₀ s) : Keeps s₀ (drainRead s g keys) := by
  unfold Machine.drainRead
  split
  · exact h.drainAll
  · exact h

theorem acquireRead {g : Agent} {scope : Scope} {mask : Word} {keys : List Nat} (h : Keeps s₀ s) :
    Keeps s₀ (acquireRead s g scope mask keys) := by
  unfold Machine.acquireRead
  exact h.drainRead.acquireWrites

theorem acquireAll {g : Agent} {scope : Scope} {mask : Word} (h : Keeps s₀ s) : Keeps s₀ (acquireAll s g scope mask) := by
  unfold Machine.acquireAll
  exact h.drainAll.acquireWrites

/-! ### The sender's checks (R157) -/

theorem checkReach {from_ to_ : DieId} (h : Keeps s₀ s) : ChecksKeep s₀ (checkReach s from_ to_) := by
  unfold Machine.checkReach
  split
  · exact h.raise
  · split
    · exact h.raise
    · trivial

theorem sendWaits {x : CtxId} {t : Word} (h : Keeps s₀ s) : ChecksKeep s₀ (sendWaits s x t) := by
  unfold Machine.sendWaits
  split
  · exact h.stall
  · trivial

theorem targetCore {to_ : CoreId → CoreId} {t : Word} {zero : Bool} (h : Keeps s₀ s) :
    ChecksKeep s₀ (targetCore s to_ t zero) := by
  unfold Machine.targetCore
  split
  · exact h.raise
  · split
    · exact h.raise
    · extract_lets _
      split
      · exact h.raise
      · exact h.raise
      · exact h.raise
      all_goals trivial

theorem deliveryTo {x : CtxId} {c : CoreId} {t : Word} (h : Keeps s₀ s) : ChecksKeep s₀ (deliveryTo s x c t) := by
  unfold Machine.deliveryTo
  refine ResKeeps.bind (P := fun _ => True) ?_ fun _ _ => h.raise.when <| trivial
  split
  · exact h.stall
  · trivial
  · split
    · trivial
    · exact h.raise

theorem checkTargetSpad {c : CoreId} {off : Nat} (h : Keeps s₀ s) : ChecksKeep s₀ (checkTargetSpad s c off) := by
  unfold Machine.checkTargetSpad
  split
  · trivial
  · exact h.raise

theorem postRequest {g : Agent} {x : CtxId} {id : Nat} {d : DieId} (h : Keeps s₀ s) :
    Keeps s₀ (postRequest s g x id d) := by
  unfold Machine.postRequest
  split
  · exact h
  · exact h.post

theorem sendPayload {g : Agent} {t : Task} {c : CoreId} {off : Nat} {v : Vec} {red : Option (Nat × Nat × Bool × EType)}
    {h : Word} (k : Keeps s₀ s) : ResKeeps s₀ (DoneKeeps s₀) (sendPayload s g t c off v red h) := by
  unfold Machine.sendPayload
  exact k.touch.drainAll.frame.modMs.postRequest

theorem execSendh {w : WordF} (h : Keeps s₀ s) : OutKeeps s₀ (execSendh w s) := by
  unfold Machine.execSendh
  extract_lets _
  refine h.runWord fun _ _ ht => ht.takeSources.bind fun _ _ => ?_
  extract_lets _ _ _
  refine ht.sendWaits.bind fun _ _ => ht.targetCore.bind fun _ _ => ht.checkReach.bind fun _ _ =>
      ht.deliveryTo.bind fun _ _ => ?_
  split
  exact ht.checkAlign.bind fun _ _ => ht.raise.when <| ht.raise.when <| ht.checkTargetSpad.bind fun _ _ => ht.sendPayload

theorem execRedsp {w : WordF} (h : Keeps s₀ s) : OutKeeps s₀ (execRedsp w s) := by
  unfold Machine.execRedsp
  extract_lets _ _
  refine h.runWord fun _ _ ht => ht.takeSources.bind fun _ _ => ?_
  extract_lets _ _
  refine ht.sendWaits.bind fun _ _ => ht.targetCore.bind fun _ _ => ht.checkReach.bind fun _ _ =>
      ht.deliveryTo.bind fun _ _ => ?_
  split
  exact ht.checkTargetSpad.bind fun _ _ => ht.raise.when <| ht.sendPayload

/-! ### Arrivals -/

theorem modPending {g : Agent} {id : Nat} {h : Pending → Pending} (k : Keeps s₀ s) : Keeps s₀ (modPending s g id h) :=
  k.modBankOf

theorem failPending {g : Agent} {id : Nat} {f : FaultInfo} (h : Keeps s₀ s) : Keeps s₀ (failPending s g id f) :=
  h.modPending

theorem ackPending {g : Agent} {id : Nat} (h : Keeps s₀ s) : Keeps s₀ (ackPending s g id) := h.modPending

theorem postAnswer {d : DieId} {g : Agent} {x : CtxId} {id : Nat} (h : Keeps s₀ s) : Keeps s₀ (postAnswer s d g x id) :=
  h.post

theorem dropSend {id : Nat} (h : Keeps s₀ s) : Keeps s₀ (dropSend s id) := h.modMs

theorem recallSend {r : SendReq} (h : Keeps s₀ s) : Keeps s₀ (recallSend s r) := h.dropSend.modStOf

theorem sendBack {r : SendReq} {a : SendAnswer} (h : Keeps s₀ s) : Keeps s₀ (sendBack s r a) := by
  unfold Machine.sendBack
  split
  · exact h.dropSend.ackPending
  · exact h.dropSend.failPending
  · exact h.recallSend

theorem answerSend {r : SendReq} {a : SendAnswer} (h : Keeps s₀ s) : Keeps s₀ (answerSend s r a) := by
  unfold Machine.answerSend
  split
  · exact h
  · split
    · exact h.sendBack
    · exact h.modMs.postAnswer

theorem refuseSend {r : SendReq} {f : FaultInfo} (h : Keeps s₀ s) : Keeps s₀ (refuseSend s r f) := h.answerSend

theorem violateSend {r : SendReq} {c : CoreId} (h : Keeps s₀ s) : Keeps s₀ (violateSend s r c) := h.logViolation.refuseSend

theorem sendOn {r : SendReq} {d : DieId} (h : Keeps s₀ s) : Keeps s₀ (sendOn s r d) := h.modMs.post

theorem pushReady {c : CoreId} {r : Ready} (h : Keeps s₀ s) : Keeps s₀ (pushReady s c r) := h.modCore

theorem readyCont {x : CtxId} {slot : Nat} {room : Option CoreId} (h : Keeps s₀ s) :
    Keeps s₀ (readyCont s x slot room) := by
  unfold Machine.readyCont
  extract_lets t
  have ht : Keeps s₀ t := h.modCaux
  split
  · split
    · next e2 => exact (ht.takeOrder.fst e2).pushReady
  · exact ht

theorem deliverSendh {r : SendReq} {c : CoreId} (h : Keeps s₀ s) : Keeps s₀ (deliverSendh s r c) := by
  unfold Machine.deliverSendh
  extract_lets t _ _ _ t2
  have ht : Keeps s₀ t := h.spadWrite
  have ht2 : Keeps s₀ t2 := by
    unfold t2
    split
    · exact ht.modCaux.readyCont
    · split
      · next e2 => exact (ht.takeOrder.fst e2).pushReady
  exact ht2.answerSend

theorem execSendhArrival {n : Nat} (h : Keeps s₀ s) : OutKeeps s₀ (execSendhArrival n s) := by
  unfold Machine.execSendhArrival
  split
  · trivial
  · split
    · exact h.answerSend
    · exact h.refuseSend
    · split
      · exact h.sendOn
      · split
        · exact h.violateSend
        · split
          · trivial
          · exact h.deliverSendh

theorem deliverRedsp {r : SendReq} {c : CoreId} {n : Fin 32} {op : Nat} {ord : Bool} {t : EType} (h : Keeps s₀ s) :
    Keeps s₀ (deliverRedsp s r c n op ord t) := by
  unfold Machine.deliverRedsp
  split
  · next e =>
      extract_lets _ t3 t4
      have ht3 : Keeps s₀ t3 := (h.takeOrder.fst e).modNb
      have ht4 : Keeps s₀ t4 := by
        unfold t4
        split
        · exact ht3.modNb.settleHeld
        · exact ht3.applyContribution
      exact ht4.answerSend

theorem execRedspArrival {n : Nat} (h : Keeps s₀ s) : OutKeeps s₀ (execRedspArrival n s) := by
  unfold Machine.execRedspArrival
  split
  · trivial
  · split
    · exact h.answerSend
    · exact h.refuseSend
    · extract_lets _
      split
      · exact h.sendOn
      · split
        · exact h.violateSend
        · split
          · trivial
          · split
            · exact h.refuseSend
            · exact h.deliverRedsp
    · trivial

/-! ### The loads of L (R139 to R144) -/

theorem execLd {w : WordF} (h : Keeps s₀ s) : OutKeeps s₀ (execLd w s) := by
  unfold Machine.execLd
  exact h.runWord fun _ _ ht => ht.takeSources.bind fun _ _ => ht.wordLoad.bind fun _ ht2 => ht2.writeScalar.donePop

theorem pushVec {g : Agent} {o : Operand} {v : Vec} (h : Keeps s₀ s) : Keeps s₀ (pushVec s g o v) := h.writeVec

theorem execLdq {w : WordF} (h : Keeps s₀ s) : OutKeeps s₀ (execLdq w s) := by
  unfold Machine.execLdq
  extract_lets _ _
  refine h.runWord fun _ _ ht => ht.takeSources.bind fun _ _ => ?_
  extract_lets _
  split
  · exact ht.spadCheck.bind fun _ _ => ht.pushVec.donePop
  · refine ht.wordLoad.bind fun _ ht2 => ?_
    split
    exact ht2.pushVec.donePop

/-! ### LDQ.dec (R141) -/

theorem fmtAccess {q : Req} {va : Word} {ok : Nat → Bool} (h : Keeps s₀ s) : ChecksKeep s₀ (fmtAccess s q va ok) := by
  unfold Machine.fmtAccess
  refine h.checkRange.bind fun _ _ => ?_
  extract_lets _ _
  refine h.checkRange.bind fun _ _ => (h.accessParts (fun _ => ?_)).bind fun _ _ => trivial
  split
  · exact h.raise
  · exact h.checkAlign

theorem nq4Record {rec_ : List Byte} {va : Nat} (h : Keeps s₀ s) : ChecksKeep s₀ (nq4Record s rec_ va) := by
  unfold Machine.nq4Record
  split
  · exact h.raise
  · trivial

theorem execLdqDec {w : WordF} (h : Keeps s₀ s) : OutKeeps s₀ (execLdqDec w s) := by
  unfold Machine.execLdqDec
  extract_lets _ _
  refine h.runWord fun _ _ ht => ht.takeSources.bind fun _ _ => ?_
  extract_lets _
  refine ht.fmtAccess.bind fun _ _ => ?_
  split
  extract_lets +onlyGivenNames _ _
  split
  · exact ht.companion.bind fun _ _ => ht.companion.bind fun _ _ => ht.wordServed.pushVec.donePop
  · split
    · refine ht.companion.bind fun _ _ => ht.nq4Record.bind fun _ _ => ?_
      split
      exact ht.wordServed.pushVec.donePop
    · exact ht.wordServed.pushVec.donePop

/-! ### Strided and gathered loads (R143, R144) -/

theorem execLdqs {w : WordF} (h : Keeps s₀ s) : OutKeeps s₀ (execLdqs w s) := by
  unfold Machine.execLdqs
  exact h.runWord fun _ _ ht => ht.takeSources.bind fun _ _ => ht.wordAccesses.bind fun _ ht2 => ht2.pushVec.donePop

theorem partsIndexed {q : Req} {len i : Nat} {vas : List (Option Word)} (h : Keeps s₀ s) :
    ChecksKeep s₀ (partsIndexed s q len i vas) := by
  induction vas generalizing i with
  | nil => trivial
  | cons va vas ih =>
    cases va with
    | none => exact ih.bind fun _ _ => trivial
    | some va =>
      exact (Keeps.atPos <| h.checkRange.bind fun _ _ => h.checkAlign.bind fun _ _ => h.accessParts fun _ => Keeps.noFmt).bind
        fun _ _ => ih.bind fun _ _ => trivial

theorem indexedAccess {g : Agent} {wr : Bool} {t : EType} {vas : List (Option Word)} (h : Keeps s₀ s) :
    ResKeeps s₀ (fun p => Keeps s₀ p.1) (indexedAccess s g wr t vas) := by
  unfold Machine.indexedAccess
  exact h.partsIndexed.bind fun _ _ => h.served.countMisses

theorem execGathq {w : WordF} (h : Keeps s₀ s) : OutKeeps s₀ (execGathq w s) := by
  unfold Machine.execGathq
  exact h.runWord fun _ _ ht => ht.takeSources.bind fun _ _ => ht.indexedAccess.bind fun _ ht2 => ht2.pushVec.donePop

/-! ### Acquire loads and waits (R206, R208) -/

theorem scGate {g : Agent} {w : WordF} (h : Keeps s₀ s) : ChecksKeep s₀ (scGate s g w) := by
  unfold Machine.scGate
  split
  · split
    · exact h.raise
    · split
      · trivial
      · exact h.stall
  · trivial

theorem acqRead {g : Agent} {w : WordF} {ks : List (Option Nat)} (h : Keeps s₀ s) : Keeps s₀ (acqRead s g w ks) := by
  unfold Machine.acqRead
  split
  · exact h.acquireRead
  · exact h

theorem execLdacq {w : WordF} (h : Keeps s₀ s) : OutKeeps s₀ (execLdacq w s) := by
  unfold Machine.execLdacq
  exact h.runWord fun _ _ ht => ht.takeSources.bind fun _ _ => ht.checkScope.bind fun _ _ => ht.checkedBy.bind fun _ _ =>
      ht.scGate.bind fun _ _ => ht.wordServed.acqRead.writeScalar.donePop

theorem watchLine {g : Agent} {line : Nat} (h : Keeps s₀ s) : Keeps s₀ (watchLine s g line) := by
  unfold Machine.watchLine
  exact h.modMs.modStOf

theorem execWaitaddr {w : WordF} (h : Keeps s₀ s) : OutKeeps s₀ (execWaitaddr w s) := by
  unfold Machine.execWaitaddr
  extract_lets _ _ _
  refine h.runWord fun _ _ ht => ht.takeSources.bind fun _ _ => ht.wordAccess.bind fun _ ht2 => ?_
  split
  exact ht.watchLine.stall.when <| ht.checkScope.bind fun _ _ => ht.scGate.bind fun _ _ => ht2.acqRead.writeScalar.donePop

/-! ### PREF (R155) -/

theorem prefetchPage {q : Req} {va len : Nat} (h : Keeps s₀ s) : Keeps s₀ (prefetchPage s q va len) := by
  unfold Machine.prefetchPage
  split
  · exact h
  · split
    · exact h.touchAll
    · exact h

theorem execPref {w : WordF} (h : Keeps s₀ s) : OutKeeps s₀ (execPref w s) := by
  unfold Machine.execPref
  extract_lets _
  refine h.runWord fun _ _ ht => ht.takeSources.bind fun _ _ => ?_
  extract_lets _ _ _ _ _
  refine Keeps.donePop ?_
  split
  · exact ht
  · exact ht.foldAll fun _ _ ht2 => ht2.prefetchPage

end Keeps

end Sys2Proof.Machine
end

section
/-! Rings, the stream engines and the atomics keep the canonical form and the count of leaves. -/

namespace Sys2Proof.Machine

open Sys2Proof

variable {s₀ s t : State}

namespace Keeps

/-! ### Ring registers -/

theorem modEng {c : CoreId} {b : BankId} {f : Engines → Engines} (h : Keeps s₀ s) : Keeps s₀ (modEng s c b f) := h.modBank

theorem setRing {c : CoreId} {b : BankId} {n : Fin 8} {r : Ring} (h : Keeps s₀ s) : Keeps s₀ (setRing s c b n r) := h.modEng

theorem needRing {g : Agent} {n : Fin 8} (h : Keeps s₀ s) : ChecksKeep s₀ (needRing s g n) := by
  unfold Machine.needRing
  split
  · trivial
  · exact h.raise

/-! ### Panel images (R163 to R165) -/

theorem spadCells {c : CoreId} {cells : List Host.Cell} (h : Keeps s₀ s) : Keeps s₀ (spadCells s c cells) :=
  h.noteRacing.modCoreAt fun ⟨hs, ha⟩ => ⟨Mem.wf_writeCells _ hs, ha⟩

/-! ### RINIT and RDROP -/

theorem execRinit {w : WordF} (h : Keeps s₀ s) : OutKeeps s₀ (execRinit w s) := by
  unfold Machine.execRinit
  extract_lets _
  refine h.runWord fun _ _ ht => ht.takeSources.bind fun _ _ => ht.checkDesc.bind fun _ _ => ?_
  split
  · exact ht.raise
  · exact ht.raise.when <| ht.stall.when <| ht.setRing.done

theorem execRdrop {w : WordF} (h : Keeps s₀ s) : OutKeeps s₀ (execRdrop w s) := by
  unfold Machine.execRdrop
  extract_lets _ _
  exact h.runWord fun _ _ ht => ht.takeSources.bind fun _ _ => ht.needRing.bind fun _ _ => ht.raise.when <|
      ht.stall.when <| ht.setRing.donePop

/-! ### Acceptance (R145, R146) -/

theorem checkBind {g : Agent} {k : Fin 8} {q : Fin 16} {push : Bool} (h : Keeps s₀ s) :
    ChecksKeep s₀ (checkBind s g k q push) := by
  unfold Machine.checkBind
  extract_lets _ _
  split
  · trivial
  · exact h.raise

theorem acceptEng {g : Agent} {k : Fin 8} {o : EngOp} (h : Keeps s₀ s) : ResKeeps s₀ (Keeps s₀) (acceptEng s g k o) := by
  unfold Machine.acceptEng
  extract_lets +onlyGivenNames _
  split
  · exact h.stall
  · exact h.drainAll.modBankOf

theorem affineForm {w : WordF} {form : EngForm} {qo : Operand} {two : Bool} (h : Keeps s₀ s) :
    OutKeeps s₀ (affineForm w form qo two s) := by
  unfold Machine.affineForm
  extract_lets _
  refine h.runWord fun _ _ ht => ht.takeSources.bind fun _ _ => ?_
  extract_lets _
  refine ht.checkBind.bind fun _ _ => ht.checkDesc.bind fun _ _ => ?_
  split
  · exact ht.raise
  · exact ht.acceptEng.bind fun _ ht2 => ht2.done

theorem execStrm {w : WordF} (h : Keeps s₀ s) : OutKeeps s₀ (execStrm w s) := h.affineForm

theorem execStrmx {w : WordF} (h : Keeps s₀ s) : OutKeeps s₀ (execStrmx w s) := h.affineForm

theorem execDrn {w : WordF} (h : Keeps s₀ s) : OutKeeps s₀ (execDrn w s) := h.affineForm

theorem execDrnx {w : WordF} (h : Keeps s₀ s) : OutKeeps s₀ (execDrnx w s) := h.affineForm

theorem execRfill {w : WordF} (h : Keeps s₀ s) : OutKeeps s₀ (execRfill w s) := by
  unfold Machine.execRfill
  extract_lets _
  refine h.runWord fun _ _ ht => ht.takeSources.bind fun _ _ => ht.checkDesc.bind fun _ _ => ht.needRing.bind fun _ _ =>
      ht.raise.when <| ht.raise.when <| ht.raise.when ?_
  split
  · exact ht.raise
  · exact ht.raise.when <| ht.acceptEng.bind fun _ ht2 => ht2.done

theorem execRfillg {w : WordF} (h : Keeps s₀ s) : OutKeeps s₀ (execRfillg w s) := by
  unfold Machine.execRfillg
  extract_lets _ _
  refine h.runWord fun _ _ ht => ht.takeSources.bind fun _ _ => ?_
  extract_lets +onlyGivenNames _
  refine ht.checkBind.bind fun _ _ => ht.checkDesc.bind fun _ _ => ht.needRing.bind fun _ _ => ht.raise.when <|
      ht.raise.when <| ht.raise.when ?_
  split
  · exact ht.raise
  · exact ht.raise.when <| ht.acceptEng.bind fun _ ht2 => ht2.done

theorem execRdrain {w : WordF} (h : Keeps s₀ s) : OutKeeps s₀ (execRdrain w s) := by
  unfold Machine.execRdrain
  extract_lets _
  exact h.runWord fun _ _ ht => ht.takeSources.bind fun _ _ => ht.checkDesc.bind fun _ _ => ht.needRing.bind fun _ _ =>
      ht.raise.when <| ht.raise.when <| ht.raise.when <| ht.acceptEng.bind fun _ ht2 => ht2.done

/-! ### Completion of an iteration -/

theorem finishEng {c : CoreId} {b : BankId} {k : Fin 8} (h : Keeps s₀ s) : Keeps s₀ (finishEng s c b k) :=
  h.settleSpad.modBank

theorem bumpEng {c : CoreId} {b : BankId} {k : Fin 8} {o : EngOp} (h : Keeps s₀ s) : Keeps s₀ (bumpEng s c b k o) := by
  unfold Machine.bumpEng
  extract_lets _
  split
  · exact h.finishEng
  · exact h.modEng

/-! ### Iterations (R147, R148, R150 to R154) -/

theorem strmStep {c : CoreId} {b : BankId} {k : Fin 8} {o : EngOp} (h : Keeps s₀ s) :
    ResKeeps s₀ (Keeps s₀) (strmStep s c b k o) := by
  unfold Machine.strmStep
  refine h.stall.when <| h.access.bind fun _ ht => ?_
  split
  exact ht.modBank.bumpEng

theorem drnStep {c : CoreId} {b : BankId} {k : Fin 8} {o : EngOp} (h : Keeps s₀ s) :
    ResKeeps s₀ (Keeps s₀) (drnStep s c b k o) := by
  unfold Machine.drnStep
  refine h.stall.when <| h.raise.when <| h.access.bind fun _ ht => ?_
  split
  exact ht.engineStore.modBank.bumpEng

theorem atVa {α : Type} {P : α → Prop} {va : Nat} {r : Res α} (hr : ResKeeps s₀ P r) : ResKeeps s₀ P (atVa va r) := by
  unfold Machine.atVa
  split
  · exact hr
  · exact hr

theorem imageAccess {q : Req} {va : Word} {rs : List (Nat × Nat)} {ok : Nat → Res Unit} (h : Keeps s₀ s)
    (hok : ∀ (a : Nat), ChecksKeep s₀ (ok a)) : ResKeeps s₀ (fun p => Keeps s₀ p.1) (imageAccess s q va rs ok) := by
  unfold Machine.imageAccess
  split
  · exact h
  · exact h.checkRange.bind fun _ _ => (Keeps.forPages (fun _ => h.checkXlate)).bind fun _ _ => (Keeps.forPages (fun _ =>
        h.checkPerm)).bind fun _ _ => (Keeps.forPages (fun _ => Keeps.atVa (hok _))).bind fun _ _ =>
            (Keeps.forPages (fun _ => h.checkData)).bind fun _ _ => h.served

theorem fillFmt {r : Ring} {o : EngOp} {f found : Nat} (h : Keeps s₀ s) : ChecksKeep s₀ (fillFmt s r o f found) := by
  unfold Machine.fillFmt
  split
  · exact h.raise
  · split
    · split
      · exact h.raise
      · split
        · trivial
        · exact h.raise
    · split
      · trivial
      · exact h.raise

theorem checkSlot {c : CoreId} {b : BankId} {r : Ring} {x : Nat} (h : Keeps s₀ s) :
    ChecksKeep s₀ (checkSlot s c b r x) := by
  unfold Machine.checkSlot
  split
  · trivial
  · exact h.raise

theorem rfillStep {c : CoreId} {b : BankId} {k : Fin 8} {o : EngOp} (h : Keeps s₀ s) :
    ResKeeps s₀ (Keeps s₀) (rfillStep s c b k o) := by
  unfold Machine.rfillStep
  extract_lets +onlyGivenNames _
  split
  · exact h.stall
  · refine h.stall.when ?_
    extract_lets +onlyGivenNames _
    refine h.checkSlot.bind fun _ _ => ?_
    split
    · exact h.setRing.bumpEng
    · exact h.checkRange.bind fun _ _ => (h.imageAccess (fun _ => h.fillFmt)).bind fun _ ht => ht.spadCells.setRing.bumpEng

theorem gatherInto {c : CoreId} {q : Req} {r : Ring} {o : EngOp} {f len : Nat} {rows : List (Nat × Word)} (h : Keeps s₀ s) :
    ResKeeps s₀ (fun p => Keeps s₀ p.1) (gatherInto s c q r o f len rows) := by
  induction rows generalizing s with
  | nil => exact h
  | cons row rows ih =>
    obtain ⟨i, va⟩ := row
    unfold Machine.gatherInto
    exact (h.imageAccess fun _ => h.fillFmt).bind fun _ hs => (ih hs).bind fun _ ht => ht

theorem takeRows {c : CoreId} {b : BankId} {k : Fin 8} {o : EngOp} (h : Keeps s₀ s) :
    ResKeeps s₀ (Keeps s₀) (takeRows s c b k o) := by
  unfold Machine.takeRows
  extract_lets +onlyGivenNames _ _
  split
  · exact h.stall
  · extract_lets +onlyGivenNames _
    split
    · exact h.raise
    · exact h.modBank.modEng

theorem rfillgStep {c : CoreId} {b : BankId} {k : Fin 8} {o : EngOp} (h : Keeps s₀ s) :
    ResKeeps s₀ (Keeps s₀) (rfillgStep s c b k o) := by
  unfold Machine.rfillgStep
  extract_lets +onlyGivenNames _
  split
  · exact h.stall
  · exact h.takeRows
  · refine h.stall.when ?_
    extract_lets +onlyGivenNames _ _ _
    refine h.checkSlot.bind fun _ _ => ?_
    extract_lets _
    split
    · exact h.setRing.bumpEng
    · split
      · exact h.setRing.bumpEng
      · extract_lets +onlyGivenNames _
        refine h.checkRange.bind fun _ _ => ?_
        extract_lets +onlyGivenNames _
        split
        · exact (h.imageAccess (fun _ => h.raise)).bind fun _ _ => h.stall
        · exact h.gatherInto.bind fun _ ht => ht.spadCells.setRing.bumpEng

theorem rdrainStep {c : CoreId} {b : BankId} {k : Fin 8} {o : EngOp} (h : Keeps s₀ s) :
    ResKeeps s₀ (Keeps s₀) (rdrainStep s c b k o) := by
  unfold Machine.rdrainStep
  extract_lets +onlyGivenNames _
  split
  · exact h.stall
  · refine h.stall.when ?_
    extract_lets +onlyGivenNames _
    extract_lets +onlyGivenNames _
    refine h.checkSlot.bind fun _ _ => ?_
    split
    · exact h.raise
    · extract_lets _
      refine (h.imageAccess (fun _ => ?_)).bind fun _ ht => ?_
      · split
        · trivial
        · exact h.raise
      · split
        exact ht.engineStore.setRing.bumpEng

theorem engStep {c : CoreId} {b : BankId} {k : Fin 8} {o : EngOp} (h : Keeps s₀ s) :
    ResKeeps s₀ (Keeps s₀) (engStep s c b k o) := by
  unfold Machine.engStep
  split
  · exact h.finishEng
  · split
    · exact h.strmStep
    · exact h.drnStep
    · exact h.rfillStep
    · exact h.rfillgStep
    · exact h.rdrainStep
    · exact h.stall

theorem faultEng {c : CoreId} {b : BankId} {k : Fin 8} {o : EngOp} {f : FaultInfo} (h : Keeps s₀ s) :
    Keeps s₀ (faultEng s c b k o f) := by
  unfold Machine.faultEng
  exact h.modEng.deferFault

theorem afterIteration {r : Res State} {fail : State → FaultInfo → State} (hr : ResKeeps s₀ (Keeps s₀) r)
    (hfail : ∀ t f, Keeps s₀ t → Keeps s₀ (fail t f)) : OutKeeps s₀ (afterIteration s r fail) := by
  match r, hr with
  | .ok t, (h : Keeps s₀ t) => exact h
  | .error (.stall t _), (h : Keeps s₀ t) =>
    show OutKeeps s₀ (if t.nextId = s.nextId then .fault .notEnabled else .next t)
    split
    · trivial
    · exact h
  | .error (.fault t f), (h : Keeps s₀ t) => exact hfail t f h

theorem execStreamEngineStep {c : CoreId} {b : BankId} {k : Fin 8} (h : Keeps s₀ s) :
    OutKeeps s₀ (execStreamEngineStep c b k s) := by
  unfold Machine.execStreamEngineStep
  split
  · trivial
  · split
    · trivial
    · exact Keeps.afterIteration h.engStep fun _ _ ht => ht.faultEng

/-! ### Operations (R205) -/

theorem needRead {ps : List Part} (h : Keeps s₀ s) : ChecksKeep s₀ (needRead s ps) := by
  unfold Machine.needRead
  split
  · exact h.raise
  · trivial

theorem atomicAccess {g : Agent} {va : Word} {n : Nat} (h : Keeps s₀ s) :
    ResKeeps s₀ (fun p => Keeps s₀ p.1) (atomicAccess s g va n) := by
  unfold Machine.atomicAccess
  extract_lets _
  refine h.checkRange.bind fun _ _ => h.checkAlign.bind fun _ _ => (h.accessParts (fun _ => h.needRead)).bind fun _ _ => ?_
  split
  · exact h.served.countMisses
  · exact h.raise

theorem postAtomic {r : AtomicReq} (h : Keeps s₀ s) : Keeps s₀ (postAtomic s r) := by
  unfold Machine.postAtomic
  split
  · exact h
  · exact h.post

theorem pushAtomic {r : AtomicReq} (h : Keeps s₀ s) : Keeps s₀ (pushAtomic s r) := h.modMs.postAtomic

theorem atomicWord {w : WordF} {op : AOp} (h : Keeps s₀ s) : OutKeeps s₀ (atomicWord w op s) := by
  unfold Machine.atomicWord
  refine h.runWord fun u g hu => hu.takeSources.bind fun _ _ => hu.checkDesc.when <| hu.checkScope.bind fun _ _ => ?_
  split
  · refine hu.checkBind.bind fun _ _ => hu.atomicAccess.bind fun _ ht => ?_
    exact (hu.orStall ht.acceptEng).bind fun _ hv => hv.takeId.pushAtomic.donePop
  · exact hu.atomicAccess.bind fun _ ht => ht.takeId.pushAtomic.donePop
  · exact hu.atomicAccess.bind fun _ ht => ht.takeId.pushAtomic

theorem execAadd {w : WordF} (h : Keeps s₀ s) : OutKeeps s₀ (execAadd w s) := h.atomicWord

theorem execAfadd {w : WordF} (h : Keeps s₀ s) : OutKeeps s₀ (execAfadd w s) := h.atomicWord

theorem execAmin {w : WordF} (h : Keeps s₀ s) : OutKeeps s₀ (execAmin w s) := h.atomicWord

theorem execAmax {w : WordF} (h : Keeps s₀ s) : OutKeeps s₀ (execAmax w s) := h.atomicWord

theorem execAand {w : WordF} (h : Keeps s₀ s) : OutKeeps s₀ (execAand w s) := h.atomicWord

theorem execAor {w : WordF} (h : Keeps s₀ s) : OutKeeps s₀ (execAor w s) := h.atomicWord

theorem execAxor {w : WordF} (h : Keeps s₀ s) : OutKeeps s₀ (execAxor w s) := h.atomicWord

theorem execAswp {w : WordF} (h : Keeps s₀ s) : OutKeeps s₀ (execAswp w s) := h.atomicWord

theorem execAcas {w : WordF} (h : Keeps s₀ s) : OutKeeps s₀ (execAcas w s) := h.atomicWord

theorem execAincw {w : WordF} (h : Keeps s₀ s) : OutKeeps s₀ (execAincw w s) := h.atomicWord

/-! ### At the home (R193, R204) -/

theorem dropAtomic {id : Nat} (h : Keeps s₀ s) : Keeps s₀ (dropAtomic s id) := h.modMs

theorem setAtomic {r : AtomicReq} (h : Keeps s₀ s) : Keeps s₀ (setAtomic s r) := h.modMs

theorem returnAtomic {r : AtomicReq} {v : Word} {wrote : Nat} (h : Keeps s₀ s) : Keeps s₀ (returnAtomic s r v wrote) :=
  h.modStOf

theorem faultAtomic {r : AtomicReq} {f : FaultInfo} (h : Keeps s₀ s) : Keeps s₀ (faultAtomic s r f) := by
  unfold Machine.faultAtomic
  extract_lets _
  split
  · exact h.dropAtomic.failPending
  · exact h.setAtomic.deferFault
  · extract_lets _
    split
    · split
      · exact h.setAtomic.faultEng
      · exact h
    · exact h.dropAtomic

theorem atomicBack {r : AtomicReq} (h : Keeps s₀ s) : Keeps s₀ (atomicBack s r) := by
  unfold Machine.atomicBack
  split
  · exact h.dropAtomic.failPending
  · exact h.dropAtomic.returnAtomic
  · exact h
  · exact h.setAtomic
  · split
    · exact h.setAtomic
    · exact h.dropAtomic

theorem answerAtomic {r : AtomicReq} (h : Keeps s₀ s) : Keeps s₀ (answerAtomic s r) := by
  unfold Machine.answerAtomic
  split
  · exact h.atomicBack
  · exact h.setAtomic.postAnswer

theorem performAtomic {r : AtomicReq} (h : Keeps s₀ s) : Keeps s₀ (performAtomic s r) := by
  unfold Machine.performAtomic
  extract_lets _ _ _ t
  have ht : Keeps s₀ t := h.enterAtomic
  split
  · exact ht.dropAtomic
  · exact ht.answerAtomic

theorem redoAtomic {r : AtomicReq} (h : Keeps s₀ s) : OutKeeps s₀ (redoAtomic s r) := by
  unfold Machine.redoAtomic
  extract_lets _
  split
  · exact h.served.setAtomic.postAtomic
  · trivial
  · next e =>
      split
      · trivial
      · exact (h.accessParts (fun _ => h.needRead)).stall e
  · next e => exact ((h.accessParts (fun _ => h.needRead)).fault e).faultAtomic

theorem takeAtomicFault {r : AtomicReq} {f : FaultInfo} (h : Keeps s₀ s) : OutKeeps s₀ (takeAtomicFault s r f) := by
  unfold Machine.takeAtomicFault
  split
  · split
    · exact h.faultAtomic
    · trivial
  · split
    · trivial
    · exact h.dropAtomic.closeIfDone

theorem execAtomicAtHome {n : Nat} (h : Keeps s₀ s) : OutKeeps s₀ (execAtomicAtHome n s) := by
  unfold Machine.execAtomicAtHome
  split
  · trivial
  · split
    · exact h.redoAtomic
    · split
      · split
        · exact h.takeAtomicFault
        · trivial
      · split
        · trivial
        · split
          · exact h.answerAtomic
          · exact h.performAtomic.closeIfDone

theorem execQueueAtomicResult {c : CoreId} {b : BankId} {k : Fin 4} (h : Keeps s₀ s) :
    OutKeeps s₀ (execQueueAtomicResult c b k s) := by
  unfold Machine.execQueueAtomicResult
  extract_lets _
  split
  · trivial
  · split
    · trivial
    · split
      · trivial
      · split
        · trivial
        · extract_lets _
          split
          · trivial
          · exact h.dropAtomic.modBank.finishEng

end Keeps

end Sys2Proof.Machine
end

section
/-! The moves of pages, their repair and the migrator's pages keep the canonical form and the count of leaves. -/

namespace Sys2Proof.Machine

open Sys2Proof

variable {s₀ s t : State}

namespace Keeps

/-! ### Moves (R218) -/

theorem commitMove {m : Move} (h : Keeps s₀ s) : Keeps s₀ (commitMove s m) := by
  unfold Machine.commitMove
  extract_lets e dst t
  have ht : Keeps s₀ t := h.ite (h.modMsAt (copyFrame_wf _ _))
  exact ht.updateLeaf.freePteFrame.dropMove.moveEnded

theorem execMoveCommit {n : Nat} (h : Keeps s₀ s) : OutKeeps s₀ (execMoveCommit n s) := by
  unfold Machine.execMoveCommit
  split
  · trivial
  · extract_lets _
    split
    · exact h.abandonMove
    · split
      · exact h.abandonMove
      · split
        · trivial
        · split
          · exact h.meetError
          · exact h.commitMove

/-! ### Poison and repair (R217, R219) -/

theorem repairFailed {m : Move} (h : Keeps s₀ s) : Keeps s₀ (repairFailed s m) := h.updateLeaf.dropMove

theorem withdrawFrame {f : Nat} (h : Keeps s₀ s) : Keeps s₀ (withdrawFrame s f) := h.modMs

theorem retireFailing {x : CtxId} {f : Nat} (h : Keeps s₀ s) : Keeps s₀ (retireFailing s x f) := by
  unfold Machine.retireFailing
  extract_lets +onlyGivenNames _
  extract_lets +onlyGivenNames t2
  have ht2 : Keeps s₀ t2 := h.frame
  refine Keeps.freeFrame ?_
  split
  · exact ht2.frame
  · exact ht2.withdrawFrame

theorem repairDone {m : Move} {cells : Nat → List Host.Cell} (h : Keeps s₀ s) : Keeps s₀ (repairDone s m cells) := by
  unfold Machine.repairDone
  extract_lets _
  split
  · exact h.repairFailed
  · next e2 => exact (h.takeFrame e2).enterAll.updateLeaf.retireFailing.dropMove

theorem execRefetchComplete {n : Nat} {pages : Option (List (BitVec 44))} (h : Keeps s₀ s) :
    OutKeeps s₀ (execRefetchComplete n pages s) := by
  unfold Machine.execRefetchComplete
  split
  · trivial
  · split
    · split
      · trivial
      · exact h.repairDone
    · exact h.repairFailed

theorem execRepairTimeout {n : Nat} (h : Keeps s₀ s) : OutKeeps s₀ (execRepairTimeout n s) := by
  unfold Machine.execRepairTimeout
  split
  · trivial
  · split
    · exact h.repairFailed
    · trivial

/-! ### Pages of an operation (R217, R224, R228) -/

theorem tableAct {c : Code} (h : Keeps s₀ s) : ActKeeps s₀ (tableAct s c) := by
  unfold Machine.tableAct
  split
  · exact h
  · trivial

theorem splitFirst {x : CtxId} {l : Leaf} (h : Keeps s₀ s) : ActKeeps s₀ (splitFirst s x l) := by
  unfold Machine.splitFirst
  split
  · next e => exact h.splitLarge e
  · exact h

theorem startMove {by_ : MoveBy} {x : CtxId} {l : Leaf} {down : Bool} {tier : Nat} {hsh : Bool} {home : Nat}
    (h : Keeps s₀ s) : ActKeeps s₀ (startMove s by_ x l down tier hsh home) := by
  unfold Machine.startMove
  split
  · next e => exact (h.takeFrame e).beginMove
  · exact h

theorem migrPage {by_ : MoveBy} {x : CtxId} {va tier : Nat} {hsh : Bool} {home : Nat} (h : Keeps s₀ s) :
    ActKeeps s₀ (migrPage s by_ x va tier hsh home) := by
  unfold Machine.migrPage
  split
  · exact h
  · exact h
  · exact h.tableAct
  · refine .ite h <| .ite h <| .ite ?_ <| .ite trivial <| .ite h <| .ite h <| .ite ?_ <| .ite h <| .ite h <|
      .ite h.splitFirst h.startMove
    · split
      · exact h.abandonMove
      · trivial
    · exact .ite (.ite h.startMove h.startMove) h

theorem zeroFrame {e : Pte} (h : Keeps s₀ s) : Keeps s₀ (zeroFrame s e) := by
  unfold Machine.zeroFrame
  exact h.modMsAt (Mem.wf_clear _ _)

theorem pgzeroPage {x : CtxId} {va : Nat} (h : Keeps s₀ s) : ActKeeps s₀ (pgzeroPage s x va) := by
  unfold Machine.pgzeroPage
  split
  · exact h
  · exact h
  · exact h.tableAct
  · extract_lets +onlyGivenNames _
    split
    · exact h
    · split
      · trivial
      · split
        · exact h.splitFirst
        · split
          · refine Keeps.updateLeaf ?_
            split
            · exact h
            · exact h.zeroFrame
          · split
            · split
              · exact h.updateLeaf
              · exact h
            · extract_lets _ t
              have ht : Keeps s₀ t := h.updateLeaf
              split
              · exact ht
              · exact ht.freePteFrame

theorem evictPage {x : CtxId} {va tier : Nat} {hsh : Bool} {home : Nat} (h : Keeps s₀ s) :
    ActKeeps s₀ (evictPage s x va tier hsh home) := by
  unfold Machine.evictPage
  split
  · exact h
  · exact h
  · exact h
  · extract_lets _
    split
    · exact h
    · split
      · exact h.splitFirst
      · exact h.startMove

theorem finishMigr {d : DieId} (h : Keeps s₀ s) : Keeps s₀ (finishMigr s d) := h.modDie

theorem pageOf {d : DieId} {o : MigOp} (h : Keeps s₀ s) : ActKeeps s₀ (pageOf s d o) := by
  unfold Machine.pageOf
  extract_lets _
  split
  · exact h.evictPage
  · split
    · exact h.pgzeroPage
    · exact h.migrPage

theorem migratorOp {d : DieId} (h : Keeps s₀ s) (e : migratorOp s d = some t) : Keeps s₀ t := by
  unfold Machine.migratorOp at e
  split at e
  · cases e
  · split at e
    · cases e
    · split at e
      · split at e
        · cases e
        · cases e
          exact h.finishMigr.closeIfDone
      · split at e
        · cases e
        · split at e
          · next e1 =>
            cases e
            exact (h.pageOf.status e1).migrDone
          · next e1 =>
            cases e
            exact (h.pageOf.begun e1).modDie
          · next e1 =>
            cases e
            exact h.pageOf.again e1
          · cases e

theorem wsPage {x : CtxId} {idx va home : Nat} (h : Keeps s₀ s) : ActKeeps s₀ (wsPage s x idx va home) := by
  unfold Machine.wsPage
  split
  · exact h
  · exact h
  · exact h.tableAct
  · extract_lets _
    split
    · exact h
    · split
      · exact h
      · split
        · trivial
        · split
          · exact h
          · split
            · exact h
            · split
              · exact h
              · split
                · exact h.splitFirst
                · exact h.startMove

theorem dropWsOp {x : CtxId} (h : Keeps s₀ s) : Keeps s₀ (dropWsOp s x) := h.foldAll fun _ _ ht => ht.modDie

theorem finishWs {x : CtxId} {w : WsLoad} (h : Keeps s₀ s) : Keeps s₀ (finishWs s x w) := by
  unfold Machine.finishWs
  exact h.dropWsOp.modCaux.writeStatus

theorem wsloadPage {d : DieId} (h : Keeps s₀ s) (e : wsloadPage s d = some t) : Keeps s₀ t := by
  unfold Machine.wsloadPage at e
  split at e
  · cases e
  · dsimp only at e
    split at e
    · cases e
    · split at e
      · cases e
      · split at e
        · split at e
          · cases e
          · cases e
            exact h.finishWs
        · split at e
          · cases e
            exact h.wsDone
          · split at e
            · cases e
            · split at e
              · next e1 =>
                cases e
                exact (h.wsPage.status e1).wsDone
              · next e1 =>
                cases e
                exact h.wsPage.begun e1
              · next e1 =>
                cases e
                exact h.wsPage.again e1
              · cases e

theorem execMigratorPage {d : DieId} (h : Keeps s₀ s) : OutKeeps s₀ (execMigratorPage d s) := by
  unfold Machine.execMigratorPage
  split
  · next e => exact h.migratorOp e
  · split
    · next e2 => exact h.wsloadPage e2
    · trivial

theorem enterMig {d : DieId} {o : MigOp} (h : Keeps s₀ s) : Keeps s₀ (enterMig s d o) := h.takeId.modDie

theorem execCapoEvict {x : CtxId} {va : VAddr} {tier : Tier} {home : DieId} (h : Keeps s₀ s) :
    OutKeeps s₀ (execCapoEvict x va tier home s) := by
  unfold Machine.execCapoEvict
  split
  · extract_lets +onlyGivenNames _
    split
    · trivial
    · exact h.enterMig
  · trivial

theorem evictWithdrawn (h : Keeps s₀ s) : OutKeeps s₀ (evictWithdrawn s) := by
  unfold Machine.evictWithdrawn
  split
  · trivial
  · extract_lets _ _
    split
    · exact h.enterMig
    · trivial

theorem execHostFlipAccess {x : CtxId} {va : VAddr} (h : Keeps s₀ s) : OutKeeps s₀ (execHostFlipAccess x va s) := by
  unfold Machine.execHostFlipAccess
  split
  · extract_lets _
    split
    · trivial
    · split
      · exact h
      · exact h.beginMove
  · trivial

theorem execAtsInvalidate {x : CtxId} {handle : BitVec 12} (h : Keeps s₀ s) :
    OutKeeps s₀ (execAtsInvalidate x handle s) := by
  unfold Machine.execAtsInvalidate
  split
  · exact h
  · trivial

/-! ### Walks (R222) -/

theorem execPageWalk {c : CoreId} {x : CtxId} {va : VAddr} {victim : Option Nat} (h : Keeps s₀ s) :
    OutKeeps s₀ (execPageWalk c x va victim s) := by
  unfold Machine.execPageWalk
  extract_lets +onlyGivenNames _
  split
  · trivial
  · exact h.modDie.modCore

end Keeps

end Sys2Proof.Machine
end

section
/-! The conversions, the stores of S, the copies and the collectives keep the canonical form and the count of leaves. -/

namespace Sys2Proof.Machine

open Sys2Proof

variable {s₀ s t : State}

namespace Keeps

/-! ### The floating-point vector forms (R119 to R122) -/

theorem floatForm {w : WordF} {n : Nat} {f : Val → Val → Val → Val × Flagset} (h : Keeps s₀ s) :
    OutKeeps s₀ (floatForm w n f s) := by
  unfold Machine.floatForm
  exact h.mapForm

theorem exactForm {w : WordF} {n : Nat} {f : Val → Val → Val} (h : Keeps s₀ s) : OutKeeps s₀ (exactForm w n f s) := by
  unfold Machine.exactForm
  exact h.mapForm

theorem fun1Form {w : WordF} {f : Val → Fun1} (h : Keeps s₀ s) : OutKeeps s₀ (fun1Form w f s) := h.mapForm

theorem execFadd {w : WordF} (h : Keeps s₀ s) : OutKeeps s₀ (execFadd w s) := h.floatForm

theorem execFsub {w : WordF} (h : Keeps s₀ s) : OutKeeps s₀ (execFsub w s) := h.floatForm

theorem execFmul {w : WordF} (h : Keeps s₀ s) : OutKeeps s₀ (execFmul w s) := h.floatForm

theorem execFfma {w : WordF} (h : Keeps s₀ s) : OutKeeps s₀ (execFfma w s) := h.floatForm

theorem execFfnma {w : WordF} (h : Keeps s₀ s) : OutKeeps s₀ (execFfnma w s) := h.floatForm

theorem execFmin {w : WordF} (h : Keeps s₀ s) : OutKeeps s₀ (execFmin w s) := h.exactForm

theorem execFmax {w : WordF} (h : Keeps s₀ s) : OutKeeps s₀ (execFmax w s) := h.exactForm

theorem execFabs {w : WordF} (h : Keeps s₀ s) : OutKeeps s₀ (execFabs w s) := h.exactForm

theorem execFneg {w : WordF} (h : Keeps s₀ s) : OutKeeps s₀ (execFneg w s) := h.exactForm

theorem execFdiv {w : WordF} (h : Keeps s₀ s) : OutKeeps s₀ (execFdiv w s) := h.floatForm

theorem execFsqrt {w : WordF} (h : Keeps s₀ s) : OutKeeps s₀ (execFsqrt w s) := h.fun1Form

theorem execFexp {w : WordF} (h : Keeps s₀ s) : OutKeeps s₀ (execFexp w s) := h.fun1Form

theorem execFexp2 {w : WordF} (h : Keeps s₀ s) : OutKeeps s₀ (execFexp2 w s) := h.fun1Form

theorem execFlog2 {w : WordF} (h : Keeps s₀ s) : OutKeeps s₀ (execFlog2 w s) := h.fun1Form

theorem execFtanh {w : WordF} (h : Keeps s₀ s) : OutKeeps s₀ (execFtanh w s) := h.fun1Form

theorem execFrnd {w : WordF} (h : Keeps s₀ s) : OutKeeps s₀ (execFrnd w s) := h.exactForm

theorem execFclass {w : WordF} (h : Keeps s₀ s) : OutKeeps s₀ (execFclass w s) := h.mapForm

/-! ### Conversion and block quantisation (R125 to R128) -/

theorem putPart {g : Agent} {w : WordF} {wd lo : Nat} {rs : List (Nat × Flagset)} (h : Keeps s₀ s) :
    Keeps s₀ (putPart s g w wd lo rs) := by
  unfold Machine.putPart
  exact h.setFp.writeVec

theorem execCvt {w : WordF} (h : Keeps s₀ s) : OutKeeps s₀ (execCvt w s) := by
  unfold Machine.execCvt
  exact h.runX fun _ _ ht => ht.takeSources.bind fun _ _ => ht.putPart.donePop

theorem execPack {w : WordF} (h : Keeps s₀ s) : OutKeeps s₀ (execPack w s) := by
  unfold Machine.execPack
  exact h.runX fun _ _ ht => ht.takeSources.bind fun _ _ => ht.putPart.donePop

theorem execUnpack {w : WordF} (h : Keeps s₀ s) : OutKeeps s₀ (execUnpack w s) := by
  unfold Machine.execUnpack
  exact h.runX fun _ _ ht => ht.takeSources.bind fun _ _ => ht.putPart.donePop

/-! ### Blocks (R127, R128) -/

theorem execQenc {w : WordF} (h : Keeps s₀ s) : OutKeeps s₀ (execQenc w s) := by
  unfold Machine.execQenc
  exact h.runX fun _ _ ht => ht.takeSources.bind fun _ _ => ht.setFp.putVec.donePop

theorem execQdec {w : WordF} (h : Keeps s₀ s) : OutKeeps s₀ (execQdec w s) := by
  unfold Machine.execQdec
  exact h.runX fun _ _ ht => ht.takeSources.bind fun _ _ => ht.putElems.donePop

/-! ### The stores of S (R139 to R144) -/

theorem execSt {w : WordF} (h : Keeps s₀ s) : OutKeeps s₀ (execSt w s) := by
  unfold Machine.execSt
  exact h.runWord fun _ _ ht => ht.takeSources.bind fun _ _ => ht.wordStore.bind fun _ ht2 => ht2.donePop

theorem execStq {w : WordF} (h : Keeps s₀ s) : OutKeeps s₀ (execStq w s) := by
  unfold Machine.execStq
  extract_lets _ _
  refine h.runWord fun _ _ ht => ht.takeSources.bind fun _ _ => ?_
  extract_lets _ _
  split
  · exact ht.spadCheck.bind fun _ _ => ht.spadWrite.donePop
  · refine ht.wordAccess.bind fun _ ht2 => ?_
    split
    exact ht2.bufferUnits.donePop

/-! ### STQ.enc (R142) -/

theorem execStqEnc {w : WordF} (h : Keeps s₀ s) : OutKeeps s₀ (execStqEnc w s) := by
  unfold Machine.execStqEnc
  extract_lets _ _ _
  refine h.runWord fun _ _ ht => ht.takeSources.bind fun _ _ => ?_
  extract_lets _ _
  refine ht.fmtAccess.bind fun _ _ => ?_
  split
  extract_lets +onlyGivenNames _
  split
  · exact ht.companion.bind fun _ _ => ht.companion.bind fun _ _ => ht.wordServed.bufferUnits.bufferUnits.donePop
  · split
    · exact ht.companion.bind fun _ _ => ht.companion.bind fun _ _ => ht.wordServed.bufferUnits.bufferStore.donePop
    · split <;> exact ht.wordServed.bufferUnits.donePop

/-! ### Strided and scattered stores (R143, R144) -/

theorem execStqs {w : WordF} (h : Keeps s₀ s) : OutKeeps s₀ (execStqs w s) := by
  unfold Machine.execStqs
  exact h.runWord fun _ _ ht => ht.takeSources.bind fun _ _ => ht.wordAccesses.bind fun _ ht2 => ht2.bufferUnits.donePop

theorem execScatq {w : WordF} (h : Keeps s₀ s) : OutKeeps s₀ (execScatq w s) := by
  unfold Machine.execScatq
  exact h.runWord fun _ _ ht => ht.takeSources.bind fun _ _ => ht.indexedAccess.bind fun _ ht2 => ht2.bufferUnits.donePop

/-! ### STREL (R207) -/

theorem strelStore {g : Agent} {w : WordF} (h : Keeps s₀ s) : ResKeeps s₀ (Keeps s₀) (strelStore s g w) := by
  unfold Machine.strelStore
  exact h.wordStore

theorem execStrel {w : WordF} (h : Keeps s₀ s) : OutKeeps s₀ (execStrel w s) := by
  unfold Machine.execStrel
  extract_lets _
  refine h.runWord fun _ _ ht => ht.takeSources.bind fun _ _ => ht.checkScope.bind fun _ _ =>
      ht.strelStore.bind fun _ ht2 => ?_
  split
  · exact ht
  · split
    · exact ht2
    · exact ht2.donePop

/-! ### Maintenance (R156) -/

theorem lineRange {g : Agent} {w : WordF} {srcs : List Operand} (h : Keeps s₀ s) :
    ChecksKeep s₀ (lineRange s g w srcs) := by
  unfold Machine.lineRange
  extract_lets +onlyGivenNames _ _
  split
  · trivial
  · exact h.checkRange.bind fun _ _ => h.checkAlign.bind fun _ _ => h.raise.when <| h.checkRange.bind fun _ _ => trivial

theorem lineAccess {g : Agent} {wr : Bool} {va len : Nat} (h : Keeps s₀ s) :
    ResKeeps s₀ (fun p => Keeps s₀ p.1) (lineAccess s g wr va len) := by
  unfold Machine.lineAccess
  exact (Keeps.forPages (fun _ => h.checkXlate)).bind fun _ _ => (Keeps.forPages (fun _ => h.checkPerm)).bind fun _ _ =>
      (Keeps.forPages (fun _ => h.checkData)).bind fun _ _ => h.served

theorem execZero {w : WordF} (h : Keeps s₀ s) : OutKeeps s₀ (execZero w s) := by
  unfold Machine.execZero
  exact h.runWord fun _ _ ht => ht.takeSources.bind fun _ _ => ht.lineRange.bind fun _ _ => ht.lineAccess.bind fun _ ht2 =>
      ht2.drainAll.engineStore.donePop

theorem cleanForm {w : WordF} (h : Keeps s₀ s) : OutKeeps s₀ (cleanForm w s) := by
  unfold Machine.cleanForm
  extract_lets _
  refine h.runWord fun _ _ ht => ht.takeSources.bind fun _ _ => ht.lineRange.bind fun _ _ => ?_
  split
  refine ht.lineAccess.bind fun _ ht2 => ?_
  split
  exact ht.stall.when <| ht2.donePop

theorem execClean {w : WordF} (h : Keeps s₀ s) : OutKeeps s₀ (execClean w s) := h.cleanForm

theorem execInval {w : WordF} (h : Keeps s₀ s) : OutKeeps s₀ (execInval w s) := h.cleanForm

/-! ### Descriptors and acceptance (R225) -/

theorem checkReg {w : WordF} {i : Nat} {ok : Bool} (h : Keeps s₀ s) : ChecksKeep s₀ (checkReg s w i ok) := by
  unfold Machine.checkReg
  split
  · trivial
  · exact h.raise

theorem noteDieOp {g : Agent} {w : WordF} {i : Fin 10} {num : Word} (h : Keeps s₀ s) :
    Keeps s₀ (noteDieOp s g w i num) := by
  unfold Machine.noteDieOp
  exact h.writeScalar.modBankOf

theorem acceptCopy {g : Agent} {w : WordF} {dst src : Word} {len : Nat} {host : Option (BitVec 12 × Nat × Bool)}
    (h : Keeps s₀ s) : ResKeeps s₀ (Keeps s₀) (acceptCopy s g w dst src len host) := by
  unfold Machine.acceptCopy
  extract_lets +onlyGivenNames _ _ _ _
  split
  · exact h.stall
  · exact h.drainAll.frame.modDie.noteDieOp

theorem execCpy {w : WordF} (h : Keeps s₀ s) : OutKeeps s₀ (execCpy w s) :=
  h.runWord fun _ _ ht => ht.takeSources.bind fun _ _ => ht.checkDesc.bind fun _ _ => ht.checkReg.bind fun _ _ =>
      ht.checkReg.bind fun _ _ => ht.checkReg.bind fun _ _ => ht.acceptCopy.bind fun _ ht2 => ht2.done

theorem execCpyh {w : WordF} (h : Keeps s₀ s) : OutKeeps s₀ (execCpyh w s) := by
  unfold Machine.execCpyh
  refine h.runWord fun _ _ ht => ht.takeSources.bind fun _ _ => ht.checkDesc.bind fun _ _ => ?_
  extract_lets +onlyGivenNames _
  refine ht.checkReg.bind fun _ _ => ht.checkReg.bind fun _ _ => ht.checkReg.bind fun _ _ => ht.checkReg.bind fun _ _ => ?_
  extract_lets +onlyGivenNames _ _
  split
  · exact ht.raise
  · exact ht.raise.when <| ht.acceptCopy.bind fun _ ht2 => ht2.done

/-! ### The migrator's forms (R228) -/

theorem acceptMig {g : Agent} {w : WordF} {zero : Bool} {first : Word} {count : Nat} {status : Word} {tier : Nat}
    {hsh : Bool} {home : Nat} (h : Keeps s₀ s) :
    ResKeeps s₀ (Keeps s₀) (acceptMig s g w zero first count status tier hsh home) := by
  unfold Machine.acceptMig
  extract_lets +onlyGivenNames _ _ _
  split
  · exact h.stall
  · exact h.drainAll.frame.modDie.noteDieOp

theorem checkPages {w : WordF} {d : Nat → Word} (h : Keeps s₀ s) : ChecksKeep s₀ (checkPages s w d) :=
  h.checkReg.bind fun _ _ => h.checkReg

theorem checkStatus {g : Agent} {array : Word} {count : Nat} (h : Keeps s₀ s) :
    ResKeeps s₀ (Keeps s₀) (checkStatus s g array count) := by
  unfold Machine.checkStatus
  split
  · exact h
  · refine h.wordAccess.bind fun _ ht => ?_
    split
    exact ht

theorem execMigr {w : WordF} (h : Keeps s₀ s) : OutKeeps s₀ (execMigr w s) := by
  unfold Machine.execMigr
  refine h.runWord fun _ _ ht => ht.takeSources.bind fun _ _ => ht.checkDesc.bind fun _ _ => ht.checkPages.bind fun _ _ => ?_
  refine ht.checkReg.bind fun _ _ => ht.raise.when <| ht.checkStatus.bind fun _ hu => ?_
  exact (ht.orStall hu.acceptMig).bind fun _ hv => hv.done

theorem execPgzero {w : WordF} (h : Keeps s₀ s) : OutKeeps s₀ (execPgzero w s) := by
  unfold Machine.execPgzero
  refine h.runWord fun _ _ ht => ht.takeSources.bind fun _ _ => ht.checkDesc.bind fun _ _ => ht.checkPages.bind fun _ _ => ?_
  exact ht.checkStatus.bind fun _ hu => (ht.orStall hu.acceptMig).bind fun _ hv => hv.done

/-! ### PIN and UNPIN (R229) -/

theorem pinPage {pin : Bool} {x : CtxId} {p : Part} (h : Keeps s₀ s) : Keeps s₀ (pinPage pin x s p) := by
  unfold Machine.pinPage
  split
  · extract_lets t
    have ht : Keeps s₀ t := by
      unfold t
      split
      · split
        · exact h.abandonMove
        · exact h
      · exact h
    exact ht.writePte
  all_goals exact h

theorem pinForm {w : WordF} {pin : Bool} (h : Keeps s₀ s) : OutKeeps s₀ (pinForm w pin s) := by
  unfold Machine.pinForm
  extract_lets _
  refine h.runWord fun _ _ ht => ht.takeSources.bind fun _ _ => ?_
  extract_lets +onlyGivenNames _ _
  refine ht.checkRange.bind fun _ _ => ht.checkAlign.bind fun _ _ => ht.raise.when ?_
  extract_lets _ _ _
  exact (Keeps.forPages (fun _ => ht.checkXlate)).bind fun _ _ => (Keeps.forPages (fun _ => ht.checkPerm)).bind fun _ _ =>
      (Keeps.forPages (fun _ => ht.checkData)).bind fun _ _ => ht.stall.when <| (ht.foldAll (fun _ _ ht2 =>
          ht2.pinPage)).donePop

theorem execPin {w : WordF} (h : Keeps s₀ s) : OutKeeps s₀ (execPin w s) := h.pinForm

theorem execUnpin {w : WordF} (h : Keeps s₀ s) : OutKeeps s₀ (execUnpin w s) := h.pinForm

/-! ### TLBINV (R230) -/

theorem execTlbinv {w : WordF} (h : Keeps s₀ s) : OutKeeps s₀ (execTlbinv w s) := by
  unfold Machine.execTlbinv
  extract_lets _
  refine h.runWord fun _ _ ht => ht.takeSources.bind fun _ _ => ht.raise.when <| ht.checkDesc.bind fun _ _ =>
      ht.checkPages.when <| ht.checkReg.bind fun _ _ => ht.checkScope.bind fun _ _ => ?_
  extract_lets +onlyGivenNames _
  split
  · exact ht.raise
  · exact (ht.foldAll (fun _ _ ht2 => ht2.invalidateDie)).done

/-! ### Copy pieces (R226, R227) -/

theorem setCopy {d : DieId} {k : Fin 8} {o : CopyOp} (h : Keeps s₀ s) : Keeps s₀ (setCopy s d k o) := h.modDie

theorem finishCopy {d : DieId} {k : Fin 8} (h : Keeps s₀ s) : Keeps s₀ (finishCopy s d k) := h.modDie

theorem deferTask {g : Agent} {x : CtxId} {task : Word} {i : Fin 10} {f : FaultInfo} {src : FaultSrc} (h : Keeps s₀ s) :
    Keeps s₀ (deferTask s g x task i f src) := by
  unfold Machine.deferTask
  split
  · exact h.deferFault
  · exact h.modCauxAt fun hk => hk.mapIf fun _ hi => hi

theorem faultCopy {d : DieId} {k : Fin 8} {o : CopyOp} {f : FaultInfo} (h : Keeps s₀ s) : Keeps s₀ (faultCopy s d k o f) :=
  h.setCopy.deferTask

theorem pieceDone {d : DieId} {k : Fin 8} {o : CopyOp} {n : Nat} (h : Keeps s₀ s) : Keeps s₀ (pieceDone s d k o n) :=
  h.setCopy

theorem cpyPiece {d : DieId} {k : Fin 8} {o : CopyOp} (h : Keeps s₀ s) : ResKeeps s₀ (Keeps s₀) (cpyPiece s d k o) := by
  unfold Machine.cpyPiece
  exact h.access.bind fun _ ht => ht.access.bind fun _ ht2 => ht2.dieStore.pieceDone

theorem cpyhPiece {d : DieId} {k : Fin 8} {o : CopyOp} {n : BitVec 12} {off : Nat} {toHost : Bool} {hpa : List (BitVec 44)}
    (h : Keeps s₀ s) : ResKeeps s₀ (Keeps s₀) (cpyhPiece s d k o n off toHost hpa) := by
  unfold Machine.cpyhPiece
  split
  · exact h.raise
  · extract_lets +onlyGivenNames _ _ _
    refine h.access.bind fun _ ht => ?_
    split
    refine ht.raise.when <| ht.raise.when ?_
    extract_lets +onlyGivenNames _
    split
    · exact ht.raise
    · exact ht.touch.dieStore.pieceDone

theorem execCopyPiece {d : DieId} {k : Fin 8} {hpa : List (BitVec 44)} (h : Keeps s₀ s) :
    OutKeeps s₀ (execCopyPiece d k hpa s) := by
  unfold Machine.execCopyPiece
  split
  · trivial
  · next o _ _ =>
    split
    · split
      · trivial
      · exact h.finishCopy
    · split
      · trivial
      · extract_lets r
        have hr : ResKeeps s₀ (Keeps s₀) r := by
          unfold r
          split
          · exact h.cpyPiece
          · exact h.cpyhPiece
        clear_value r
        match r, hr with
        | .ok t, (ht : Keeps s₀ t) => exact ht
        | .error (.stall t _), (ht : Keeps s₀ t) =>
          show OutKeeps s₀ (if t.nextId = s.nextId then .fault .notEnabled else .next t)
          split
          · trivial
          · exact ht
        | .error (.fault t _), (ht : Keeps s₀ t) => exact ht.faultCopy

/-! ### Acceptance (R360 to R362) -/

theorem takeStep {x : CtxId} {h : BitVec 8} (k : Keeps s₀ s) : Keeps s₀ (takeStep s x h).1 := by
  unfold Machine.takeStep
  exact k.modCaux

theorem acceptColl {g : Agent} {w : WordF} {o : CollOp} {counted : Bool} (h : Keeps s₀ s) :
    ResKeeps s₀ (Keeps s₀) (acceptColl s g w o counted) := by
  unfold Machine.acceptColl
  extract_lets d e t
  split
  · exact h.stall
  · split
    · next u _ e1 =>
      have hu : Keeps s₀ u := h.drainAll.takeId.fst e1
      have hv : Keeps s₀ (if counted then Machine.takeStep u t.ctx o.handle else (u, 0)).1 := by
        split
        · exact hu.takeStep
        · exact hu
      split
      · next e2 => exact (hv.fst e2).modDie.noteDieOp

theorem execColl {w : WordF} (h : Keeps s₀ s) : OutKeeps s₀ (execColl w s) := by
  unfold Machine.execColl
  refine h.runWord fun _ _ ht => ht.takeSources.bind fun _ _ => ht.checkDesc.bind fun _ _ => ?_
  extract_lets +onlyGivenNames _ _ _
  refine ht.checkReg.bind fun _ _ => ht.checkReg.bind fun _ _ => ht.checkReg.bind fun _ _ => ht.raise.when ?_
  extract_lets +onlyGivenNames _
  split
  · exact ht.raise
  · exact ht.checkReg.bind fun _ _ => ht.checkReg.bind fun _ _ => ht.raise.when <| ht.acceptColl.bind fun _ ht2 => ht2.done

theorem execDigest {w : WordF} (h : Keeps s₀ s) : OutKeeps s₀ (execDigest w s) := by
  unfold Machine.execDigest
  extract_lets _
  refine h.runWord fun _ _ ht => ht.takeSources.bind fun _ _ => ht.checkDesc.bind fun _ _ => ?_
  extract_lets +onlyGivenNames _
  refine ht.checkReg.bind fun _ _ => ht.checkReg.bind fun _ _ => ?_
  extract_lets +onlyGivenNames _
  split
  · split
    · exact ht.raise
    · exact ht.checkReg.bind fun _ _ => ht.raise.when <| ht.acceptColl.bind fun _ ht2 => ht2.done
  · exact ht.checkReg.bind fun _ _ => ht.acceptColl.bind fun _ ht2 => ht2.done

/-! ### Pieces (R226, R360) -/

theorem readPieces {q : Req} {i : Nat} {ps : List (Nat × Nat)} (h : Keeps s₀ s) :
    ResKeeps s₀ (fun p => Keeps s₀ p.1) (readPieces s q i ps) := by
  induction ps generalizing s i with
  | nil => exact h
  | cons p ps ih => exact (Keeps.atPos h.access).bind fun _ ht => (ih ht).bind fun _ hu => hu

theorem writePieces {d : DieId} {o : CollOp} {bs : List Byte} {ps : List (Nat × Nat)} (h : Keeps s₀ s) :
    Keeps s₀ (writePieces s d o bs ps).1 := by
  induction ps generalizing s o bs with
  | nil => exact h
  | cons p ps ih =>
    unfold Machine.writePieces
    split
    · exact h
    · next e => exact ih (h.access.ok e).dieStore

theorem writePieces_stop {d : DieId} {o : CollOp} {bs : List Byte} {ps : List (Nat × Nat)} {x : Stop} (h : Keeps s₀ s)
    (e : (Machine.writePieces s d o bs ps).2.2 = some x) : StopKeeps s₀ x := by
  induction ps generalizing s o bs with
  | nil => cases e
  | cons p ps ih =>
    unfold Machine.writePieces at e
    split at e
    · next e1 =>
      cases e
      exact h.access.stop e1
    · next e1 => exact ih (h.access.ok e1).dieStore e

/-! ### Steps (R356 to R359, R362) -/

theorem setColl {d : DieId} {o : CollOp} (h : Keeps s₀ s) : Keeps s₀ (setColl s d o) := h.modDie

theorem finishColl {d : DieId} {o : CollOp} (h : Keeps s₀ s) : Keeps s₀ (finishColl s d o) := by
  unfold Machine.finishColl
  exact h.setColl.modDie.closeIfDone

theorem faultColl {d : DieId} {o : CollOp} {f : FaultInfo} (h : Keeps s₀ s) : Keeps s₀ (faultColl s d o f) :=
  h.setColl.deferTask

theorem countPort {i : Fin 5} {p : Fin 12} (h : Keeps s₀ s) : Keeps s₀ (countPort s i p) := h.frame

theorem digestEvent {d : DieId} {o : CollOp} {ports : List (Fin 12)} (h : Keeps s₀ s) :
    Keeps s₀ (digestEvent s d o ports) :=
  (h.foldAll (fun _ _ ht => ht.countPort)).logEvent

theorem waited (h : Keeps s₀ t) : OutKeeps s₀ (waited s t) := by
  unfold Machine.waited
  split
  · trivial
  · exact h

theorem closeColl {d : DieId} {o : CollOp} {c : Comm} {bs : List Byte} {digests : List Word} {mismatches : List (Fin 12)}
    (h : Keeps s₀ s) : Keeps s₀ (closeColl s d o c bs digests mismatches) := by
  unfold Machine.closeColl
  split
  · refine Keeps.finishColl ?_
    split
    · exact h
    · exact h.digestEvent
  · split
    · exact h.digestEvent.faultColl
    · exact h.finishColl

theorem putColl {s' : State} {d : DieId} {o : CollOp} {bs : List Byte} (h : Keeps s₀ s') :
    OutKeeps s₀ (putColl s s' d o bs) := by
  unfold Machine.putColl
  extract_lets ps skip
  split
  · next e =>
    have hx : StopKeeps s₀ _ := h.writePieces_stop (congrArg (·.2.2) e)
    exact faultColl hx
  · next e =>
    have hx : StopKeeps s₀ _ := h.writePieces_stop (congrArg (·.2.2) e)
    exact (setColl hx).waited
  · next e => exact (h.writePieces.fst e).setColl

/-! ### Contributions between ranks (R354, R358, R362) -/

theorem failAt {x : CtxId} {h : BitVec 8} {step : Nat} {f : FaultInfo} (k : Keeps s₀ s) :
    Keeps s₀ (failAt s x h step f) := by
  unfold Machine.failAt
  split
  · exact k
  · split
    · exact k.modCaux
    · exact k.frame

theorem failStep {ranks : List (BitVec 16 × CtxId × Nat)} {step : Nat} {f : FaultInfo} (h : Keeps s₀ s) :
    Keeps s₀ (failStep s ranks step f) :=
  h.foldAll fun _ _ ht => ht.failAt

theorem giveRank {d : DieId} {o : CollOp} {c : Comm} {q : Nat × BitVec 16 × CtxId × Nat} (h : Keeps s₀ s) :
    Keeps s₀ (giveRank d o c s q) := by
  unfold Machine.giveRank
  split
  · exact h.failStep
  · split
    · exact h
    · split
      · next e2 => exact (h.takeId.fst e2).modMs.post

theorem abortStep {d : DieId} {o : CollOp} (h : Keeps s₀ s) : Keeps s₀ (abortStep s d o) := by
  unfold Machine.abortStep
  split
  · exact h
  · split
    · exact h
    · refine h.foldAll fun _ _ ht => ?_
      extract_lets _
      split
      · exact ht
      · split
        · exact ht.failAt
        · exact ht.post

/-! ### COLLECTIVE_STEP -/

theorem giveStep {d : DieId} {o : CollOp} {c : Comm} (h : Keeps s₀ s) : OutKeeps s₀ (giveStep s d o c) := by
  unfold Machine.giveStep
  split
  · next e => exact (h.readPieces.fault e).faultColl
  · next e => exact (h.readPieces.stall e).waited
  · next e => exact (h.readPieces.ok e).setColl.foldAll fun _ _ ht => ht.giveRank

theorem dataStep {d : DieId} {o : CollOp} {c : Comm} {own : List Byte} {ops : List (Nat × Nat × Nat × Nat)}
    {bytes : List (List Byte)} {digests : List Word} {fallbacks : List (Fin 12)} (h : Keeps s₀ s) :
    OutKeeps s₀ (dataStep s d o c own ops bytes digests fallbacks) := by
  unfold Machine.dataStep
  split
  · exact h.faultColl
  · exact (h.foldAll (fun _ _ ht => ht.countPort)).putColl

theorem runColl {d : DieId} {o : CollOp} {c : Comm} {ops : List (Nat × Nat × Nat × Nat)} {bytes : List (List Byte)}
    {digests : List Word} {fallbacks mismatches : List (Fin 12)} (h : Keeps s₀ s) :
    OutKeeps s₀ (runColl s d o c ops bytes digests fallbacks mismatches) := by
  unfold Machine.runColl
  split
  · exact h.giveStep
  · split
    · exact h.dataStep
    · split
      · trivial
      · exact h.dataStep
  · split
    · exact h.putColl
    · split
      · trivial
      · exact h.closeColl

theorem execCollectiveStep {d : DieId} {k : CommKey} {peers : PeerData} (h : Keeps s₀ s) :
    OutKeeps s₀ (execCollectiveStep d k peers s) := by
  unfold Machine.execCollectiveStep
  split
  · trivial
  · split
    · split
      · trivial
      · exact h.abortStep.finishColl
    · split
      · trivial
      · split
        · exact h.faultColl
        · split
          · exact h.faultColl
          · exact h.runColl
          · trivial

end Keeps

end Sys2Proof.Machine
end

section
/-! The work queues, the swap, freezes that end and the words on tasks keep the canonical form and the count of leaves. -/

namespace Sys2Proof.Machine

open Sys2Proof

variable {s₀ s t : State}

namespace Keeps

/-! ### Entries of the work queues (R245, R246) -/

theorem takeCand {c : CoreId} {order : Nat} (h : Keeps s₀ s) : Keeps s₀ (takeCand s c order) := h.modCore

theorem passP3 {c : CoreId} (h : Keeps s₀ s) : Keeps s₀ (passP3 s c) := by
  unfold Machine.passP3
  extract_lets _ _ _
  split
  · exact h
  · exact h.modCore

theorem enterBank {c : CoreId} {b : BankId} {e : Enters} (h : Keeps s₀ s) : Keeps s₀ (enterBank s c b e) := by
  unfold Machine.enterBank
  split
  · exact h.startTask
  · split
    · exact h.startCont
    · exact h
  · exact h

theorem execTaskDispatch {c : CoreId} (h : Keeps s₀ s) : OutKeeps s₀ (execTaskDispatch c s) := by
  unfold Machine.execTaskDispatch
  split
  · trivial
  · split
    · trivial
    · exact h.takeCand.passP3.enterBank

/-! ### The swap (R96, R98, R99, R293) -/

theorem swapReserved {c : CoreId} (h : Keeps s₀ s) : Keeps s₀ (swapReserved s c) := by
  unfold Machine.swapReserved
  extract_lets lost t
  have ht : Keeps s₀ t := h.ite (h.foldAll fun _ _ hu => hu.deferFault)
  exact ht.modCore.zeroReserved

theorem beginSwap {c : CoreId} {e : Enters} (h : Keeps s₀ s) : Keeps s₀ (beginSwap s c e) := by
  unfold Machine.beginSwap
  exact h.modBank.modCore.swapReserved

theorem execShadowSwap {c : CoreId} (h : Keeps s₀ s) : OutKeeps s₀ (execShadowSwap c s) := by
  unfold Machine.execShadowSwap
  split
  · trivial
  · split
    · trivial
    · exact h.takeCand.beginSwap

theorem endSwap {c : CoreId} (h : Keeps s₀ s) : Keeps s₀ (endSwap s c) := by
  unfold Machine.endSwap
  exact h.swapReserved.modBank.modCore

theorem execActiveBankResume {c : CoreId} (h : Keeps s₀ s) : OutKeeps s₀ (execActiveBankResume c s) := by
  unfold Machine.execActiveBankResume
  split
  · split
    · trivial
    · split
      · exact h.takeCand.modCore.enterBank
      · exact h.endSwap
  all_goals trivial

/-! ### Tile queues (R248, R271, R278) -/

theorem enterWait {c : CoreId} {w : WaitEntry} (h : Keeps s₀ s) : Keeps s₀ (enterWait s c w) := by
  unfold Machine.enterWait
  split
  · exact h.modCore
  · exact h.pushReady

theorem fillTile {c : CoreId} {q : QTask} (h : Keeps s₀ s) : Keeps s₀ (fillTile s c q) := by
  unfold Machine.fillTile
  split
  · next e => exact (h.takeOrder.fst e).modInst.modCore

theorem execTileQueueFill {c : CoreId} (h : Keeps s₀ s) : OutKeeps s₀ (execTileQueueFill c s) := by
  unfold Machine.execTileQueueFill
  extract_lets _
  split
  · exact h.modDisp.enterWait
  · split
    · trivial
    · split
      · trivial
      · exact h.fillTile

/-! ### Continuations (R254, R255) -/

theorem execContReady {x : CtxId} {slot : Nat} (h : Keeps s₀ s) : OutKeeps s₀ (execContReady x slot s) := by
  unfold Machine.execContReady
  split
  · trivial
  · extract_lets _
    split
    · trivial
    · exact h.readyCont

/-! ### Group barriers at the dispatcher (R297) -/

theorem noteRank {t : Task} {g : Fin 64} {phase : BitVec 32} (h : Keeps s₀ s) : Keeps s₀ (noteRank s t g phase) := h.modInst

theorem answerGbar {r : GbReq} {f : Option FaultInfo} (h : Keeps s₀ s) : Keeps s₀ (answerGbar s r f) := h.modMs.postAnswer

theorem gbarBack {r : GbReq} {f : Option FaultInfo} (h : Keeps s₀ s) : Keeps s₀ (gbarBack s r f) := by
  unfold Machine.gbarBack
  extract_lets t
  have ht : Keeps s₀ t := h.modMs
  split
  · exact ht.ackPending
  · exact ht.failPending

theorem execGbarCount {n : Nat} (h : Keeps s₀ s) : OutKeeps s₀ (execGbarCount n s) := by
  unfold Machine.execGbarCount
  split
  · trivial
  · extract_lets +onlyGivenNames _
    split
    · trivial
    · extract_lets +onlyGivenNames t2
      have ht2 : Keeps s₀ t2 := h.answerGbar
      split
      · exact ht2
      · split
        · exact ht2
        · extract_lets +onlyGivenNames _ _
          split
          · exact ht2
          · exact h.answerGbar.noteRank.modCaux

/-! ### Stores on their way (R189 to R191) -/

theorem execStoreBufferDrain {c : CoreId} {b : BankId} (h : Keeps s₀ s) : OutKeeps s₀ (execStoreBufferDrain c b s) := by
  unfold Machine.execStoreBufferDrain
  split
  · trivial
  · exact h.drainOne

theorem execWriteApply {n : Nat} {at_ : Option DieId} (h : Keeps s₀ s) : OutKeeps s₀ (execWriteApply n at_ s) := by
  unfold Machine.execWriteApply
  split
  · split
    · trivial
    · split
      · exact h.placeWrite
      · trivial
  · split
    · trivial
    · split
      · exact h.applyWrite
      · trivial

/-! ### Going on (R251, R282) -/

theorem resumeOps {c : CoreId} {b : BankId} {z : Freeze} {retry : Bool} (h : Keeps s₀ s) :
    Keeps s₀ (resumeOps s c b z retry) := by
  unfold Machine.resumeOps
  split
  · exact h.frame
  · exact h.frame
  · split
    · exact h
    · split
      · exact h.dropAtomic
      · exact h.setAtomic
  · split
    · exact h
    · split
      · exact h.setAtomic
      · exact h.dropAtomic
  all_goals exact h

theorem resumeFrozen {c : CoreId} {b : BankId} {z : Freeze} {retry : Bool} (h : Keeps s₀ s) :
    Keeps s₀ (resumeFrozen s c b z retry) := by
  unfold Machine.resumeFrozen
  extract_lets t t2 t3
  have ht : Keeps s₀ t := h.resumeOps
  have ht2 : Keeps s₀ t2 := ht.modBank
  have ht3 : Keeps s₀ t3 := ht2.modAux
  split
  · exact ht3.dropFrozen.thawNode
  · exact ht3

theorem restartImage {x : CtxId} {slot : Nat} {t : Task} (h : Keeps s₀ s) : Keeps s₀ (restartImage s x slot t) := by
  unfold Machine.restartImage
  extract_lets st
  split
  · exact h
  · extract_lets u
    have hu : Keeps s₀ u := by
      unfold u
      split
      · exact h.modCauxAt fun hk => hk.mapIf fun _ hi => hi
      · exact (h.takeOrder.modCauxAt ImagesKeep.filter).modInst
    exact hu.dropFrozen.thawNode

theorem decideFrozen {x : CtxId} {f : FrozenAt × Task × Freeze} {retry : Bool} (h : Keeps s₀ s) :
    Keeps s₀ (decideFrozen s x f retry) := by
  unfold Machine.decideFrozen
  split
  · exact h.resumeFrozen
  · split
    · exact h.restartImage
    · exact h.modCauxAt fun hk => hk.mapIf fun _ hi => hi

/-! ### KRETRY and QTHAW -/

theorem onFrozen {w : WordF} {opcode : Nat} {eff : State → CtxId → FrozenAt × Task × Freeze → State}
    (heff : ∀ (a : State) (b : CtxId) (c : FrozenAt × Task × Freeze), Keeps s₀ a → Keeps s₀ (eff a b c)) (h2 : Keeps s₀ s) :
    OutKeeps s₀ (onFrozen w opcode eff s) := by
  unfold Machine.onFrozen
  extract_lets _
  refine h2.runWord fun _ _ ht => ht.takeSources.bind fun _ _ => ?_
  extract_lets _
  split
  · exact ht.writeScalar.donePop
  · split
    · exact ht.writeScalar.donePop
    · split
      · exact ht.raise
      · exact (heff _ _ _ ht.writeScalar).donePop

theorem execQthaw {w : WordF} (h : Keeps s₀ s) : OutKeeps s₀ (execQthaw w s) := h.onFrozen fun _ _ _ ht => ht.decideFrozen

theorem execKretry {w : WordF} (h : Keeps s₀ s) : OutKeeps s₀ (execKretry w s) := h.onFrozen fun _ _ _ ht => ht.decideFrozen

theorem execKcancelTask {w : WordF} (h : Keeps s₀ s) : OutKeeps s₀ (execKcancelTask w s) :=
  h.onFrozen fun _ _ _ ht => ht.cancelNode

/-! ### SPAWN (R249) -/

theorem spawnTasks {me : Task} {first n : Nat} {b : Word} {m : Nat} (h : Keeps s₀ s) :
    Keeps s₀ (spawnTasks s me first n b m) := by
  induction m generalizing s with
  | zero => exact h
  | succ m ih => exact ih h.takeHandle.takeOrder.modInst

theorem execSpawn {w : WordF} (h : Keeps s₀ s) : OutKeeps s₀ (execSpawn w s) := by
  unfold Machine.execSpawn
  extract_lets _
  exact h.runWord fun _ _ ht => ht.takeSources.bind fun _ _ => ht.raise.when <| ht.stall.when <|
      ht.spawnTasks.writeScalar.donePop

/-! ### RENQ (R250) -/

theorem renqTask {g : Agent} {c : CoreId} {a e : Word} (h : Keeps s₀ s) : Keeps s₀ (renqTask s g c a e) := by
  unfold Machine.renqTask
  exact h.modDisp.modDisp.modCore

theorem execRenq {w : WordF} (h : Keeps s₀ s) : OutKeeps s₀ (execRenq w s) := by
  unfold Machine.execRenq
  extract_lets _
  refine h.runWord fun _ _ ht => ht.takeSources.bind fun _ _ => ?_
  extract_lets _ _
  refine ht.targetCore.bind fun _ _ => ht.checkAlign.bind fun _ _ => ht.raise.when <| ht.checkReach.bind fun _ _ => ?_
  extract_lets +onlyGivenNames t2 _
  have ht2 : Keeps s₀ t2 := ht.touch
  split
  · exact ht2.stall.when <| ht2.renqTask.writeScalar.donePop
  · split
    · exact ht2.writeScalar.donePop
    · split
      · exact ht2.frame.raise
      · exact ht2.stall

/-! ### YIELD (R252, R253) -/

theorem yieldForm {w : WordF} {pinned : Bool} {cond : State → Agent → Res ContCond} (h : Keeps s₀ s)
    (hc : ∀ t g, Keeps s₀ t → ChecksKeep s₀ (cond t g)) : OutKeeps s₀ (yieldForm w pinned cond s) := by
  unfold Machine.yieldForm
  refine h.runB fun t g ht => ?_
  extract_lets k
  refine (hc t g ht).bind fun c _ => ?_
  extract_lets j
  have hj : ∀ u, ResKeeps s₀ (DoneKeeps s₀) (j u) := by
    intro u
    unfold j
    split
    · exact ht.stall
    · split
      · exact ht.raise
      · exact ht.enterAs.modCaux.freeBank
  clear_value j
  exact ht.raise.when <| ht.stall.when <| hj ()

theorem execYieldTl {w : WordF} (h : Keeps s₀ s) : OutKeeps s₀ (execYieldTl w s) :=
  h.yieldForm fun _ _ ht => ht.raise.when <| trivial

theorem execYieldNb {w : WordF} (h : Keeps s₀ s) : OutKeeps s₀ (execYieldNb w s) := by
  unfold Machine.execYieldNb
  exact h.yieldForm fun _ _ ht => ht.checkNb.bind fun _ _ => trivial

theorem execYieldGb {w : WordF} (h : Keeps s₀ s) : OutKeeps s₀ (execYieldGb w s) :=
  h.yieldForm fun _ _ ht => ht.gbIndex.bind fun _ _ => trivial

theorem execYieldArr {w : WordF} (h : Keeps s₀ s) : OutKeeps s₀ (execYieldArr w s) := h.yieldForm fun _ _ _ => trivial

/-! ### KLAUNCH (R280) -/

theorem nextKinst {x : CtxId} (h : Keeps s₀ s) : Keeps s₀ (nextKinst s x).1 := by
  unfold Machine.nextKinst
  exact h.modCaux

theorem enterLaunch {k : Kernel} {dead : Bool} (h : Keeps s₀ s) : Keeps s₀ (enterLaunch s k dead) := by
  unfold Machine.enterLaunch
  extract_lets t
  have ht : Keeps s₀ t := h.modDisp
  split
  · exact ht.retireHeld
  · exact ht

theorem execKlaunch {w : WordF} (h : Keeps s₀ s) : OutKeeps s₀ (execKlaunch w s) := by
  unfold Machine.execKlaunch
  refine h.runWord fun _ _ ht => ht.takeSources.bind fun _ _ => ?_
  split
  · exact ht.raise
  · exact ht.raise.when <| ht.raise.when <| ht.raise.when <| ht.raise.when <| ht.raise.when <| ht.stall.when <|
        ht.modCaux.enterLaunch.writeScalar.done

/-! ### KWAIT (R281) -/

theorem execKwait {w : WordF} (h : Keeps s₀ s) : OutKeeps s₀ (execKwait w s) := by
  unfold Machine.execKwait
  extract_lets _
  refine h.runWord fun _ _ ht => ht.takeSources.bind fun _ _ => ht.stall.when ?_
  split
  · exact ht.writeScalar.donePop
  · split
    · exact ht.writeScalar.donePop
    · exact ht.stall

/-! ### KCANCEL.kern (R275, R283) -/

theorem cancelKernel {k : Kernel} (h : Keeps s₀ s) : Keeps s₀ (cancelKernel s k) := by
  unfold Machine.cancelKernel
  split
  · exact h.retireHeld
  · refine h.foldAll fun _ _ ht => ?_
    split
    · split
      · exact ht
      · exact ht.cancelNode
    · exact ht

theorem execKcancelKern {w : WordF} (h : Keeps s₀ s) : OutKeeps s₀ (execKcancelKern w s) := by
  unfold Machine.execKcancelKern
  extract_lets _
  refine h.runWord fun _ _ ht => ht.takeSources.bind fun _ _ => ?_
  extract_lets _ _
  split
  · exact ht.writeScalar.donePop
  · split
    · exact ht.writeScalar.donePop
    · extract_lets t2
      have ht2 : Keeps s₀ t2 := by
        unfold t2
        split
        · exact ht.writeScalar
        · exact ht.writeScalar.cancelKernel
      exact ht2.donePop

/-! ### KTRIG and TEND (R273, R284, R285) -/

theorem countTrigger {t : Task} (h : Keeps s₀ s) : Keeps s₀ (countTrigger s t) := by
  unfold Machine.countTrigger
  split
  · exact h
  · split
    · exact h
    · extract_lets t2
      have ht2 : Keeps s₀ t2 := h.modInst
      split
      · exact ht2
      · split
        · exact ht2.modKern
        · exact ht2

theorem execKtrig {w : WordF} (h : Keeps s₀ s) : OutKeeps s₀ (execKtrig w s) :=
  h.runB fun _ _ ht => ht.stall.when <| ht.modAux.countTrigger.done

theorem endTask {c : CoreId} {b : BankId} {t : Task} (h : Keeps s₀ s) : Keeps s₀ (endTask s c b t) := by
  unfold Machine.endTask
  extract_lets t2 t3 _ t4
  have ht2 : Keeps s₀ t2 := h.countTrigger
  have ht3 : Keeps s₀ t3 := ht2.dropForward
  have ht4 : Keeps s₀ t4 := ht3.freeBank
  split
  · exact ht4.cancelNode
  · exact ht4.closeIfDone

theorem execTend {w : WordF} (h : Keeps s₀ s) : OutKeeps s₀ (execTend w s) :=
  h.runB fun _ _ ht => ht.stall.when <| ht.drainAll.endTask

end Keeps

end Sys2Proof.Machine
end

section
/-! The command rings and the commands on contexts keep the canonical form and the count of leaves. -/

namespace Sys2Proof.Machine

open Sys2Proof

variable {s₀ s t : State}

namespace Keeps

/-! ### Ring records (R257, R258) -/

theorem modRing16 {r : Fin 16} {f : HostRing → HostRing} (h : Keeps s₀ s) : Keeps s₀ (modRing16 s r f) := h.modDisp

theorem stopRing {r : Fin 16} (h : Keeps s₀ s) : Keeps s₀ (stopRing s r) := h.modRing16

theorem advanceHead {r : Fin 16} (h : Keeps s₀ s) : Keeps s₀ (advanceHead s r) := by
  unfold Machine.advanceHead
  exact h.modRing16.enterAll

theorem answer {r : Fin 16} {c : RingRecord} {code : Nat} {result : Word} (h : Keeps s₀ s) :
    Keeps s₀ (answer s r c code result) :=
  h.writeStatus

theorem serveRecord {r : Fin 16} {mine : Nat → Bool} {zeros : RingRecord → Bool} {body : State → RingRecord → CtxId → State}
    (h : Keeps s₀ s) (hbody : ∀ (a : State) (b : RingRecord) (c : CtxId), Keeps s₀ a → Keeps s₀ (body a b c)) :
    OutKeeps s₀ (serveRecord s r mine zeros body) := by
  unfold Machine.serveRecord
  extract_lets +onlyGivenNames _
  split
  · trivial
  · extract_lets +onlyGivenNames _
    split
    · exact h.stopRing
    · split
      · trivial
      · extract_lets t
        have ht : Keeps s₀ t := h.advanceHead
        split
        · exact ht.answer
        · split
          · exact ht.answer
          · split
            · exact ht.answer
            · split
              · exact ht.answer
              · split
                · exact ht.answer
                · exact hbody _ _ _ ht

theorem execRingTailRead {r : Fin 16} (h : Keeps s₀ s) : OutKeeps s₀ (execRingTailRead r s) := by
  unfold Machine.execRingTailRead
  extract_lets +onlyGivenNames _
  split
  · trivial
  · extract_lets _ t2
    have ht2 : Keeps s₀ t2 := h.modRing16
    split
    · exact ht2.stopRing
    · exact ht2

/-! ### LAUNCH (R232, R233, R258, R266) -/

theorem launchBody {r : Fin 16} {c : RingRecord} {x : CtxId} (h : Keeps s₀ s) : Keeps s₀ (launchBody r s c x) := by
  unfold Machine.launchBody
  extract_lets +onlyGivenNames _
  split
  · exact h.answer
  · split
    · exact h.modRing16.answer
    · exact h.modCaux.enterLaunch

theorem execLaunch {r : Fin 16} (h : Keeps s₀ s) : OutKeeps s₀ (execLaunch r s) :=
  h.serveRecord fun _ _ _ ht => ht.launchBody

/-! ### CTXOPEN and CTXREADY (R231 to R234) -/

theorem zeroRange {lo n : Nat} (h : Keeps s₀ s) : Keeps s₀ (zeroRange s lo n) := by
  unfold Machine.zeroRange
  exact h.modMsAt (Mem.wf_clear _ _)

theorem openContext {c : RingRecord} {x : CtxId} (h : Keeps s₀ s) : Keeps s₀ (openContext s c x) := by
  unfold Machine.openContext
  extract_lets a t u
  have hu : Keeps s₀ u := h.modCtx.modCauxAt fun _ _ hi => absurd hi List.not_mem_nil
  exact hu.zeroRange.zeroRange.setCtxSt

theorem execCtxopen {r : Fin 16} (h : Keeps s₀ s) : OutKeeps s₀ (execCtxopen r s) := by
  unfold Machine.execCtxopen
  refine h.serveRecord fun _ _ _ ht => ?_
  split
  · exact ht.answer
  · exact ht.openContext.answer

theorem execCtxready {r : Fin 16} (h : Keeps s₀ s) : OutKeeps s₀ (execCtxready r s) := by
  unfold Machine.execCtxready
  refine h.serveRecord fun _ _ _ ht => ?_
  split
  · exact ht.answer
  · exact ht.setCtxSt.answer

/-! ### WSLOAD (R235) -/

theorem execWsload {r : Fin 16} (h : Keeps s₀ s) : OutKeeps s₀ (execWsload r s) := by
  unfold Machine.execWsload
  refine h.serveRecord fun _ _ _ ht => ?_
  extract_lets _
  split
  · exact ht.modCaux
  · exact ht.answer

theorem beginWs {x : CtxId} {w : WsLoad} {rest : List WsLoad} (h : Keeps s₀ s) : Keeps s₀ (beginWs s x w rest) := by
  unfold Machine.beginWs
  exact h.modCaux.enterMig

theorem execWsloadBegin {x : CtxId} (h : Keeps s₀ s) : OutKeeps s₀ (execWsloadBegin x s) := by
  unfold Machine.execWsloadBegin
  split
  · trivial
  · split
    · split
      · trivial
      · exact h.finishWs
    · split
      · trivial
      · split
        · exact h.beginWs
        · split
          · next e2 => exact (h.access.ok e2).beginWs
          · next e2 =>
              split
              · trivial
              · exact h.access.stall e2
          · next e2 => exact (h.access.fault e2).modCaux.writeStatus

/-! ### CTXQUIESCE (R233) -/

theorem abandonWs {x : CtxId} {w : WsLoad} {i n : Nat} (h : Keeps s₀ s) : Keeps s₀ (abandonWs s x w i n) := by
  induction n generalizing s i with
  | zero => exact h
  | succ n ih => exact ih h.putStatus

theorem cancelWsAll {x : CtxId} (h : Keeps s₀ s) : Keeps s₀ (cancelWsAll s x) := by
  unfold Machine.cancelWsAll
  exact (h.foldAll (fun _ _ ht => ht.abandonWs)).modCaux

theorem dropContextTasks {x : CtxId} (h : Keeps s₀ s) : Keeps s₀ (dropContextTasks s x) := by
  unfold Machine.dropContextTasks
  extract_lets t u
  have hu : Keeps s₀ u := by
    refine h.modDisp.foldAll fun v c hv => ?_
    extract_lets
    split
    · exact hv
    · exact hv.modCore
  exact hu.modCauxAt fun _ _ hi => absurd hi List.not_mem_nil

theorem quiesce {x : CtxId} (h : Keeps s₀ s) : Keeps s₀ (quiesce s x) := by
  unfold Machine.quiesce
  extract_lets t t2 t3 t4 t5
  have ht : Keeps s₀ t := h.setCtxSt
  have ht2 : Keeps s₀ t2 := ht.foldAll fun _ _ ht2 => ht2.drainAll.cancelBank
  have ht3 : Keeps s₀ t3 := by
    refine ht2.foldAll fun _ _ ht3 => ?_
    split
    · exact ht3.discardDieOps
    · exact ht3
  have ht4 : Keeps s₀ t4 := ht3.dropContextTasks.dropDeliveries
  have ht5 : Keeps s₀ t5 := by
    refine ht4.foldAll fun _ _ ht5 => ?_
    split
    · exact ht5.retireHeld
    · exact ht5.modStats.endKernel
  exact ht5.cancelWsAll

theorem execCtxquiesce {r : Fin 16} (h : Keeps s₀ s) : OutKeeps s₀ (execCtxquiesce r s) := by
  unfold Machine.execCtxquiesce
  refine h.serveRecord fun t c x ht => ?_
  extract_lets st
  split
  · exact ht.answer
  · refine ht.quiesce.modCauxAt ?_
    dsimp only
    exact id

theorem execQuiesceComplete {x : CtxId} (h : Keeps s₀ s) : OutKeeps s₀ (execQuiesceComplete x s) := by
  unfold Machine.execQuiesceComplete
  split
  · trivial
  · split
    · trivial
    · exact h.modCaux.writeStatus

/-! ### CTXRELEASE (R233, R234) -/

theorem releaseContext {x : CtxId} (h : Keeps s₀ s) : Keeps s₀ (releaseContext s x) := by
  unfold Machine.releaseContext
  exact ((((h.setCtxSt.foldAll (fun _ _ ht => ht.dropMove)).foldAll (fun _ _ ht => ht.freeFrame)).foldAll (fun _ _ ht =>
      ht.modDie)).foldAll (fun _ _ ht => ht.modCore)).modCaux.modCtx

theorem execCtxrelease {r : Fin 16} (h : Keeps s₀ s) : OutKeeps s₀ (execCtxrelease r s) := by
  unfold Machine.execCtxrelease
  extract_lets _
  split
  · trivial
  · refine h.serveRecord fun _ _ _ ht => ?_
    split
    · exact ht.answer
    · exact ht.releaseContext.answer

end Keeps

end Sys2Proof.Machine
end

section
/-! The links and the packets on them keep the canonical form and the count of leaves. -/

namespace Sys2Proof.Machine

open Sys2Proof

variable {s₀ s t : State}

namespace Keeps

/-! ### Arrival (R349) -/

theorem reachRequest {d : DieId} {id : Nat} (h : Keeps s₀ s) : Keeps s₀ (reachRequest s d id) := h.modMs

theorem takeAnswer {id : Nat} (h : Keeps s₀ s) : Keeps s₀ (takeAnswer s id) := by
  unfold Machine.takeAnswer
  split
  · exact h.atomicBack.closeIfDone
  · split
    · exact h.sendBack
    · exact h
  · split
    · exact h.gbarBack
    · exact h
  · exact h

theorem dropContrib {id : Nat} (h : Keeps s₀ s) : Keeps s₀ (dropContrib s id) := h.modMs

theorem arrivePacket {p : Payload} (h : Keeps s₀ s) : Keeps s₀ (arrivePacket s p) := by
  unfold Machine.arrivePacket
  split
  · exact h.reachWrite
  · exact h.reachRequest
  · exact h.takeAnswer
  · exact h.dropContrib
  · exact h.failAt
  · exact h

/-! ### Loss (R23, R204, R352, R358) -/

theorem failRequest {id : Nat} {code : Code} {detail : Word} (h : Keeps s₀ s) :
    Keeps s₀ (failRequest s id code detail) := by
  unfold Machine.failRequest
  extract_lets t t2
  have ht : Keeps s₀ t := by
    unfold t
    split
    · exact h
    · extract_lets _
      split
      · exact h.dropAtomic.failPending
      all_goals exact h.setAtomic
  have ht2 : Keeps s₀ t2 := by
    unfold t2
    split
    · exact ht
    · exact ht.dropSend.failPending
  split
  · exact ht2
  · exact ht2.modMs.failPending

theorem losePosted {d : DieId} {id : Nat} (h : Keeps s₀ s) : Keeps s₀ (losePosted s d id) := by
  unfold Machine.losePosted
  split
  · exact h.dropAtomic
  · exact h.reachRequest

theorem loseContrib {id : Nat} {detail : Word} (h : Keeps s₀ s) : Keeps s₀ (loseContrib s id detail) := by
  unfold Machine.loseContrib
  split
  · exact h
  · exact h.dropContrib.failStep

theorem losePacket {detail : Word} {p : Payload} (h : Keeps s₀ s) : Keeps s₀ (losePacket s detail p) := by
  unfold Machine.losePacket
  split
  · exact h.loseWrite
  · split
    · exact h.losePosted
    · exact h.failRequest
  · exact h.failRequest
  · exact h.loseContrib
  all_goals exact h

theorem trapPackets {detail : Word} {ps : List Payload} (h : Keeps s₀ s) : Keeps s₀ (trapPackets s detail ps) :=
  h.foldAll fun _ _ ht => ht.trapContext

theorem lostPackets {detail : Word} {ps : List Payload} (h : Keeps s₀ s) : Keeps s₀ (lostPackets s detail ps) :=
  (h.foldAll (fun _ _ ht => ht.losePacket)).trapPackets

theorem dropPacket {p : Payload} (h : Keeps s₀ s) : Keeps s₀ (dropPacket s p) := by
  unfold Machine.dropPacket
  split
  · exact h.reachWrite
  · exact h.loseContrib
  all_goals exact h

theorem takeDown {d : DieId} {ps : List Payload} (h : Keeps s₀ s) : Keeps s₀ (takeDown s d ps) := by
  unfold Machine.takeDown
  exact (h.foldAll (fun _ _ ht => ht.dropPacket)).lostPackets

/-! ### Modules and their other ends -/

theorem modLink {l : LinkId} {f : Link → Link} (h : Keeps s₀ s) : Keeps s₀ (modLink s l f) := by
  unfold Machine.modLink
  split
  · split
    · exact h.frame
    · exact h
  · exact h.frame

theorem modEnds {l : LinkId} {f : Link → Link} (h : Keeps s₀ s) : Keeps s₀ (modEnds s l f) :=
  h.foldAll fun _ _ ht => ht.modLink

/-! ### States (R351, R352) -/

theorem sendAgain {d : DieId} {ps : List Payload} (h : Keeps s₀ s) : Keeps s₀ (sendAgain s d ps) := h.modDie

theorem movePackets {l : LinkId} {all open_ : List Payload} (h : Keeps s₀ s) : Keeps s₀ (movePackets s l all open_) := by
  unfold Machine.movePackets
  split
  · exact h.foldAll fun _ _ ht => ht.losePacket
  · split
    · exact (h.foldAll (fun _ _ ht => ht.losePacket)).trapPackets
    · exact h.sendAgain

theorem linkFails {l : LinkId} (h : Keeps s₀ s) : Keeps s₀ (linkFails s l) := by
  unfold Machine.linkFails
  exact h.modEnds.foldAll fun _ _ ht => ht.movePackets

theorem markGroup {l : LinkId} {g : Bool} (h : Keeps s₀ s) : Keeps s₀ (markGroup s l g) := h.modEnds

theorem resetLinks {d : DieId} (h : Keeps s₀ s) : Keeps s₀ (resetLinks s d) := by
  unfold Machine.resetLinks
  refine h.foldAll fun _ _ ht => ?_
  split
  · exact ht.modEnds.takeDown
  · exact ht

theorem loseOutbox {d : DieId} (h : Keeps s₀ s) : Keeps s₀ (loseOutbox s d) := h.modDie.takeDown

theorem trainLinks {d : DieId} (h : Keeps s₀ s) : Keeps s₀ (trainLinks s d) := by
  unfold Machine.trainLinks
  refine h.foldAll fun _ _ ht => ?_
  split
  · exact ht.modEnds
  · exact ht

/-! ### Sending (R345 to R348) -/

theorem sendIdle {l : LinkId} (h : Keeps s₀ s) : Keeps s₀ (sendIdle s l) := h.modLink

theorem sendNew {l : LinkId} {ps : List Payload} (h : Keeps s₀ s) : Keeps s₀ (sendNew s l ps) := by
  unfold Machine.sendNew
  exact h.modDie.modLink

theorem sendReplay {l : LinkId} (h : Keeps s₀ s) : Keeps s₀ (sendReplay s l) := h.modLink

theorem execFlitSend {l : LinkId} {n : Nat} (h : Keeps s₀ s) : OutKeeps s₀ (execFlitSend l n s) := by
  unfold Machine.execFlitSend
  extract_lets +onlyGivenNames _
  split
  · trivial
  · split
    · exact h.sendIdle
    · split
      · exact h.sendReplay
      · extract_lets _
        split
        · trivial
        · exact h.sendNew

/-! ### Receiving (R347 to R350) -/

theorem ackedOut {l : LinkId} {ack : BitVec 16} (h : Keeps s₀ s) : Keeps s₀ (ackedOut s l ack) := by
  unfold Machine.ackedOut
  split
  · exact h
  · refine h.foldAll fun _ _ ht => ?_
    split
    · exact ht.dropContrib
    all_goals exact ht

theorem takeNak {l : LinkId} {nak : Option (BitVec 16)} (h : Keeps s₀ s) : Keeps s₀ (takeNak s l nak) := by
  unfold Machine.takeNak
  split
  · exact h
  · extract_lets _
    split
    · exact h
    · exact h.modLink.modEnds

theorem chargeFlit {l : LinkId} {seq : BitVec 16} (h : Keeps s₀ s) : Keeps s₀ (chargeFlit s l seq) := by
  unfold Machine.chargeFlit
  extract_lets +onlyGivenNames _
  split
  · exact h
  · extract_lets _ t _ t2
    have ht : Keeps s₀ t := h.modLink
    have ht2 : Keeps s₀ t2 := by
      unfold t2
      split
      · exact ht.markGroup
      · exact ht
    split
    · exact ht2.markGroup
    · exact ht2

theorem takePacket {l : LinkId} {p : Payload} (h : Keeps s₀ s) : Keeps s₀ (takePacket l s p) := by
  unfold Machine.takePacket
  extract_lets _
  split
  · split
    · split
      · exact h.arrivePacket
      · exact h.post
    · split
      · exact h.arrivePacket
      · exact h.post
    all_goals exact h
  · split
    · exact h.dropPacket.modDie
    · split
      · exact h.arrivePacket
      · exact h.modDie

theorem takeFlit {l : LinkId} {f : Flit} (h : Keeps s₀ s) : Keeps s₀ (takeFlit s l f) := by
  unfold Machine.takeFlit
  extract_lets +onlyGivenNames t t2 t3 _
  have ht : Keeps s₀ t := h.ackedOut
  have ht2 : Keeps s₀ t2 := ht.modLink
  have ht3 : Keeps s₀ t3 := ht2.takeNak
  split
  · split
    · exact ht3
    · exact ht3.modLink.chargeFlit.foldAll fun _ _ ht4 => ht4.takePacket
  · split
    · exact ht3.modLink
    · exact ht3.modEnds

theorem badFlit {l : LinkId} {f : Flit} {err : List (Nat × BitVec 8)} (h : Keeps s₀ s) : Keeps s₀ (badFlit s l f err) := by
  unfold Machine.badFlit
  extract_lets +onlyGivenNames t
  have ht : Keeps s₀ t := h.modLink.modEnds
  split
  · exact ht
  · extract_lets t2
    have ht2 : Keeps s₀ t2 := ht.modLink
    split
    · exact ht2.linkFails
    · exact ht2

theorem nextFlit {l : LinkId} {f : Option Flit} {p : Flit × State} (h : Keeps s₀ s) (e : nextFlit s l f = some p) :
    Keeps s₀ p.2 := by
  unfold Machine.nextFlit at e
  split at e
  · cases e
    exact h
  · obtain ⟨_, _, rfl⟩ := Option.map_eq_some_iff.1 e
    exact h.modLink
  · cases e
  · cases e

theorem execFlitReceive {l : LinkId} {f : Option Flit} {err : List (Nat × BitVec 8)} (h : Keeps s₀ s) :
    OutKeeps s₀ (execFlitReceive l f err s) := by
  unfold Machine.execFlitReceive
  split
  · trivial
  · split
    · trivial
    · next e =>
      split
      · exact (h.nextFlit e).takeFlit
      · exact (h.nextFlit e).badFlit

theorem execReplayTimeout {l : LinkId} (h : Keeps s₀ s) : OutKeeps s₀ (execReplayTimeout l s) := by
  unfold Machine.execReplayTimeout
  extract_lets _
  split
  · trivial
  · exact h.modLink.modEnds

theorem execLinkAckTimeout {l : LinkId} (h : Keeps s₀ s) : OutKeeps s₀ (execLinkAckTimeout l s) := by
  unfold Machine.execLinkAckTimeout
  extract_lets _
  split
  · trivial
  · exact h.linkFails

/-! ### Packets without a way (R23, R352) -/

theorem strand {d : DieId} {p : Payload} (h : Keeps s₀ s) : Keeps s₀ (strand s d p) := by
  unfold Machine.strand
  extract_lets _
  split
  · split
    · exact h.modDie
    · exact h.losePacket
  · split
    · exact h.dropPacket
    · split
      · split
        · exact h.failRequest
        · exact h.lostPackets
      all_goals exact h.lostPackets

theorem strandOne (h : Keeps s₀ s) : OutKeeps s₀ (strandOne s) := by
  unfold Machine.strandOne
  split
  · trivial
  · exact h.modDie.strand

/-! ### Training (R351) -/

theorem trained {l : LinkId} {g0 g1 : Bool} (h : Keeps s₀ s) : Keeps s₀ (trained s l g0 g1) := by
  unfold Machine.trained
  extract_lets _ _ _
  split
  · exact h.modEnds
  · split
    · exact h.modEnds
    · exact h.linkFails

theorem retrain {l : LinkId} {g0 g1 : Bool} (h : Keeps s₀ s) : Keeps s₀ (retrain s l g0 g1) := by
  unfold Machine.retrain
  extract_lets _ _ _
  split
  · split
    · exact h.modEnds
    · exact h.linkFails
  · split
    · split
      · exact h.linkFails
      · exact h
    · split
      · exact h.linkFails
      · exact h
  all_goals exact h

theorem retrainAll {results : List (LinkId × Bool × Bool)} {ls : List LinkId} (h : Keeps s₀ s) :
    Keeps s₀ (retrainAll s results ls) := by
  unfold Machine.retrainAll
  exact h.foldAll fun _ _ ht => ht.retrain

theorem execExtendedSlotRetrain {results : List (LinkId × Bool × Bool)} (h : Keeps s₀ s) :
    OutKeeps s₀ (execExtendedSlotRetrain results s) := by
  unfold Machine.execExtendedSlotRetrain
  extract_lets +onlyGivenNames _
  split
  · split
    · trivial
    · exact h.frame.retrainAll
  · split
    · trivial
    · exact h.retrainAll

theorem execHostLinkDown (h : Keeps s₀ s) : OutKeeps s₀ (execHostLinkDown s) := by
  unfold Machine.execHostLinkDown
  split
  · trivial
  · exact h.modDisp

end Keeps

end Sys2Proof.Machine
end

section
/-! Admission, gangs and park images that resume keep the canonical form and the count of leaves. -/

namespace Sys2Proof.Machine

open Sys2Proof

variable {s₀ s t : State}

namespace Keeps

/-! ### Admission (R266, R267) -/

theorem admitKernel {k : Kernel} {g : Graph} (h : Keeps s₀ s) : Keeps s₀ (admitKernel s k g) := by
  unfold Machine.admitKernel
  extract_lets t t2 t3 t4
  have ht : Keeps s₀ t := h.modKern
  have ht2 : Keeps s₀ t2 := ht.modCtx
  have ht3 : Keeps s₀ t3 := by
    unfold t3
    split
    · exact ht2.setCtxSt
    · exact ht2
  have ht4 : Keeps s₀ t4 := ht3.launchStatus
  exact ht4.settleNodes

theorem execKernelAdmit {x : CtxId} (h : Keeps s₀ s) : OutKeeps s₀ (execKernelAdmit x s) := by
  unfold Machine.execKernelAdmit
  extract_lets held
  clear_value held
  split
  · exact h.retireHeld
  · split
    · trivial
    · split
      · trivial
      · split
        · trivial
        · exact h.retireHeld
        · exact h.admitKernel

/-! ### Gang placement (R289, R291) -/

theorem cancelGang {k : Kernel} {n : Nat} (h : Keeps s₀ s) : Keeps s₀ (cancelGang s k n) := by
  unfold Machine.cancelGang
  exact h.modStats.logEvent.cancelNode

theorem execGangReserve (h : Keeps s₀ s) : OutKeeps s₀ (execGangReserve s) := by
  unfold Machine.execGangReserve
  extract_lets +onlyGivenNames _
  split
  · exact h.cancelGang
  · split
    · trivial
    · extract_lets _
      split
      · trivial
      · exact h.modInst

theorem enterHeld {c : CoreId} {e : Enters} (h : Keeps s₀ s) : Keeps s₀ (enterHeld s c e) := by
  unfold Machine.enterHeld
  split
  · exact h.modCore
  all_goals exact h.beginSwap

theorem placeMember {c : CoreId} {b : BankId} {q : QTask} (h : Keeps s₀ s) : Keeps s₀ (placeMember s c b q) := by
  unfold Machine.placeMember
  split
  · extract_lets t
    have ht : Keeps s₀ t := h.passP3.startTask.modAux
    split
    · exact ht.modBank
    · exact ht
  · exact h.enterHeld

/-! ### Imaging (R239, R315) -/

theorem execParkImage {c : CoreId} {b : BankId} (h : Keeps s₀ s) : OutKeeps s₀ (execParkImage c b s) := by
  unfold Machine.execParkImage
  split
  · trivial
  · exact h.modBank.parkBank

/-! ### Restoring (R242, R243) -/

theorem reagent {task : Word} {c : CoreId} {b : BankId} (h : Keeps s₀ s) : Keeps s₀ (reagent s task c b) := by
  unfold Machine.reagent
  exact h.modMs.frame

theorem freeImage {x : CtxId} {slot : Nat} (h : Keeps s₀ s) : Keeps s₀ (freeImage s x slot) := h.modCauxAt ImagesKeep.filter

/-- A core takes its memories back from an image, whole or the part of one side, so the image must be in form (R242). -/
theorem restoreImage {x : CtxId} {i : ParkImg} {c : CoreId} {b : BankId} {t : Task} (h : Keeps s₀ s)
    (hi : memOk s₀ → imageMemOk i) : Keeps s₀ (restoreImage s x i c b t) := by
  unfold Machine.restoreImage
  extract_lets u _ _ _ _ _ v _ _ w w' z
  have hu : Keeps s₀ u := h.passBank.freeImage
  have hv : Keeps s₀ v := hu.setCore fun h0 => setBank_memOk (restoreStores_memOk (hu.core c h0) (hi h0))
  have hw : Keeps s₀ w := hv.modAux.reagent.touch.forwardTo
  have hw' : Keeps s₀ w' := hw.setCtxSt.ite hw
  have hz : Keeps s₀ z := hw'.logEvent
  split
  · split
    · exact hz.resumeFrozen
    · exact hz
  · exact hz

theorem resumeImage {x : CtxId} {i : ParkImg} {c : CoreId} {b : BankId} (h : Keeps s₀ s) (hi : memOk s₀ → imageMemOk i) :
    Keeps s₀ (resumeImage s x i c b) := by
  unfold Machine.resumeImage
  split
  · exact h.freeImage
  · exact h.freeImage.startTask.modAux.ite (h.restoreImage hi)

/-! ### IMAGE_RESUME (R242, R244, R317) -/

theorem loseImage {x : CtxId} {i : ParkImg} {t : Task} (h : Keeps s₀ s) : Keeps s₀ (loseImage s x i t) := by
  unfold Machine.loseImage
  extract_lets _ f u v z w _ _ y
  have hv : Keeps s₀ v := h.frame.logEvent
  have hw : Keeps s₀ w := hv.modCauxAt fun hk => hk.mapIf fun _ hi => hi
  have hy : Keeps s₀ y := hw.noteFrozen.modStats.freezeNode
  split
  · exact hy.faultContext
  · exact hy.faultContext.ite hy.spawnHandler
  · exact hy.faultContext

theorem execImageResume {x : CtxId} {slot : Nat} {readable : Bool} (h : Keeps s₀ s) :
    OutKeeps s₀ (execImageResume x slot readable s) := by
  unfold Machine.execImageResume
  split
  · trivial
  · next e =>
    have hi := h.images x _ (List.mem_of_find?_eq_some e)
    split
    · trivial
    · split
      · trivial
      · split
        · exact h.loseImage
        · split
          · trivial
          · split
            · trivial
            · split
              · exact h.beginSwap
              · exact h.resumeImage hi

/-! ### SHADOW_BANK_START (R96) -/

theorem returnReady {c : CoreId} {r : Ready} (h : Keeps s₀ s) : Keeps s₀ (returnReady s c r) := by
  unfold Machine.returnReady
  split
  · exact h.pushReady
  · exact h.modDisp

theorem gangAgain {kinst : Word} {n : Nat} (h : Keeps s₀ s) : Keeps s₀ (gangAgain s kinst n) := by
  unfold Machine.gangAgain
  split
  · exact h
  · exact h.modInst

theorem returnEntry {c : CoreId} {e : Enters} (h : Keeps s₀ s) : Keeps s₀ (returnEntry s c e) := by
  unfold Machine.returnEntry
  split
  · split
    · exact h.returnReady
    · exact h.enterEngine
    · exact h.enterEngine
    · extract_lets t
      have ht : Keeps s₀ t := h.gangAgain
      split
      · exact ht.modCore
      · exact ht.modInst
    · extract_lets t
      have ht : Keeps s₀ t := h.gangAgain
      split
      · exact ht.modCore
      · exact ht.modInst
  · exact h.readyCont
  · split
    · exact h.modInst
    · exact h

theorem enterShadow {c : CoreId} {e : Enters} (h : Keeps s₀ s) : Keeps s₀ (enterShadow s c e) := by
  unfold Machine.enterShadow
  split
  · exact h.startTask.modAux
  · exact h.enterBank
  · split
    · next e => exact h.resumeImage (h.images _ _ (List.mem_of_find?_eq_some e))
    · exact h

theorem execShadowBankStart {c : CoreId} (h : Keeps s₀ s) : OutKeeps s₀ (execShadowBankStart c s) := by
  unfold Machine.execShadowBankStart
  split
  · split
    · trivial
    · extract_lets _
      split
      · exact h.modCore
      · split
        · exact h.modCore
        · split
          · exact h.returnEntry.modCore
          · split
            · exact h.returnEntry.loseImage.modCore
            · exact h.modCore.enterShadow
  all_goals trivial

/-! ### GANG_BANK_HOLD (R289, R291) -/

theorem placeImages {x : CtxId} {b : BankId} {l : List (CoreId × ParkImg)} (h : Keeps s₀ s)
    (hl : ∀ p ∈ l, memOk s₀ → imageMemOk p.2) : Keeps s₀ (placeImages s x b l) := by
  induction l generalizing s with
  | nil => exact h
  | cons p l ih =>
    obtain ⟨c, i⟩ := p
    obtain ⟨hi, hl⟩ := List.forall_mem_cons.1 hl
    cases b
    · exact ih (h.resumeImage hi) hl
    · exact ih h.enterHeld hl

theorem placeMembers {b : BankId} {l : List (CoreId × QTask)} (h : Keeps s₀ s) : Keeps s₀ (placeMembers s b l) := by
  induction l generalizing s with
  | nil => exact h
  | cons p l ih => exact ih h.placeMember

/-- The images that a gang places are those of its context, so they are in form. -/
theorem placeGang {k : Kernel} {n : Nat} {b : BankId} {cores : List CoreId} (h : Keeps s₀ s) :
    Keeps s₀ (placeGang s k n b cores) := by
  unfold Machine.placeGang
  extract_lets imgs t u
  have himgs : ∀ p ∈ List.zip cores imgs, memOk s₀ → imageMemOk p.2 := fun p hp =>
    h.images k.ctx _ (mem_images_of_mem_gangImages (List.of_mem_zip hp).2)
  have ht : Keeps s₀ t := h.foldAll fun _ _ hu => hu.modAux
  split
  · exact ht
  · extract_lets
    have hu : Keeps s₀ u := ht.modInst
    split
    · exact hu.placeImages himgs
    · exact hu.modInst.placeMembers

theorem execGangBankHold {c : CoreId} (h : Keeps s₀ s) : OutKeeps s₀ (execGangBankHold c s) := by
  unfold Machine.execGangBankHold
  split
  · trivial
  · extract_lets +onlyGivenNames _ _ _
    split
    · extract_lets t
      have ht : Keeps s₀ t := h.modAux
      split
      · exact ht.placeGang
      · exact ht
    · split
      · exact h.placeGang
      · trivial

/-! ### SHED_END (R236, R290, R318) -/

theorem detBreak {x : CtxId} {first : Word} (h : Keeps s₀ s) : Keeps s₀ (detBreak s x first) := by
  unfold Machine.detBreak
  exact (h.foldAll (fun _ _ ht => ht.modStats)).logEvent

theorem execShedEnd (h : Keeps s₀ s) : OutKeeps s₀ (execShedEnd s) := by
  unfold Machine.execShedEnd
  extract_lets +onlyGivenNames _
  split
  · trivial
  · exact (h.foldAll (fun _ _ ht => ht.detBreak)).foldAll fun _ _ ht => ht.cancelNode

end Keeps

end Sys2Proof.Machine
end

section
/-! Soft errors, lost dies and module reset keep the canonical form; module reset keeps the leaves that have signed. -/

namespace Sys2Proof.Machine

open Sys2Proof

variable {s₀ s t : State}

namespace Keeps

/-! ### Soft errors (R376) -/

theorem markEntry {e : Structure} (h : Keeps s₀ s) : Keeps s₀ (markEntry s e) := by
  unfold Machine.markEntry
  split
  · exact h.modBankOf
  · exact h.modRegsOf
  · exact h.modRegsOf
  · exact h.modBank
  · exact h.modBank
  · exact h.modBank
  · exact h.modBank
  · exact h.modBank
  · exact h.modCore
  · exact h.modCore
  · exact h.modBank
  · exact h.modAux
  all_goals exact h

theorem spoilImages {f : Nat} (h : Keeps s₀ s) : Keeps s₀ (spoilImages s f) :=
  h.foldAll fun _ _ ht => ht.modCauxAt fun hk => hk.mapIf fun _ hi => hi

theorem frameError {f : Nat} (h : Keeps s₀ s) : Keeps s₀ (frameError s f) := by
  unfold Machine.frameError
  exact h.spoilImages.modMs.foldAll fun _ _ ht => ht.pageError

theorem uncorrected {e : Structure} (h : Keeps s₀ s) : Keeps s₀ (uncorrected s e) := by
  unfold Machine.uncorrected
  split
  · exact h.modDie
  · exact h.modCore
  · exact h.pageError
  · exact h.pageError
  · exact h.frameError
  · exact h
  · exact h
  · exact h
  · exact h
  · exact h
  all_goals exact h.markEntry

theorem execEccError {e : EccEvent} (h : Keeps s₀ s) : OutKeeps s₀ (execEccError e s) := by
  unfold Machine.execEccError
  split
  · trivial
  · extract_lets +onlyGivenNames _
    extract_lets t2
    have ht2 : Keeps s₀ t2 := h.frame
    split
    · exact ht2
    · exact ht2.uncorrected

/-! ### Cores and dies that leave (R16, R22, R271, R378) -/

theorem gangsBack {gone : CoreId → Bool} (h : Keeps s₀ s) : Keeps s₀ (gangsBack s gone) := by
  unfold Machine.gangsBack
  refine h.foldAll fun _ _ ht => ?_
  split
  · split
    · exact ht
    · exact (ht.foldAll (fun _ _ ht2 => ht2.modAux.modAux)).modInst
  all_goals exact ht

theorem rehome {c : CoreId} (h : Keeps s₀ s) : Keeps s₀ (rehome s c) := by
  unfold Machine.rehome
  extract_lets _ t t2 t3
  have ht : Keeps s₀ t := h.modCore
  have ht2 : Keeps s₀ t2 := ht.foldAll fun _ _ ht2 => ht2.modInst
  have ht3 : Keeps s₀ t3 := ht2.foldAll fun _ _ ht3 => ht3.enterEngine
  refine ht3.foldAll fun _ _ ht4 => ?_
  split
  · split
    · exact ht4.pushReady
    · exact ht4.modDisp
  · exact ht4

theorem clearQueues {c : CoreId} (h : Keeps s₀ s) : Keeps s₀ (clearQueues s c) := by
  unfold Machine.clearQueues
  extract_lets t
  have ht : Keeps s₀ t := by
    unfold t
    split
    · exact h.returnEntry.modCore
    all_goals exact h
  exact ht.rehome

theorem fenceCore {c : CoreId} (h : Keeps s₀ s) : Keeps s₀ (fenceCore s c) := by
  unfold Machine.fenceCore
  exact h.modCtl.gangsBack.clearQueues

theorem dropRequests {d : DieId} (h : Keeps s₀ s) : Keeps s₀ (dropRequests s d) := h.modMs

theorem failOutstanding {d : DieId} (h : Keeps s₀ s) : Keeps s₀ (failOutstanding s d) := by
  unfold Machine.failOutstanding
  exact h.foldAll fun _ _ ht => ht.failRequest

theorem loseDie {d : DieId} (h : Keeps s₀ s) : Keeps s₀ (loseDie s d) := by
  unfold Machine.loseDie
  extract_lets mine t t2 t3 t4 t5 t6 t7
  have ht3 : Keeps s₀ t3 := (h.foldAll fun _ _ hu => hu.abandonMove).modDie.failOutstanding.foldAll fun _ _ hu => hu.clearQueues
  have ht5 : Keeps s₀ t5 := (ht3.foldAll fun _ _ hu => hu.trapContext).gangsBack.dropRequests
  have ht6 : Keeps s₀ t6 := ht5.foldAll fun _ _ hu => (hu.modCoreAt fun _ => ⟨rfl, rfl⟩).modCtl
  exact ht6.modDie.resetLinks.loseOutbox

/-! ### Module reset (R381) -/

/-- Of the memory, module reset leaves what is past the device memory, and of boot it leaves the leaves that have signed (R381). -/
theorem moduleReset {cause : Nat} (h : Keeps s₀ s) : Keeps s₀ (moduleReset s cause) := by
  refine ⟨fun h0 => ?_, h.leaves, h.leaf⟩
  obtain ⟨hm, -, -⟩ := h.mem h0
  obtain ⟨-, hc, hx⟩ := memOk_reset
  exact ⟨Mem.wf_filter _ hm, hc, hx⟩

theorem execPowerOnReset (h : Keeps s₀ s) : OutKeeps s₀ (execPowerOnReset s) := h.moduleReset

theorem execModreset {value : Word} (h : Keeps s₀ s) : OutKeeps s₀ (execModreset value s) := by
  unfold Machine.execModreset
  split
  · exact h.moduleReset
  · exact h

theorem heartbeat (h : Keeps s₀ s) : OutKeeps s₀ (heartbeat s) := by
  unfold Machine.heartbeat
  extract_lets +onlyGivenNames _
  split
  · trivial
  · exact h.boot

theorem execHeartbeatTimeout (h : Keeps s₀ s) : OutKeeps s₀ (execHeartbeatTimeout s) := by
  unfold Machine.execHeartbeatTimeout
  split
  · exact h.moduleReset
  · trivial

/-! ### DIE_FAULT and DIE_RESET_DONE (R22 to R25) -/

theorem dieLost {d : DieId} (h : Keeps s₀ s) : Keeps s₀ (dieLost s d) := by
  unfold Machine.dieLost
  split
  · exact h.moduleReset
  · exact h.loseDie

theorem execDieFault {d : DieId} (h : Keeps s₀ s) : OutKeeps s₀ (execDieFault d s) := by
  unfold Machine.execDieFault
  split
  · exact h.dieLost
  · trivial

theorem poisonPage {x : CtxId} {l : Leaf} (h : Keeps s₀ s) : Keeps s₀ (poisonPage s x l) := by
  unfold Machine.poisonPage
  extract_lets t
  have ht : Keeps s₀ t := by
    unfold t
    split
    · split
      · exact h.dropMove
      · exact h.abandonMove
    · exact h
  exact ht.updateLeaf

theorem recoverFrames {d : DieId} (h : Keeps s₀ s) : Keeps s₀ (recoverFrames s d) := by
  unfold Machine.recoverFrames
  exact (h.foldAll (fun _ _ ht => ht.foldAll (fun _ _ ht2 => ht2.poisonPage))).foldAll fun _ _ ht => ht.freeFrame

theorem loseDram {hashed : List (Nat × Nat)} {d : DieId} (h : Keeps s₀ s) : Keeps s₀ (loseDram s hashed d) := by
  unfold Machine.loseDram
  exact h.frame.modMsAt fun hw => Mem.wf_writeCells _ (Mem.wf_filter _ hw)

theorem execDieResetDone {d : DieId} {pass : Bool} (h : Keeps s₀ s) : OutKeeps s₀ (execDieResetDone d pass s) := by
  unfold Machine.execDieResetDone
  split
  · trivial
  · extract_lets +onlyGivenNames _ t t2 _ _ t4 t5
    have ht : Keeps s₀ t := h.publishAll.recoverFrames
    have ht2 : Keeps s₀ t2 := ht.publishAll.loseDram
    have ht4 : Keeps s₀ t4 := ht2.frame
    have ht5 : Keeps s₀ t5 := ht4.modDie
    split
    · exact ht5.modDie.trainLinks
    · exact ht5.modDie.boot

/-! ### TARGETED_SELFTEST (R323, R377) -/

theorem retireRow {f : Nat} (h : Keeps s₀ s) : Keeps s₀ (retireRow s f) := by
  unfold Machine.retireRow
  split
  · exact h.frame
  · exact h.withdrawFrame

theorem retireStructure {e : Structure} (h : Keeps s₀ s) : Keeps s₀ (retireStructure s e) := by
  unfold Machine.retireStructure
  split
  · split
    · exact h.retireRow
    · exact h
  · exact h.retireRow
  · exact h.markGroup
  · split
    · exact h.dieLost
    · exact h
  · exact h.modDie
  · exact h.modCore
  · exact h
  · exact h
  · exact h
  · exact h
  all_goals exact h.fenceCore

theorem execTargetedSelftest {e : Structure} {pass : Bool} (h : Keeps s₀ s) :
    OutKeeps s₀ (execTargetedSelftest e pass s) := by
  unfold Machine.execTargetedSelftest
  split
  · trivial
  · extract_lets +onlyGivenNames _
    extract_lets +onlyGivenNames t2
    have ht2 : Keeps s₀ t2 := h.frame
    split
    · exact ht2
    · exact ht2.frame.retireStructure

end Keeps

end Sys2Proof.Machine
end

section
/-! Special registers, the budget, the calendar and boot keep the canonical form; a report uses at most one leaf more. -/

namespace Sys2Proof.Machine

open Sys2Proof

variable {s₀ s t : State}

namespace Keeps

/-! ### Special registers (R100, R101, R108) -/

theorem execGets {w : WordF} (h : Keeps s₀ s) : OutKeeps s₀ (execGets w s) :=
  h.runWord fun _ _ ht => ht.takeSources.bind fun _ _ => ht.raise.when <| ht.writeScalar.donePop

theorem execSets {w : WordF} (h : Keeps s₀ s) : OutKeeps s₀ (execSets w s) := by
  unfold Machine.execSets
  extract_lets _
  exact h.runWord fun _ _ ht => ht.takeSources.bind fun _ _ => ht.raise.when <| ht.modBankOf.donePop

theorem trapForm {w : WordF} {brk : Bool} (h : Keeps s₀ s) : OutKeeps s₀ (trapForm w brk s) := by
  unfold Machine.trapForm
  exact h.runWord fun _ _ ht => ht.takeSources.bind fun _ _ => ht.raise

theorem execTrap {w : WordF} (h : Keeps s₀ s) : OutKeeps s₀ (execTrap w s) := h.trapForm

theorem execBrk {w : WordF} (h : Keeps s₀ s) : OutKeeps s₀ (execBrk w s) := h.trapForm

theorem execCyc {w : WordF} (h : Keeps s₀ s) : OutKeeps s₀ (execCyc w s) := h.scalarForm

theorem execPerf {w : WordF} (h : Keeps s₀ s) : OutKeeps s₀ (execPerf w s) := h.scalarForm

/-! ### TUNEQ (R330) -/

theorem execTuneq {w : WordF} (h : Keeps s₀ s) : OutKeeps s₀ (execTuneq w s) := h.scalarForm

theorem execSync {w : WordF} (h : Keeps s₀ s) : OutKeeps s₀ (execSync w s) := h.runB fun _ _ ht => ht.done

/-! ### Facility time and the target (R307 to R310) -/

theorem sumTarget (h : Keeps s₀ s) : Keeps s₀ (sumTarget s) := by
  unfold Machine.sumTarget
  exact h.frame

theorem noteStep (h : Keeps s₀ t) : Keeps s₀ (noteStep s t) := by
  unfold Machine.noteStep
  split
  · exact h.frame
  · exact h

theorem execCurveActivate (h : Keeps s₀ s) : OutKeeps s₀ (execCurveActivate s) := by
  unfold Machine.execCurveActivate
  split
  · trivial
  · split
    · trivial
    · exact h.sumTarget.frame.budgetLog

theorem execCurveExpire (h : Keeps s₀ s) : OutKeeps s₀ (execCurveExpire s) := by
  unfold Machine.execCurveExpire
  split
  · trivial
  · split
    · trivial
    · exact h.sumTarget.frame.budgetLog

theorem execIeee1588TimeLost (h : Keeps s₀ s) : OutKeeps s₀ (execIeee1588TimeLost s) := by
  unfold Machine.execIeee1588TimeLost
  split
  · trivial
  · exact h.sumTarget.frame.noteStep

theorem execIeee1588TimeGained {t : Nat} (h : Keeps s₀ s) : OutKeeps s₀ (execIeee1588TimeGained t s) := by
  unfold Machine.execIeee1588TimeGained
  split
  · trivial
  · exact h.sumTarget.frame.noteStep

/-! ### The boundary (R309 to R313, R325) -/

theorem closePeriod {p : Nat} (h : Keeps s₀ s) : Keeps s₀ (closePeriod s p) := by
  unfold Machine.closePeriod
  exact h.sumTarget.frame

theorem noteBandMiss (h : Keeps s₀ s) : Keeps s₀ (noteBandMiss s) := by
  unfold Machine.noteBandMiss
  extract_lets _
  split
  · exact h.budgetLog
  · exact h

theorem gradeEvents {old new : Nat} (h : Keeps s₀ s) : Keeps s₀ (gradeEvents s old new) := by
  unfold Machine.gradeEvents
  refine h.foldAll fun _ _ ht => ?_
  split
  · exact ht
  all_goals exact ht.logEvent

theorem scheduleLevel {p : Nat} {l : Fin 4} (h : Keeps s₀ s) : Keeps s₀ (scheduleLevel s p l) := by
  unfold Machine.scheduleLevel
  extract_lets +onlyGivenNames _ _
  extract_lets +onlyGivenNames t2
  have ht2 : Keeps s₀ t2 := h.frame
  split
  · exact ht2
  · exact ht2.frame

theorem setGrade {p : Nat} (h : Keeps s₀ s) : Keeps s₀ (setGrade s p) := by
  unfold Machine.setGrade
  extract_lets +onlyGivenNames _ _ g _ _ _
  have hg : Keeps s₀ g := by
    unfold g
    split
    · exact h
    · exact h.frame
  extract_lets +onlyGivenNames _
  split
  · exact hg
  · extract_lets +onlyGivenNames _ _
    extract_lets t4 t5
    have ht4 : Keeps s₀ t4 := hg.frame
    have ht5 : Keeps s₀ t5 := by
      unfold t5
      split
      · exact ht4.budgetLog
      · exact ht4.gradeEvents.budgetLog
    split
    · exact ht5
    · exact ht5.scheduleLevel

theorem announce {p : Nat} (h : Keeps s₀ s) : Keeps s₀ (announce s p) := by
  unfold Machine.announce
  extract_lets _ _ _
  split <;> exact h.frame

theorem execPeriodBoundary (h : Keeps s₀ s) : OutKeeps s₀ (execPeriodBoundary s) := by
  unfold Machine.execPeriodBoundary
  extract_lets +onlyGivenNames _
  split
  · trivial
  · exact h.closePeriod.noteBandMiss.frame.setGrade.announce.frame

/-! ### The slot (R19, R308, R319, R323 to R329) -/

theorem execDrainWindowStart (h : Keeps s₀ s) : OutKeeps s₀ (execDrainWindowStart s) := by
  unfold Machine.execDrainWindowStart
  split
  · trivial
  · exact h.frame

theorem execLevelChange (h : Keeps s₀ s) : OutKeeps s₀ (execLevelChange s) := by
  unfold Machine.execLevelChange
  extract_lets +onlyGivenNames _
  split
  · trivial
  · split
    · trivial
    · exact h.frame

theorem execRefresh (h : Keeps s₀ s) : OutKeeps s₀ (execRefresh s) := by
  unfold Machine.execRefresh
  extract_lets +onlyGivenNames _
  split
  · trivial
  · exact h.frame

theorem addEnergy {x : CtxId} {n : Nat} (h : Keeps s₀ s) : Keeps s₀ (addEnergy s x n) := by
  unfold Machine.addEnergy
  split
  · exact h
  · exact h.modCtx

theorem addKernelEnergy {k : Word} {n : Nat} (h : Keeps s₀ s) : Keeps s₀ (addKernelEnergy s k n) := h.modStats

theorem shareEnergy {m : Meter} (h : Keeps s₀ s) : Keeps s₀ (shareEnergy s m) := by
  unfold Machine.shareEnergy
  exact (h.foldAll (fun _ _ ht => ht.addEnergy.addKernelEnergy)).foldAll fun _ _ ht => ht.addEnergy.foldAll (fun _ _ ht2 =>
      ht2.addKernelEnergy)

theorem measured {m : Meter} (h : Keeps s₀ s) : Keeps s₀ (measured s m) := by
  unfold Machine.measured
  split
  · exact h
  · exact h.frame

theorem execSensorSweep {m : Meter} (h : Keeps s₀ s) : OutKeeps s₀ (execSensorSweep m s) := by
  unfold Machine.execSensorSweep
  extract_lets +onlyGivenNames _
  split
  · trivial
  · exact h.measured.shareEnergy.frame

theorem beginOverrun {e : Structure} {kind : Nat} (h : Keeps s₀ s) : Keeps s₀ (beginOverrun s e kind) := by
  unfold Machine.beginOverrun
  split
  · next e2 => exact (h.takeId.fst e2).frame.foldAll fun _ _ ht => ht.logEvent

theorem execSlotEnd (h : Keeps s₀ s) : OutKeeps s₀ (execSlotEnd s) := by
  unfold Machine.execSlotEnd
  split
  · trivial
  · exact h.frame.foldAll fun _ _ ht => ht.beginOverrun

theorem execOverrunComplete {n : Nat} (h : Keeps s₀ s) : OutKeeps s₀ (execOverrunComplete n s) := by
  unfold Machine.execOverrunComplete
  split
  · trivial
  · split
    · trivial
    · exact h.frame

/-! ### Cadence and islands (R16, R314 to R317) -/

theorem execCadenceCapApply {c : CoreId} (h : Keeps s₀ s) : OutKeeps s₀ (execCadenceCapApply c s) := by
  unfold Machine.execCadenceCapApply
  split
  · trivial
  · exact h.modCtl

/-- A core without power holds cells that the implementation leaves it, written one after another (R16). -/
theorem losePower {c : CoreId} (h : Keeps s₀ s) : Keeps s₀ (losePower s c) := by
  unfold Machine.losePower
  extract_lets n lost word t
  have hw : ∀ k limit, Mem.wf (lost k limit) = true := fun _ _ => Mem.wf_writeCells _ rfl
  have ht : Keeps s₀ t := h.modCoreAt fun _ => ⟨hw _ _, hw _ _⟩
  exact ht.frame

theorem execIslandGate {d : DieId} (h : Keeps s₀ s) : OutKeeps s₀ (execIslandGate d s) := by
  unfold Machine.execIslandGate
  split
  · trivial
  · exact (h.modDie.foldAll (fun _ _ ht => ht.losePower)).gangsBack

theorem execIslandUngate {d : DieId} (h : Keeps s₀ s) : OutKeeps s₀ (execIslandUngate d s) := by
  unfold Machine.execIslandUngate
  split
  · trivial
  · split
    · exact h.modDie
    · trivial

theorem execUngateComplete {d : DieId} (h : Keeps s₀ s) : OutKeeps s₀ (execUngateComplete d s) := by
  unfold Machine.execUngateComplete
  split
  · exact h.modDie
  · trivial

/-! ### Attestation reports (R385, R386) -/

/-- A report uses a leaf only where one is left, and the leaf that it uses is the next. -/
theorem makeReport {result step : Nat} {nonce : List Byte} (h : Keeps s₀ s) :
    Keeps s₀ (makeReport s result step nonce).1 := by
  unfold Machine.makeReport
  split
  · next hl =>
    refine h.trans ⟨id, fun _ => ?_, Nat.le_succ _⟩
    show s.boot.leaf + 1 ≤ 32768
    exact of_decide_eq_true hl
  · exact h

theorem bootReport {result step : Nat} (h : Keeps s₀ s) : Keeps s₀ (bootReport s result step) := by
  unfold Machine.bootReport
  exact h.makeReport.boot

theorem bootFails {step cause : Nat} (h : Keeps s₀ s) : Keeps s₀ (bootFails s step cause) := h.boot.bootReport

/-! ### Steps 3 to 5 (R26, R27, R381) -/

theorem bootReady (h : Keeps s₀ s) : Keeps s₀ (bootReady s) := by
  unfold Machine.bootReady
  split
  · exact h.bootFails
  · exact h.bootReport.boot.scheduleLevel

theorem bootFabric (h : Keeps s₀ s) : Keeps s₀ (bootFabric s) := by
  unfold Machine.bootFabric
  extract_lets _ _ t
  have ht : Keeps s₀ t := h.trans ⟨id, id, Nat.le_refl _⟩
  exact ht.foldAll fun _ _ hu => hu.modLink

theorem bootAdvance (h : Keeps s₀ s) : Keeps s₀ (bootAdvance s) := by
  unfold Machine.bootAdvance
  split
  · exact h
  · extract_lets t
    have ht : Keeps s₀ t := by
      unfold t
      split
      · split
        · exact h.bootFabric
        · exact h.bootFails
      · exact h
    split
    · exact ht.bootReady
    · exact ht

theorem bootDies {results : Vector DieTest 10} {slot : Nat} (h : Keeps s₀ s) : Keeps s₀ (bootDies s results slot) := by
  unfold Machine.bootDies
  exact (h.boot.foldAll (fun _ _ ht => ht.modDie)).foldAll fun _ _ ht => ht.modLink

theorem execBootSelftestDone {results : Vector DieTest 10} (h : Keeps s₀ s) :
    OutKeeps s₀ (execBootSelftestDone results s) := by
  unfold Machine.execBootSelftestDone
  split
  · trivial
  · split
    · exact h.bootFails
    · extract_lets t
      have ht : Keeps s₀ t := h.bootDies
      split
      · exact ht.bootFails
      · exact ht.bootAdvance

theorem execLinkTrainDone {l : LinkId} {g0 g1 : Bool} (h : Keeps s₀ s) : OutKeeps s₀ (execLinkTrainDone l g0 g1 s) := by
  unfold Machine.execLinkTrainDone
  split
  · trivial
  · exact h.trained.bootAdvance

end Keeps

end Sys2Proof.Machine
end

section
/-! Branches, the matrix unit and Plectrum keep the canonical form and the count of leaves. -/

namespace Sys2Proof.Machine

open Sys2Proof

variable {s₀ s t : State}

namespace Keeps

/-! ### Branches and hardware loops (R104, R105) -/

theorem branchTarget {g : Agent} {o : Operand} (h : Keeps s₀ s) : ChecksKeep s₀ (branchTarget s g o) := by
  unfold Machine.branchTarget
  extract_lets _
  split
  · trivial
  · exact h.raise

theorem checkTarget {x : Word} (h : Keeps s₀ s) : ChecksKeep s₀ (checkTarget s x) := by
  unfold Machine.checkTarget
  split
  · exact h.raise
  · split
    · exact h.raise
    · trivial

theorem jump {srcs : List Operand} {pc : VAddr} (h : Keeps s₀ s) : ResKeeps s₀ (DoneKeeps s₀) (jump s srcs pc) := h

theorem execBr {w : WordF} (h : Keeps s₀ s) : OutKeeps s₀ (execBr w s) :=
  h.runWord fun _ _ ht => ht.branchTarget.bind fun _ _ => ht.jump

theorem execBc {w : WordF} (h : Keeps s₀ s) : OutKeeps s₀ (execBc w s) := by
  unfold Machine.execBc
  extract_lets _
  refine h.runWord fun _ _ ht => ht.takeSources.bind fun _ _ => ?_
  extract_lets _
  split
  · split
    · exact ht.branchTarget.bind fun _ _ => ht.jump
    · exact ht.donePop
  · split
    · exact ht.branchTarget.bind fun _ _ => ht.jump
    · exact ht.donePop

theorem setLink {g : Agent} {v : Word} (h : Keeps s₀ s) : Keeps s₀ (setLink s g v) := h.modBankOf

theorem execCall {w : WordF} (h : Keeps s₀ s) : OutKeeps s₀ (execCall w s) :=
  h.runWord fun _ _ ht => ht.branchTarget.bind fun _ _ => ht.setLink.jump

theorem execRet {w : WordF} (h : Keeps s₀ s) : OutKeeps s₀ (execRet w s) := by
  unfold Machine.execRet
  exact h.runWord fun _ _ ht => ht.takeSources.bind fun _ _ => ht.checkTarget.bind fun _ _ => ht.jump

theorem execBri {w : WordF} (h : Keeps s₀ s) : OutKeeps s₀ (execBri w s) := by
  unfold Machine.execBri
  exact h.runWord fun _ _ ht => ht.takeSources.bind fun _ _ => ht.checkTarget.bind fun _ _ => ht.jump

theorem putLc {g : Agent} {n : Fin 4} {v : Word} (h : Keeps s₀ s) : Keeps s₀ (putLc s g n v) := h.modBankOf

theorem execLoopSet {w : WordF} (h : Keeps s₀ s) : OutKeeps s₀ (execLoopSet w s) := by
  unfold Machine.execLoopSet
  exact h.runWord fun _ _ ht => ht.takeSources.bind fun _ _ => ht.putLc.donePop

theorem execLoop {w : WordF} (h : Keeps s₀ s) : OutKeeps s₀ (execLoop w s) := by
  unfold Machine.execLoop
  refine h.runWord fun _ _ ht => ht.raise.when ?_
  extract_lets _
  split
  · exact ht.branchTarget.bind fun _ _ => ht.putLc.jump
  · exact ht.putLc.done

theorem execLbrk {w : WordF} (h : Keeps s₀ s) : OutKeeps s₀ (execLbrk w s) :=
  h.runWord fun _ _ ht => ht.branchTarget.bind fun _ _ => ht.putLc.jump

/-! ### Slots -/

theorem readSlot {c : CoreId} {b : BankId} {r : Ring} {off : Nat} {ok : Nat → Bool} {want : Nat} {ranges : List (Nat × Nat)}
    (h : Keeps s₀ s) : ChecksKeep s₀ (readSlot s c b r off ok want ranges) := by
  unfold Machine.readSlot
  extract_lets +onlyGivenNames _
  split
  · exact h.raise
  · split
    · exact h.raise
    · split
      · exact h.raise
      · trivial

/-! ### Accumulator tiles (R167) -/

theorem checkTile {c : CoreId} {t : Nat} {reads : Nat → Nat → Bool} (h : Keeps s₀ s) :
    ChecksKeep s₀ (checkTile s c t reads) := by
  unfold Machine.checkTile
  split
  · exact h.raise
  · trivial

theorem checkTileUse {c : CoreId} {b : BankId} {t : Nat} (h : Keeps s₀ s) : ChecksKeep s₀ (checkTileUse s c b t) := by
  unfold Machine.checkTileUse
  split
  · trivial
  · exact h.raise

theorem putTile {c : CoreId} {t : Nat} {rows : List (List (Nat × Bool))} (h : Keeps s₀ s) :
    Keeps s₀ (putTile s c t rows) := by
  unfold Machine.putTile
  exact h.modCoreAt fun ⟨hs, ha⟩ => ⟨hs, Mem.wf_store _ _ ha⟩

theorem mapTile {c : CoreId} {b : BankId} {t : Nat} {old : List (List Nat)} {f : Nat → Nat → Nat → Option (Nat × Flagset)}
    (h : Keeps s₀ s) : Keeps s₀ (mapTile s c b t old f) := by
  unfold Machine.mapTile
  exact h.putTile.setMstat

theorem clearTile {c : CoreId} {t : Nat} (h : Keeps s₀ s) : Keeps s₀ (clearTile s c t) := h.putTile

/-! ### What a record uses (R163, R169, R177) -/

theorem checkKinds {g : Agent} {us : List (Fin 8 × List RingKind × Nat × Nat × Option (BitVec 64))} (h : Keeps s₀ s) :
    ChecksKeep s₀ (checkKinds s g us) := by
  induction us with
  | nil => trivial
  | cons u us ih => exact h.needRing.bind fun _ _ => h.raise.when ih

theorem checkRecord {g : Agent} {f : MForm} {r : RecF} (h : Keeps s₀ s) : ChecksKeep s₀ (checkRecord s g f r) := by
  unfold Machine.checkRecord
  extract_lets +onlyGivenNames _ _
  refine h.checkKinds.bind fun _ _ => h.raise.when ?_
  split
  · exact h.raise
  · split
    · exact h.raise
    · refine h.raise.when ?_
      split
      · exact h.raise
      · trivial

theorem acceptRec {g : Agent} {f : MForm} {r : RecF} (h : Keeps s₀ s) : Keeps s₀ (acceptRec s g f r) := by
  unfold Machine.acceptRec
  exact h.modBankOf

theorem matForm {f : MForm} {r : RecF} (h : Keeps s₀ s) : OutKeeps s₀ (matForm f r s) :=
  h.runRec fun _ _ ht => ht.stall.when <| ht.checkRecord.bind fun _ _ => ht.acceptRec.done

theorem execMma {r : RecF} (h : Keeps s₀ s) : OutKeeps s₀ (execMma r s) := h.matForm

theorem execMmas {r : RecF} (h : Keeps s₀ s) : OutKeeps s₀ (execMmas r s) := h.matForm

theorem execMhad {r : RecF} (h : Keeps s₀ s) : OutKeeps s₀ (execMhad r s) := h.matForm

theorem execMclr {r : RecF} (h : Keeps s₀ s) : OutKeeps s₀ (execMclr r s) := h.matForm

theorem execMlda {r : RecF} (h : Keeps s₀ s) : OutKeeps s₀ (execMlda r s) := h.matForm

theorem execMsta {r : RecF} (h : Keeps s₀ s) : OutKeeps s₀ (execMsta r s) := h.matForm

theorem execMscl {r : RecF} (h : Keeps s₀ s) : OutKeeps s₀ (execMscl r s) := h.matForm

theorem execMadda {r : RecF} (h : Keeps s₀ s) : OutKeeps s₀ (execMadda r s) := h.matForm

theorem execMxp {r : RecF} (h : Keeps s₀ s) : OutKeeps s₀ (execMxp r s) := h.matForm

/-! ### Steps (R179 to R184) -/

theorem metaSlot {q : Seq} {m : MatRec} {e : SlotExt} (h : Keeps s₀ s) : ChecksKeep s₀ (metaSlot s q m e) := by
  unfold Machine.metaSlot
  split
  · exact h.readSlot.bind fun _ _ => trivial
  · trivial

theorem stepSlot {q : Seq} {n : Fin 8} {off f packed : Nat} (h : Keeps s₀ s) :
    ChecksKeep s₀ (stepSlot s q n off f packed) := by
  unfold Machine.stepSlot
  exact h.readSlot

theorem checkBitmaps {n : Nat} {t : Slot} {d : Option Slot} (h : Keeps s₀ s) : ChecksKeep s₀ (checkBitmaps s n t d) := by
  unfold Machine.checkBitmaps
  split
  · trivial
  · split
    · exact h.raise
    · trivial

theorem mmaStep {q : Seq} {m : MatRec} (h : Keeps s₀ s) : ResKeeps s₀ (Keeps s₀) (mmaStep s q m) := by
  unfold Machine.mmaStep
  extract_lets +onlyGivenNames _ _ _ _
  exact h.stepSlot.bind fun _ _ => h.stepSlot.bind fun _ _ => h.metaSlot.bind fun _ _ => h.checkBitmaps.when <|
      h.checkTileUse.bind fun _ _ => h.checkTile.when <| h.mapTile.setMstat

theorem checkAppend {q : Seq} {n : Fin 8} {f k : Nat} (h : Keeps s₀ s) : ChecksKeep s₀ (checkAppend s q n f k) := by
  unfold Machine.checkAppend
  extract_lets +onlyGivenNames _ _
  split
  · exact h.raise
  · split
    · exact h.raise
    · trivial

theorem appendPanel {q : Seq} {n : Fin 8} {f : Nat} {e : SlotExt} {runs : List (Nat × List Byte)} (h : Keeps s₀ s) :
    Keeps s₀ (appendPanel s q n f e runs) := by
  unfold Machine.appendPanel
  exact h.spadCells.setRing

theorem mhadStep {q : Seq} {m : MatRec} (h : Keeps s₀ s) : ResKeeps s₀ (fun p => Keeps s₀ p.1) (mhadStep s q m) := by
  unfold Machine.mhadStep
  exact h.stepSlot.bind fun _ _ => h.metaSlot.bind fun _ _ => h.checkAppend.bind fun _ _ => h.appendPanel.setMstat

theorem mclrStep {q : Seq} {m : MatRec} (h : Keeps s₀ s) : ResKeeps s₀ (Keeps s₀) (mclrStep s q m) :=
  h.checkTileUse.bind fun _ _ => h.clearTile

theorem mldaStep {q : Seq} {m : MatRec} (h : Keeps s₀ s) : ResKeeps s₀ (Keeps s₀) (mldaStep s q m) := by
  unfold Machine.mldaStep
  extract_lets _ _
  exact h.stepSlot.bind fun _ _ => h.checkTileUse.bind fun _ _ => h.checkTile.when <| h.mapTile

theorem maddaStep {q : Seq} {m : MatRec} (h : Keeps s₀ s) : ResKeeps s₀ (Keeps s₀) (maddaStep s q m) :=
  h.checkTileUse.bind fun _ _ => h.checkTileUse.bind fun _ _ => h.checkTile.bind fun _ _ => h.checkTile.when <| h.mapTile

theorem msclStep {q : Seq} {m : MatRec} (h : Keeps s₀ s) : ResKeeps s₀ (Keeps s₀) (msclStep s q m) := by
  unfold Machine.msclStep
  exact h.raise.when <| h.checkTileUse.bind fun _ _ => h.checkTile.bind fun _ _ => h.modBank.mapTile

theorem mxpStep {q : Seq} {m : MatRec} (h : Keeps s₀ s) : ResKeeps s₀ (Keeps s₀) (mxpStep s q m) := by
  unfold Machine.mxpStep
  exact h.stepSlot.bind fun _ _ => h.checkAppend.bind fun _ _ => h.appendPanel

/-! ### MSTA (R182) -/

theorem clearAfter {q : Seq} {m : MatRec} (h : Keeps s₀ s) : Keeps s₀ (clearAfter s q m) := by
  unfold Machine.clearAfter
  split
  · exact h.clearTile
  · exact h

theorem mstaStep {q : Seq} {m : MatRec} (h : Keeps s₀ s) : ResKeeps s₀ (Keeps s₀) (mstaStep s q m) := by
  unfold Machine.mstaStep
  extract_lets r f gb a p t half j
  have ht : Keeps s₀ t := h.appendPanel
  have hhalf : ∀ u n, Keeps s₀ u → Keeps s₀ (half u n) := fun u n hu =>
    (hu.appendPanel.appendPanel.ite hu.appendPanel).setMstat
  have hj : ∀ y, ResKeeps s₀ (Keeps s₀) (j y) := by
    intro y
    unfold j
    split
    · exact ht.clearAfter.setMstat
    · exact (hhalf _ _ (hhalf _ _ h)).clearAfter
  refine h.checkTileUse.bind fun _ _ => h.checkTile.bind fun _ _ => h.checkAppend.bind fun _ _ => h.checkAppend.when ?_
  show ResKeeps s₀ (Keeps s₀) (if storesMeta r then _ else j ())
  split
  · exact h.checkAppend.bind fun _ _ => h.checkAppend.bind fun _ _ => hj ()
  · exact hj ()

theorem mstaQueue {q : Seq} {m : MatRec} (h : Keeps s₀ s) : ResKeeps s₀ (fun p => Keeps s₀ p.1) (mstaQueue s q m) :=
  h.checkTileUse.bind fun _ _ => h.checkTile.bind fun _ _ => h.clearAfter.setMstat

/-! ### The sequencer (R168, R170, R173) -/

theorem matStep {q : Seq} {m : MatRec} (h : Keeps s₀ s) : ResKeeps s₀ (fun p => Keeps s₀ p.1) (matStep s q m) := by
  unfold Machine.matStep
  extract_lets whole
  have hw : ∀ r, ResKeeps s₀ (Keeps s₀) r → ResKeeps s₀ (fun p => Keeps s₀ p.1) (whole r) :=
    fun _ hr => hr.bind fun _ ht => ht
  split
  · exact hw _ h.mmaStep
  · exact hw _ h.mmaStep
  · exact h.mhadStep
  · exact hw _ h.mclrStep
  · exact hw _ h.mldaStep
  · split
    · exact h.mstaQueue
    · exact hw _ h.mstaStep
  · exact hw _ h.msclStep
  · exact hw _ h.maddaStep
  · exact hw _ h.mxpStep

theorem setHead {q : Seq} {m : MatRec} (h : Keeps s₀ s) : Keeps s₀ (setHead s q m) := h.modEng

theorem finishRec {q : Seq} {m : MatRec} (h : Keeps s₀ s) : Keeps s₀ (finishRec s q m) := by
  unfold Machine.finishRec
  split
  · exact h.modEng
  · exact h.setHead

theorem afterStep {q : Seq} {m : MatRec} (h : Keeps s₀ s) : Keeps s₀ (afterStep s q m) := by
  unfold Machine.afterStep
  exact h.modBank.finishRec

theorem faultRec {q : Seq} {m : MatRec} {f : FaultInfo} (h : Keeps s₀ s) : Keeps s₀ (faultRec s q m f) := by
  unfold Machine.faultRec
  exact h.setHead.deferFault

theorem pushOut {q : Seq} {m : MatRec} (h : Keeps s₀ s) : Keeps s₀ (pushOut s q m) := by
  unfold Machine.pushOut
  exact h.modBank.finishRec

theorem execMatrixStep {c : CoreId} {b : BankId} (h : Keeps s₀ s) : OutKeeps s₀ (execMatrixStep c b s) := by
  unfold Machine.execMatrixStep
  split
  · trivial
  · extract_lets +onlyGivenNames _
    split
    · exact h.pushOut
    · split
      · trivial
      · extract_lets _ t
        have ht : Keeps s₀ t := h.modAux
        split
        · exact ht.faultRec
        · split
          · next e2 => exact (ht.matStep.ok e2).afterStep
          · next e2 => exact (ht.matStep.fault e2).faultRec
          · trivial

theorem execMatrixPop {c : CoreId} {b : BankId} (h : Keeps s₀ s) : OutKeeps s₀ (execMatrixPop c b s) := by
  unfold Machine.execMatrixPop
  split
  · trivial
  · split
    · trivial
    · extract_lets _
      split
      · trivial
      · split
        · trivial
        · exact h.setRing.finishRec

/-! ### Lists (R333, R334) -/

theorem listRead {g : Agent} {off len : Nat} (h : Keeps s₀ s) : ChecksKeep s₀ (listRead s g off len) := by
  unfold Machine.listRead
  split
  · exact h.raise
  · split
    · exact h.raise
    · trivial

theorem listHeader {g : Agent} {off : Nat} (h : Keeps s₀ s) : ChecksKeep s₀ (listHeader s g off) :=
  h.listRead.bind fun _ _ => h.raise.when <| trivial

theorem listEntries {g : Agent} {off : Nat} (h : Keeps s₀ s) : ChecksKeep s₀ (listEntries s g off) :=
  h.listHeader.bind fun _ _ => h.listRead.bind fun _ _ => h.raise.when <| trivial

theorem currentList {g : Agent} (h : Keeps s₀ s) : ChecksKeep s₀ (currentList s g) := by
  unfold Machine.currentList
  split
  · exact h.raise
  · exact h.listEntries.bind fun _ _ => h.raise.when <| trivial

theorem putList {g : Agent} {off : Nat} {l : List Cand} (h : Keeps s₀ s) : Keeps s₀ (putList s g off l) :=
  h.spadWrite.spadWrite

theorem checkList {g : Agent} {a : Word} (h : Keeps s₀ s) : ChecksKeep s₀ (checkList s g a) := by
  unfold Machine.checkList
  split
  · exact h.raise
  · split
    · exact h.raise
    · trivial

/-! ### PKSET (R337) -/

theorem modPk {g : Agent} {f : Plectrum → Plectrum} (h : Keeps s₀ s) : Keeps s₀ (modPk s g f) := h.modBankOf

theorem setTopk {g : Agent} {a : Nat} (h : Keeps s₀ s) : ResKeeps s₀ (Keeps s₀) (setTopk s g a) := by
  unfold Machine.setTopk
  extract_lets _ t
  have ht : Keeps s₀ t := h.modPk.setFp
  split
  · exact ht
  · refine h.listHeader.bind fun _ _ => ?_
    split
    · exact ht.spadWrite
    · exact ht

theorem setList {g : Agent} {a : Word} (h : Keeps s₀ s) : ResKeeps s₀ (Keeps s₀) (setList s g a) :=
  h.checkList.bind fun _ _ => h.raise.when <| h.modPk.spadWrite

theorem execPkset {w : WordF} (h : Keeps s₀ s) : OutKeeps s₀ (execPkset w s) := by
  unfold Machine.execPkset
  extract_lets _
  refine h.runX fun _ _ ht => ht.takeSources.bind fun _ _ => ?_
  extract_lets _ _
  split
  · exact ht.modPk.donePop
  · exact ht.modPk.donePop
  · exact ht.modPk.donePop
  · exact ht.modPk.setFp.donePop
  · exact ht.setTopk.bind fun _ ht2 => ht2.donePop
  · exact ht.modPk.setFp.donePop
  · exact ht.setList.bind fun _ ht2 => ht2.donePop

/-! ### Draws (R332, R335, R338) -/

theorem execPkrand {w : WordF} (h : Keeps s₀ s) : OutKeeps s₀ (execPkrand w s) := by
  unfold Machine.execPkrand
  exact h.runX fun _ _ ht => ht.takeSources.bind fun _ _ => ht.writeVec.donePop

theorem execPktopk {w : WordF} (h : Keeps s₀ s) : OutKeeps s₀ (execPktopk w s) := by
  unfold Machine.execPktopk
  exact h.runX fun _ _ ht => ht.takeSources.bind fun _ _ => ht.currentList.bind fun _ _ => ht.putList.setFp.donePop

theorem execPkmerge {w : WordF} (h : Keeps s₀ s) : OutKeeps s₀ (execPkmerge w s) := by
  unfold Machine.execPkmerge
  exact h.runX fun _ _ ht => ht.takeSources.bind fun _ _ => ht.checkList.bind fun _ _ => ht.listEntries.bind fun _ _ =>
      ht.currentList.bind fun _ _ => ht.putList.setFp.donePop

theorem execPkdraw {w : WordF} (h : Keeps s₀ s) : OutKeeps s₀ (execPkdraw w s) := by
  unfold Machine.execPkdraw
  exact h.runX fun _ _ ht => ht.takeSources.bind fun _ _ => ht.currentList.bind fun _ _ => ht.writeScalar.setFp.donePop

end Keeps

end Sys2Proof.Machine
end

section
/-! The queue words, the host's registers and the returns of words keep the canonical form and the count of leaves. -/

namespace Sys2Proof.Machine

open Sys2Proof

variable {s₀ s t : State}

namespace Keeps

/-! ### The queue and token forms (R106, R107) -/

theorem execQpush {w : WordF} (h : Keeps s₀ s) : OutKeeps s₀ (execQpush w s) := by
  unfold Machine.execQpush
  exact h.runWord fun _ _ ht => ht.takeSources.bind fun _ _ => ht.modBankOf.donePop

theorem takeForm {w : WordF} {o : Operand} (h : Keeps s₀ s) : OutKeeps s₀ (takeForm w o s) :=
  h.runWord fun _ _ ht => ht.takeSources.bind fun _ _ => ht.writeScalar.donePop

theorem execQpop {w : WordF} (h : Keeps s₀ s) : OutKeeps s₀ (execQpop w s) := h.takeForm

theorem execQpeek {w : WordF} (h : Keeps s₀ s) : OutKeeps s₀ (execQpeek w s) := h.takeForm

theorem execQlen {w : WordF} (h : Keeps s₀ s) : OutKeeps s₀ (execQlen w s) := by
  unfold Machine.execQlen
  refine h.runWord fun _ _ ht => ht.takeSources.bind fun _ _ => ?_
  extract_lets _ _
  split
  · exact ht.writeScalar.done
  · split
    · exact ht.writeScalar.done
    · exact ht.raise

theorem execTkpush {w : WordF} (h : Keeps s₀ s) : OutKeeps s₀ (execTkpush w s) := h.runTokens

theorem execTkpop {w : WordF} (h : Keeps s₀ s) : OutKeeps s₀ (execTkpop w s) := h.runTokens

/-! ### Rings (R388) -/

theorem startRing {r : Fin 16} (h : Keeps s₀ s) : Keeps s₀ (startRing s r) := by
  unfold Machine.startRing
  exact h.modRing16.enterAll

theorem execRingStart {r : Fin 16} (h : Keeps s₀ s) : OutKeeps s₀ (execRingStart r s) := by
  unfold Machine.execRingStart
  split
  · trivial
  · split
    · exact h
    · split
      · exact h.modRing16
      · exact h.startRing

theorem lateStart {r : Fin 16} (h : Keeps s₀ s) : OutKeeps s₀ (lateStart r s) := by
  unfold Machine.lateStart
  split
  · exact h.startRing
  · trivial

theorem execRingDisable {r : Fin 16} (h : Keeps s₀ s) : OutKeeps s₀ (execRingDisable r s) := by
  unfold Machine.execRingDisable
  split
  · trivial
  · split
    · exact h
    · exact h.modRing16

/-! ### Curve records (R304 to R306) -/

theorem acceptCurve {c : Curve} (h : Keeps s₀ s) : Keeps s₀ (acceptCurve s c) := by
  unfold Machine.acceptCurve
  extract_lets +onlyGivenNames _
  extract_lets +onlyGivenNames t2
  have ht2 : Keeps s₀ t2 := h.frame.budgetLog
  split
  · exact ht2.sumTarget.frame.noteStep.budgetLog
  · exact ht2.frame

theorem takeCurve {bs : List Byte} (h : Keeps s₀ s) : Keeps s₀ (takeCurve s bs) := by
  unfold Machine.takeCurve
  extract_lets _
  split
  · exact h.acceptCurve
  · exact h.budgetLog

theorem execCurveSubmit (h : Keeps s₀ s) : OutKeeps s₀ (execCurveSubmit s) := by
  unfold Machine.execCurveSubmit
  split
  · trivial
  · split
    · exact h
    · exact h.boot.takeCurve

/-! ### Attestation and communicators (R385, R386, R389, R391) -/

theorem execAttestRequest (h : Keeps s₀ s) : OutKeeps s₀ (execAttestRequest s) := by
  unfold Machine.execAttestRequest
  split
  · trivial
  · split
    · exact h
    · extract_lets +onlyGivenNames _
      extract_lets +onlyGivenNames _
      split
      · exact h.boot
      · exact h.makeReport.boot

theorem execCommRegister (h : Keeps s₀ s) : OutKeeps s₀ (execCommRegister s) := by
  unfold Machine.execCommRegister
  split
  · trivial
  · split
    · exact h
    · extract_lets _
      split
      · exact h.boot
      · split
        · exact h.boot
        · exact h.modCaux.boot

/-! ### The debug hold (R375, R390) -/

theorem execDbgHold {x : CtxId} {value : Word} (h : Keeps s₀ s) : OutKeeps s₀ (execDbgHold x value s) := by
  unfold Machine.execDbgHold
  split
  · trivial
  · split
    · exact h
    · exact h.modCaux

theorem releaseHeld {w : DbgWrite} {f : State → FrozenAt × Task × Freeze → State} (h : Keeps s₀ s)
    (hf : ∀ (a : State) (b : FrozenAt × Task × Freeze), Keeps s₀ a → Keeps s₀ (f a b)) :
    OutKeeps s₀ (releaseHeld s w f) := by
  unfold Machine.releaseHeld
  split
  · trivial
  · split
    · exact h
    · exact (h.foldAll (fun _ _ ht => hf _ _ ht)).modCaux

theorem execDbgReleaseThaw {w : DbgWrite} (h : Keeps s₀ s) : OutKeeps s₀ (execDbgReleaseThaw w s) :=
  h.releaseHeld fun _ _ ht => ht.decideFrozen

theorem execDbgReleaseCancel {w : DbgWrite} (h : Keeps s₀ s) : OutKeeps s₀ (execDbgReleaseCancel w s) := by
  unfold Machine.execDbgReleaseCancel
  refine h.releaseHeld fun _ _ ht => ?_
  split
  · exact ht
  · exact ht.cancelNode

theorem mailboxesDone (h : Keeps s₀ s) : OutKeeps s₀ (mailboxesDone s) := by
  unfold Machine.mailboxesDone
  extract_lets +onlyGivenNames _
  split
  · trivial
  · exact h.boot

/-! ### Register writes (R379, R387 to R390) -/

theorem writeReg {off : Nat} {v : Word} (h : Keeps s₀ s) : Keeps s₀ (writeReg s off v) := by
  unfold Machine.writeReg
  extract_lets _
  split
  · exact h.modRing16
  · split
    · exact h.boot
    · split
      · exact h.boot
      · split
        · exact h.boot
        · split
          · exact h.boot
          · split
            · exact h.boot
            · exact h

theorem writeDbg {x : CtxId} {v : Word} (h : Keeps s₀ s) : OutKeeps s₀ (writeDbg s x v) := by
  unfold Machine.writeDbg
  split
  · exact h.execDbgReleaseThaw
  · split
    · exact h.execDbgReleaseCancel
    · exact h.execDbgHold

theorem runCommand {off : Nat} {v : Word} (h : Keeps s₀ s) : OutKeeps s₀ (runCommand s off v) := by
  unfold Machine.runCommand
  split
  · extract_lets _
    split
    · exact h.execRingStart
    · split
      · exact h.execRingDisable
      · exact h
  · split
    · exact h.execCurveSubmit
    · split
      · exact h.execAttestRequest
      · split
        · exact h.execCommRegister
        · exact h

theorem execRegWrite {off : Nat} {value : Word} (h : Keeps s₀ s) : OutKeeps s₀ (execRegWrite off value s) := by
  unfold Machine.execRegWrite
  split
  · trivial
  · split
    · exact h.execModreset
    · split
      · exact h
      · split
        · exact h.logViolation
        · split
          · exact h.writeDbg
          · exact h.writeReg.runCommand

/-! ### CXL_MEM_ACCESS (R365, R379) -/

theorem setHostRead {r : Option (List Byte)} (h : Keeps s₀ s) : Keeps s₀ (setHostRead s r) := h.boot

theorem execCxlMemAccess {a : HostAccess} (h : Keeps s₀ s) : OutKeeps s₀ (execCxlMemAccess a s) := by
  unfold Machine.execCxlMemAccess
  split
  · trivial
  · extract_lets _ _
    split
    · split
      · exact h.setHostRead
      · exact h.enterView
    · exact h.logViolation.setHostRead

/-! ### FENCE -/

theorem checkFenceMask {g : Agent} {w : WordF} (h : Keeps s₀ s) : ChecksKeep s₀ (checkFenceMask s g w) := by
  unfold Machine.checkFenceMask
  split
  · extract_lets _
    split
    · split
      · exact h.raise
      · exact h.checkDieMask
    · split
      · exact h.raise
      · exact h.checkDieMask
  · trivial

theorem fenceAcquire {g : Agent} {w : WordF} (h : Keeps s₀ s) : Keeps s₀ (fenceAcquire s g w) := by
  unfold Machine.fenceAcquire
  split
  · exact h.acquireAll
  · exact h

theorem execFence {w : WordF} (h : Keeps s₀ s) : OutKeeps s₀ (execFence w s) := by
  unfold Machine.execFence
  refine h.runB fun _ _ ht => ht.checkFenceMask.bind fun _ _ => ?_
  split
  · exact ht.raise
  · split
    · exact ht.fenceAcquire.done
    · exact ht

/-! ### RESPONSE_RETURN -/

theorem completeWord {g : Agent} {w : WordF} (h : Keeps s₀ s) : Keeps s₀ (completeWord s g w) := h.commitWord

theorem returnRelease {g : Agent} {p : Pending} (h : Keeps s₀ s) (e : returnRelease s g p = some t) : Keeps s₀ t := by
  unfold Machine.returnRelease at e
  split at e
  · cases e
    exact h.wordFault
  · split at e
    · cases e
    · split at e
      · next e1 =>
        have h1 := h.strelStore.ok e1
        split at e
        · cases e
          exact h1.modStOf
        · cases e
          exact h1.completeWord
      · next e1 =>
        cases e
        exact (h.strelStore.fault e1).wordFault
      · next e1 =>
        split at e
        · cases e
        · cases e
          exact h.strelStore.stall e1

theorem atomicAcquire {g : Agent} {p : Pending} (h : Keeps s₀ s) : Keeps s₀ (atomicAcquire s g p) := by
  unfold Machine.atomicAcquire
  split
  · exact h.acquireWrites
  · exact h

theorem returnReg {g : Agent} {p : Pending} (h : Keeps s₀ s) (e : returnReg s g p = some t) : Keeps s₀ t := by
  unfold Machine.returnReg at e
  split at e
  · cases e
    exact h.modMs.wordFault
  · split at e
    · cases e
    · split at e
      · cases e
        exact h.atomicAcquire.writeScalar.completeWord
      · cases e

theorem returned {g : Agent} {p : Pending} (h : Keeps s₀ s) (e : returned s g p = some t) : Keeps s₀ t := by
  unfold Machine.returned at e
  split at e
  · cases e
    exact h.wordFault
  · split at e
    · exact h.returnReg e
    · split at e
      · cases e
        exact h.completeWord
      · cases e
    · split at e
      · cases e
        exact h.completeWord
      · cases e
    · exact h.returnRelease e
    · split at e
      · cases e
        exact h.wordFault
      · split at e
        · cases e
          exact h.completeWord
        · cases e
    · split at e
      · cases e
        exact h.wordFault
      · split at e
        · cases e
          exact h.fenceAcquire.commitB
        · cases e

theorem execResponseReturn {g : Agent} (h : Keeps s₀ s) : OutKeeps s₀ (execResponseReturn g s) := by
  unfold Machine.execResponseReturn
  split
  · trivial
  · split
    · trivial
    · split
      · trivial
      · next e2 => exact h.returned e2

end Keeps

end Sys2Proof.Machine
end

section
/-! The integer, compare, mask and permute forms keep the canonical form and the count of leaves. -/

namespace Sys2Proof.Machine

open Sys2Proof

variable {s₀ s t : State}

namespace Keeps

/-! ### The integer vector forms (R117, R118) -/

theorem intForm {w : WordF} {n : Nat} {f : Bool → Nat → Nat → Nat → Nat → Nat × Flagset} (h : Keeps s₀ s) :
    OutKeeps s₀ (intForm w n f s) := by
  unfold Machine.intForm
  exact h.mapForm

theorem execVadd {w : WordF} (h : Keeps s₀ s) : OutKeeps s₀ (execVadd w s) := h.intForm

theorem execVsub {w : WordF} (h : Keeps s₀ s) : OutKeeps s₀ (execVsub w s) := h.intForm

theorem execVmul {w : WordF} (h : Keeps s₀ s) : OutKeeps s₀ (execVmul w s) := h.intForm

theorem execVmulh {w : WordF} (h : Keeps s₀ s) : OutKeeps s₀ (execVmulh w s) := h.intForm

theorem execVmadd {w : WordF} (h : Keeps s₀ s) : OutKeeps s₀ (execVmadd w s) := h.intForm

theorem execVsadd {w : WordF} (h : Keeps s₀ s) : OutKeeps s₀ (execVsadd w s) := h.intForm

theorem execVssub {w : WordF} (h : Keeps s₀ s) : OutKeeps s₀ (execVssub w s) := h.intForm

theorem execVand {w : WordF} (h : Keeps s₀ s) : OutKeeps s₀ (execVand w s) := h.intForm

theorem execVor {w : WordF} (h : Keeps s₀ s) : OutKeeps s₀ (execVor w s) := h.intForm

theorem execVxor {w : WordF} (h : Keeps s₀ s) : OutKeeps s₀ (execVxor w s) := h.intForm

theorem execVandn {w : WordF} (h : Keeps s₀ s) : OutKeeps s₀ (execVandn w s) := h.intForm

theorem execVshl {w : WordF} (h : Keeps s₀ s) : OutKeeps s₀ (execVshl w s) := h.intForm

theorem execVshr {w : WordF} (h : Keeps s₀ s) : OutKeeps s₀ (execVshr w s) := h.intForm

theorem execVsra {w : WordF} (h : Keeps s₀ s) : OutKeeps s₀ (execVsra w s) := h.intForm

theorem execVmin {w : WordF} (h : Keeps s₀ s) : OutKeeps s₀ (execVmin w s) := h.intForm

theorem execVmax {w : WordF} (h : Keeps s₀ s) : OutKeeps s₀ (execVmax w s) := h.intForm

theorem execVabs {w : WordF} (h : Keeps s₀ s) : OutKeeps s₀ (execVabs w s) := h.intForm

theorem execVneg {w : WordF} (h : Keeps s₀ s) : OutKeeps s₀ (execVneg w s) := h.intForm

theorem execVclz {w : WordF} (h : Keeps s₀ s) : OutKeeps s₀ (execVclz w s) := h.intForm

theorem execVpopc {w : WordF} (h : Keeps s₀ s) : OutKeeps s₀ (execVpopc w s) := h.intForm

theorem execVdot4 {w : WordF} (h : Keeps s₀ s) : OutKeeps s₀ (execVdot4 w s) := by
  unfold Machine.execVdot4
  exact h.runX fun _ _ ht => ht.takeSources.bind fun _ _ => ht.putElems.donePop

/-! ### The compare and mask forms (R123, R124) -/

theorem cmpForm {w : WordF} {f : Nat → Nat → Bool} (h : Keeps s₀ s) : OutKeeps s₀ (cmpForm w f s) := by
  unfold Machine.cmpForm
  exact h.runX fun _ _ ht => ht.takeSources.bind fun _ _ => ht.putMask.donePop

theorem execVcmp {w : WordF} (h : Keeps s₀ s) : OutKeeps s₀ (execVcmp w s) := by
  unfold Machine.execVcmp
  exact h.cmpForm

theorem execFcmp {w : WordF} (h : Keeps s₀ s) : OutKeeps s₀ (execFcmp w s) := h.cmpForm

theorem maskForm {w : WordF} {n : Nat} {f : Word → Word → Word} (h : Keeps s₀ s) : OutKeeps s₀ (maskForm w n f s) := by
  unfold Machine.maskForm
  exact h.runX fun _ _ ht => ht.takeSources.bind fun _ _ => ht.putMask.donePop

theorem execMand {w : WordF} (h : Keeps s₀ s) : OutKeeps s₀ (execMand w s) := h.maskForm

theorem execMor {w : WordF} (h : Keeps s₀ s) : OutKeeps s₀ (execMor w s) := h.maskForm

theorem execMxor {w : WordF} (h : Keeps s₀ s) : OutKeeps s₀ (execMxor w s) := h.maskForm

theorem execMnot {w : WordF} (h : Keeps s₀ s) : OutKeeps s₀ (execMnot w s) := h.maskForm

theorem maskCount {w : WordF} {f : Word → Nat} (h : Keeps s₀ s) : OutKeeps s₀ (maskCount w f s) := by
  unfold Machine.maskCount
  exact h.runX fun _ _ ht => ht.takeSources.bind fun _ _ => ht.putVec.donePop

theorem execMpopc {w : WordF} (h : Keeps s₀ s) : OutKeeps s₀ (execMpopc w s) := h.maskCount

theorem execMfirst {w : WordF} (h : Keeps s₀ s) : OutKeeps s₀ (execMfirst w s) := h.maskCount

theorem execVsel {w : WordF} (h : Keeps s₀ s) : OutKeeps s₀ (execVsel w s) := by
  unfold Machine.execVsel
  exact h.runX fun _ _ ht => ht.takeSources.bind fun _ _ => ht.putVec.donePop

theorem execMset {w : WordF} (h : Keeps s₀ s) : OutKeeps s₀ (execMset w s) := by
  unfold Machine.execMset
  exact h.runX fun _ _ ht => ht.takeSources.bind fun _ _ => ht.putMask.donePop

/-! ### The permute -/

theorem permForm {w : WordF} {srcs : List Operand} {f : State → Agent → Nat → (Nat → Nat) → Nat → Nat} (h : Keeps s₀ s) :
    OutKeeps s₀ (permForm w srcs f s) := by
  unfold Machine.permForm
  exact h.runX fun _ _ ht => ht.takeSources.bind fun _ _ => ht.putVec.donePop

theorem execVbcast {w : WordF} (h : Keeps s₀ s) : OutKeeps s₀ (execVbcast w s) := by
  unfold Machine.execVbcast
  exact h.permForm

theorem execVshuf {w : WordF} (h : Keeps s₀ s) : OutKeeps s₀ (execVshuf w s) := by
  unfold Machine.execVshuf
  exact h.permForm

theorem execVrot {w : WordF} (h : Keeps s₀ s) : OutKeeps s₀ (execVrot w s) := by
  unfold Machine.execVrot
  exact h.permForm

theorem execVslide {w : WordF} (h : Keeps s₀ s) : OutKeeps s₀ (execVslide w s) := by
  unfold Machine.execVslide
  exact h.permForm

theorem redForm {w : WordF} {f : State → Agent → List Nat → Nat × Flagset} {rounds : Bool} (h : Keeps s₀ s) :
    OutKeeps s₀ (redForm w f s rounds) := by
  unfold Machine.redForm
  exact h.runX fun _ _ ht => ht.takeSources.bind fun _ _ => ht.putElems.donePop

theorem execVredadd {w : WordF} (h : Keeps s₀ s) : OutKeeps s₀ (execVredadd w s) := h.redForm

theorem execVredmax {w : WordF} (h : Keeps s₀ s) : OutKeeps s₀ (execVredmax w s) := h.redForm

theorem execVredmin {w : WordF} (h : Keeps s₀ s) : OutKeeps s₀ (execVredmin w s) := h.redForm

theorem execVscan {w : WordF} (h : Keeps s₀ s) : OutKeeps s₀ (execVscan w s) := by
  unfold Machine.execVscan
  exact h.runX fun _ _ ht => ht.takeSources.bind fun _ _ => ht.putElems.donePop

theorem execViota {w : WordF} (h : Keeps s₀ s) : OutKeeps s₀ (execViota w s) := by
  unfold Machine.execViota
  exact h.runX fun _ _ ht => ht.takeSources.bind fun _ _ => ht.putVec.donePop

theorem execVcmprs {w : WordF} (h : Keeps s₀ s) : OutKeeps s₀ (execVcmprs w s) := by
  unfold Machine.execVcmprs
  exact h.runX fun _ _ ht => ht.takeSources.bind fun _ _ => ht.putVec.donePop

theorem execVexpnd {w : WordF} (h : Keeps s₀ s) : OutKeeps s₀ (execVexpnd w s) := by
  unfold Machine.execVexpnd
  exact h.permForm

theorem execVmov {w : WordF} (h : Keeps s₀ s) : OutKeeps s₀ (execVmov w s) := h.permForm

theorem execVlit {w : WordF} (h : Keeps s₀ s) : OutKeeps s₀ (execVlit w s) := h.permForm

theorem execVins {w : WordF} (h : Keeps s₀ s) : OutKeeps s₀ (execVins w s) := by
  unfold Machine.execVins
  exact h.permForm

theorem execVext {w : WordF} (h : Keeps s₀ s) : OutKeeps s₀ (execVext w s) := by
  unfold Machine.execVext
  exact h.runX fun _ _ ht => ht.takeSources.bind fun _ _ => ht.putVec.donePop

end Keeps

end Sys2Proof.Machine
end

section
/-! The dispatch of every instruction, the turn of the machine and its step keep the canonical form and the leaves. -/

namespace Sys2Proof.Machine

open Sys2Proof

variable {s₀ s t : State}

namespace Keeps

/-! ### The words of Instr alone -/

theorem wordExec {i : Instr} (h : Keeps s₀ s) : OutKeeps s₀ (wordExec i s) := by
  unfold Machine.wordExec
  split
  any_goals trivial
  exacts [h.execNop, h.execMov, h.execAdd, h.execSub, h.execMul, h.execMulh, h.execDiv, h.execRem, h.execAnd, h.execOr,
    h.execXor, h.execShl, h.execShr, h.execSra, h.execMin, h.execMax, h.execSet, h.execSel, h.execMadd, h.execScale,
    h.execClz, h.execPopc, h.execBfx, h.execBfi, h.execBr, h.execBc, h.execCall, h.execRet, h.execBri, h.execLoopSet,
    h.execLoop, h.execLbrk, h.execQpush, h.execQpop, h.execQpeek, h.execQlen, h.execTkpush, h.execTkpop, h.execGets,
    h.execSets, h.execTrap, h.execBrk, h.execCyc, h.execPerf, h.execBarinit, h.execBararr, h.execBartry, h.execGbararr,
    h.execGbartry, h.execWaittl, h.execTlget, h.execSetwt, h.execTuneq, h.execSpawn, h.execRenq, h.execKlaunch,
    h.execKwait, h.execKretry, h.execKcancelTask, h.execKcancelKern, h.execQthaw, h.execLd, h.execLdq, h.execLdqDec,
    h.execLdqs, h.execGathq, h.execStrm, h.execStrmx, h.execRfill, h.execRfillg, h.execPref, h.execLdacq,
    h.execWaitaddr, h.execRdrop, h.execRinit, h.execAadd, h.execAfadd, h.execAmin, h.execAmax, h.execAand, h.execAor,
    h.execAxor, h.execAswp, h.execAcas, h.execAincw, h.execCpy, h.execCpyh, h.execMigr, h.execPin, h.execUnpin,
    h.execColl, h.execDigest, h.execTlbinv, h.execPgzero, h.execSt, h.execStq, h.execStqEnc, h.execStqs, h.execScatq,
    h.execDrn, h.execDrnx, h.execRdrain, h.execRedsp, h.execSendh, h.execStrel, h.execZero, h.execClean, h.execInval,
    h.execVadd, h.execVsub, h.execVmul, h.execVmulh, h.execVmadd, h.execVsadd, h.execVssub, h.execVand, h.execVor,
    h.execVxor, h.execVandn, h.execVshl, h.execVshr, h.execVsra, h.execVmin, h.execVmax, h.execVabs, h.execVneg,
    h.execVclz, h.execVpopc, h.execVdot4, h.execFadd, h.execFsub, h.execFmul, h.execFfma, h.execFfnma, h.execFmin,
    h.execFmax, h.execFabs, h.execFneg, h.execFdiv, h.execFsqrt, h.execFexp, h.execFexp2, h.execFlog2, h.execFtanh,
    h.execFrnd, h.execFclass, h.execVcmp, h.execFcmp, h.execMand, h.execMor, h.execMxor, h.execMnot, h.execMpopc,
    h.execMfirst, h.execVsel, h.execMset, h.execCvt, h.execPack, h.execUnpack, h.execQenc, h.execQdec, h.execVbcast,
    h.execVshuf, h.execVrot, h.execVslide, h.execVredadd, h.execVredmax, h.execVredmin, h.execVscan, h.execViota,
    h.execVcmprs, h.execVexpnd, h.execVmov, h.execVlit, h.execVins, h.execVext, h.execPkset, h.execPkrand, h.execPktopk,
    h.execPkmerge, h.execPkdraw, h.execMma, h.execMmas, h.execMhad, h.execMclr, h.execMlda, h.execMsta, h.execMscl,
    h.execMadda, h.execMxp, h.execFence, h.execYieldTl, h.execYieldNb, h.execYieldGb, h.execYieldArr, h.execTend,
    h.execKtrig, h.execSync]

/-! ### The word at a PC -/

theorem thawRaw {g : Agent} (h : Keeps s₀ s) : OutKeeps s₀ (thawRaw s g) := by
  unfold Machine.thawRaw
  extract_lets _ _
  split
  · exact h.runB fun _ _ ht => ht.done
  · exact h.evalWord fun _ _ ht => ht.done

theorem latchWord {g : Agent} {i : Instr} (h : Keeps s₀ s) : Keeps s₀ (latchWord s g i) := h.settleSpad.modStOf

theorem evalHere {f : Instr → State → Out} {g : Agent} (hf : ∀ (a : Instr) (b : State), Keeps s₀ b → OutKeeps s₀ (f a b))
    (h2 : Keeps s₀ s) : OutKeeps s₀ (evalHere f s g) := by
  unfold Machine.evalHere
  extract_lets +onlyGivenNames t
  have ht : Keeps s₀ t := h2.frame
  split
  · trivial
  · split
    · exact hf _ _ ht
    · extract_lets t2
      have ht2 : Keeps s₀ t2 := ht.textServed
      split
      · exact ht2.skipWord
      · next e2 =>
          split
          · exact ht2.thawRaw
          · exact Keeps.fetchStop (ht2.fetchInstr.stop e2)
      · exact hf _ _ ht2.latchWord

/-! ### WORD_RESUME (R33, R84, R86) -/

theorem wordNow {g : Agent} (h : Keeps s₀ s) (e : wordNow s g = some t) : Keeps s₀ t := by
  unfold Machine.wordNow at e
  extract_lets r r' at e
  have hr : Keeps s₀ r := h.modStOf
  have hr' : Keeps s₀ r' := hr.modBankOf.ite hr
  split at e
  · next e1 =>
    split at e
    · cases e
      exact (hr'.evalHere fun _ _ hu => hu.wordExec).next e1
    · cases e
  · cases e
  · cases e

theorem execWordResume {g : Agent} (h : Keeps s₀ s) : OutKeeps s₀ (execWordResume g s) := by
  unfold Machine.execWordResume
  extract_lets +onlyGivenNames _
  split
  · trivial
  · split
    · trivial
    · next e =>
        split
        · exact h.modStOf
        · split
          · trivial
          · split
            · exact h.wordNow e
            · exact (h.wordNow e).modBankOf

/-! ### WAITADDR_WAKE (R208) -/

theorem execWaitaddrWake {g : Agent} (h : Keeps s₀ s) : OutKeeps s₀ (execWaitaddrWake g s) := by
  unfold Machine.execWaitaddrWake
  extract_lets _
  split
  · trivial
  · split
    · exact h.modStOf
    · trivial

/-! ### DEFERRED_FAULT (R86, R370) -/

theorem execDeferredFault {g : Agent} (h : Keeps s₀ s) : OutKeeps s₀ (execDeferredFault g s) := by
  unfold Machine.execDeferredFault
  extract_lets _
  split
  · trivial
  · split
    · exact h.takeDeferred
    · trivial

/-! ### STREAM_STOP (R85) -/

theorem execStreamStop {g : Agent} (h : Keeps s₀ s) : OutKeeps s₀ (execStreamStop g s) := by
  unfold Machine.execStreamStop
  split
  · trivial
  · split
    · trivial
    · exact h.modStOf.freezeIfStill

/-! ### The dispatch of every instruction to its meaning -/

theorem exec {i : Instr} (h : Keeps s₀ s) : OutKeeps s₀ (exec i s) := by
  unfold Machine.exec
  split
  exacts [h.execNop, h.execMov, h.execAdd, h.execSub, h.execMul, h.execMulh, h.execDiv, h.execRem, h.execAnd, h.execOr,
    h.execXor, h.execShl, h.execShr, h.execSra, h.execMin, h.execMax, h.execSet, h.execSel, h.execMadd, h.execScale,
    h.execClz, h.execPopc, h.execBfx, h.execBfi, h.execBr, h.execBc, h.execCall, h.execRet, h.execBri, h.execLoopSet,
    h.execLoop, h.execLbrk, h.execQpush, h.execQpop, h.execQpeek, h.execQlen, h.execTkpush, h.execTkpop, h.execGets,
    h.execSets, h.execTrap, h.execBrk, h.execCyc, h.execPerf, h.execBarinit, h.execBararr, h.execBartry, h.execGbararr,
    h.execGbartry, h.execWaittl, h.execTlget, h.execSetwt, h.execTuneq, h.execSpawn, h.execRenq, h.execKlaunch,
    h.execKwait, h.execKretry, h.execKcancelTask, h.execKcancelKern, h.execQthaw, h.execLd, h.execLdq, h.execLdqDec,
    h.execLdqs, h.execGathq, h.execStrm, h.execStrmx, h.execRfill, h.execRfillg, h.execPref, h.execLdacq,
    h.execWaitaddr, h.execRdrop, h.execRinit, h.execAadd, h.execAfadd, h.execAmin, h.execAmax, h.execAand, h.execAor,
    h.execAxor, h.execAswp, h.execAcas, h.execAincw, h.execCpy, h.execCpyh, h.execMigr, h.execPin, h.execUnpin,
    h.execColl, h.execDigest, h.execTlbinv, h.execPgzero, h.execSt, h.execStq, h.execStqEnc, h.execStqs, h.execScatq,
    h.execDrn, h.execDrnx, h.execRdrain, h.execRedsp, h.execSendh, h.execStrel, h.execZero, h.execClean, h.execInval,
    h.execVadd, h.execVsub, h.execVmul, h.execVmulh, h.execVmadd, h.execVsadd, h.execVssub, h.execVand, h.execVor,
    h.execVxor, h.execVandn, h.execVshl, h.execVshr, h.execVsra, h.execVmin, h.execVmax, h.execVabs, h.execVneg,
    h.execVclz, h.execVpopc, h.execVdot4, h.execFadd, h.execFsub, h.execFmul, h.execFfma, h.execFfnma, h.execFmin,
    h.execFmax, h.execFabs, h.execFneg, h.execFdiv, h.execFsqrt, h.execFexp, h.execFexp2, h.execFlog2, h.execFtanh,
    h.execFrnd, h.execFclass, h.execVcmp, h.execFcmp, h.execMand, h.execMor, h.execMxor, h.execMnot, h.execMpopc,
    h.execMfirst, h.execVsel, h.execMset, h.execCvt, h.execPack, h.execUnpack, h.execQenc, h.execQdec, h.execVbcast,
    h.execVshuf, h.execVrot, h.execVslide, h.execVredadd, h.execVredmax, h.execVredmin, h.execVscan, h.execViota,
    h.execVcmprs, h.execVexpnd, h.execVmov, h.execVlit, h.execVins, h.execVext, h.execPkset, h.execPkrand, h.execPktopk,
    h.execPkmerge, h.execPkdraw, h.execMma, h.execMmas, h.execMhad, h.execMclr, h.execMlda, h.execMsta, h.execMscl,
    h.execMadda, h.execMxp, h.execFence, h.execYieldTl, h.execYieldNb, h.execYieldGb, h.execYieldArr, h.execTend,
    h.execKtrig, h.execSync, h.execWordResume, h.execWaitaddrWake, h.execTaskDispatch, h.execShadowSwap,
    h.execShadowBankStart, h.execActiveBankResume, h.execStreamStop, h.execDeferredFault, h.execStreamEngineStep,
    h.execQueueAtomicResult, h.execMatrixStep, h.execMatrixPop, h.execCopyPiece, h.execMigratorPage, h.execMoveCommit,
    h.execCollectiveStep, h.execAtomicAtHome, h.execStoreBufferDrain, h.execWriteApply, h.execSendhArrival,
    h.execRedspArrival, h.execGbarCount, h.execContReady, h.execPageWalk, h.execEccError, h.execRefetchComplete,
    h.execRepairTimeout, h.execHostFlipAccess, h.execAtsInvalidate, h.execCapoEvict, h.execDieFault, h.execDieResetDone,
    h.execIslandGate, h.execIslandUngate, h.execUngateComplete, h.execFlitSend, h.execFlitReceive, h.execReplayTimeout,
    h.execLinkTrainDone, h.execLinkAckTimeout, h.execHostLinkDown, h.execRingTailRead, h.execLaunch, h.execCtxopen,
    h.execCtxready, h.execWsload, h.execCtxquiesce, h.execCtxrelease, h.execQuiesceComplete, h.execWsloadBegin,
    h.execKernelAdmit, h.execTileQueueFill, h.execGangReserve, h.execGangBankHold, h.execPeriodBoundary,
    h.execDrainWindowStart, h.execLevelChange, h.execRefresh, h.execSensorSweep, h.execTargetedSelftest, h.execSlotEnd,
    h.execOverrunComplete, h.execCadenceCapApply, h.execParkImage, h.execImageResume, h.execShedEnd,
    h.execCurveActivate, h.execCurveExpire, h.execHeartbeatTimeout, h.execPowerOnReset, h.execBootSelftestDone,
    h.execModreset, h.execRingStart, h.execRingDisable, h.execCurveSubmit, h.execAttestRequest, h.execCommRegister,
    h.execDbgHold, h.execDbgReleaseThaw, h.execDbgReleaseCancel, h.execRegWrite, h.execExtendedSlotRetrain,
    h.execIeee1588TimeLost, h.execIeee1588TimeGained, h.execCxlMemAccess, h.execResponseReturn]

/-! ### Who moves next -/

theorem wordTurn {g : Agent} (h : Keeps s₀ s) : OutKeeps s₀ (wordTurn s g) := h.evalHere fun _ _ ht => ht.exec

/-! ### The clock (R20, R21, R85, R109, R269, R307, R327) -/

theorem noteRan {c : CoreId} (h : Keeps s₀ s) : Keeps s₀ (noteRan s c) := by
  unfold Machine.noteRan
  extract_lets +onlyGivenNames _ _
  split
  · exact h
  · exact h.frame

theorem noteIdle (h : Keeps s₀ s) : Keeps s₀ (noteIdle s) := by
  unfold Machine.noteIdle
  split
  · exact h
  · exact h.frame

theorem tickCore {c : CoreId} (h : Keeps s₀ s) : Keeps s₀ (tickCore s c) := by
  unfold Machine.tickCore
  extract_lets t k issue u
  have ht : Keeps s₀ t := h.settleSpad
  split
  · exact ht
  · exact ht.noteRan.setCore (ht.core c)

theorem tickTurn (h : Keeps s₀ s) : Keeps s₀ (tickTurn s) := by
  unfold Machine.tickTurn
  exact (h.foldAll (fun _ _ ht => ht.tickCore)).noteIdle.frame.foldAll fun _ _ ht => ht.takeCadence

/-! ### The events that are due -/

theorem eventNow {a : Event} (h : Keeps s₀ s) (ha : ∀ t, Keeps s₀ t → OutKeeps s₀ (a t)) (e : eventNow s a = some t) :
    Keeps s₀ t := by
  unfold Machine.eventNow at e
  split at e
  · next e1 =>
    cases e
    exact (ha s h).next e1
  · cases e
  · cases e

/-! ### The streams' turns (R20, R81, R84, R327) -/

theorem streamNow {i : Nat} (h : Keeps s₀ s) (e : streamNow s i = some t) : Keeps s₀ t := by
  unfold Machine.streamNow at e
  dsimp only at e
  split at e
  · cases e
  · split at e
    · split at e
      · next e1 =>
        cases e
        exact (h.wordTurn.next e1).frame
      · cases e
      · cases e
    · split at e
      · obtain ⟨u, e1, rfl⟩ := Option.map_eq_some_iff.1 e
        exact (h.eventNow (fun _ hu => hu.execWordResume) e1).frame
      · cases e

end Keeps

/-! ### The events of the module's own turn -/

/-- Every event of a list keeps the two. -/
def EventsKeep (l : List Event) : Prop := ∀ a ∈ l, ∀ s₀ s, Keeps s₀ s → OutKeeps s₀ (a s)

namespace EventsKeep

variable {k l : List Event} {a : Event} {α : Type} {xs : List α}

theorem nil : EventsKeep [] := fun _ ha => absurd ha List.not_mem_nil

theorem cons (ha : ∀ {s₀ s : State}, Keeps s₀ s → OutKeeps s₀ (a s)) (hl : EventsKeep l) : EventsKeep (a :: l) := by
  intro b hb
  rcases List.mem_cons.1 hb with rfl | hb
  · exact fun _ _ => ha
  · exact hl b hb

theorem one (ha : ∀ {s₀ s : State}, Keeps s₀ s → OutKeeps s₀ (a s)) : EventsKeep [a] := cons ha nil

theorem append (hk : EventsKeep k) (hl : EventsKeep l) : EventsKeep (k ++ l) :=
  fun a ha => (List.mem_append.1 ha).elim (hk a) (hl a)

theorem ite {c : Prop} [Decidable c] (hk : EventsKeep k) (hl : EventsKeep l) : EventsKeep (if c then k else l) := by
  split
  · exact hk
  · exact hl

theorem map {f : α → Event} (hf : ∀ {s₀ s : State} (x), Keeps s₀ s → OutKeeps s₀ (f x s)) : EventsKeep (xs.map f) := by
  intro a ha
  obtain ⟨x, _, rfl⟩ := List.mem_map.1 ha
  exact fun _ _ => hf x

theorem flatMap {f : α → List Event} (hf : ∀ x, EventsKeep (f x)) : EventsKeep (xs.flatMap f) := by
  intro a ha
  obtain ⟨x, _, hx⟩ := List.mem_flatMap.1 ha
  exact hf x a hx

theorem memEvents (s : State) : EventsKeep (memEvents s) :=
  (map fun _ h => h.execWriteApply).append (flatMap fun _ => map fun _ h => h.execWriteApply)
    |>.append (map fun _ h => h.execAtomicAtHome) |>.append (map fun _ h => h.execSendhArrival)
    |>.append (map fun _ h => h.execGbarCount) |>.append (flatMap fun _ => cons (·.execMoveCommit) (one (·.execRepairTimeout)))

theorem linkEvents (s : State) (l : LinkId) : EventsKeep (linkEvents s l) :=
  ite nil <| (ite (one (·.execFlitReceive)) nil).append (ite nil (one (·.execFlitSend)))
    |>.append (ite (one (·.execFlitSend)) nil) |>.append (ite nil (cons (·.execLinkAckTimeout) (one (·.execReplayTimeout))))

theorem ringEvents (s : State) (r : Fin 16) : EventsKeep (ringEvents s r) :=
  ite (one (·.lateStart)) <| ite nil <| (ite nil (one (·.execRingTailRead))).append <| cons (·.execLaunch) <|
    cons (·.execCtxopen) <| cons (·.execCtxready) <| cons (·.execWsload) <| cons (·.execCtxquiesce) <| one (·.execCtxrelease)

theorem dieEvents (s : State) (d : DieId) : EventsKeep (dieEvents s d) := by
  unfold Machine.dieEvents
  extract_lets k
  refine (flatMap fun i => ?_).append (map fun _ h => h.execCollectiveStep) |>.append (one (·.execMigratorPage))
    |>.append (ite (one (·.execIslandUngate)) nil) |>.append (ite (one (·.execUngateComplete)) nil)
    |>.append (ite (one (·.execIslandGate)) nil)
  split
  · exact nil
  · exact ite nil (one (·.execCopyPiece))

theorem ctxEvents (s : State) (x : CtxId) : EventsKeep (ctxEvents s x) :=
  ite nil <| (cons (·.execQuiesceComplete) <| cons (·.execWsloadBegin) <| one (·.execKernelAdmit))
    |>.append (map fun _ h => h.execImageResume) |>.append (map fun _ h => h.execContReady)

theorem bankEvents (s : State) (c : CoreId) (b : BankId) : EventsKeep (bankEvents s c b) :=
  (ite nil (one (·.execStoreBufferDrain))).append <| ite nil <|
    (flatMap fun _ => (ite (one (·.execResponseReturn)) nil).append (ite nil (one (·.execDeferredFault)))
        |>.append (ite (one (·.execWaitaddrWake)) nil) |>.append (ite (one (·.execStreamStop)) nil))
      |>.append (flatMap fun _ => ite nil (one (·.execStreamEngineStep)))
      |>.append (ite nil (map fun _ h => h.execQueueAtomicResult))
      |>.append (ite nil (cons (·.execMatrixPop) (one (·.execMatrixStep)))) |>.append (one (·.execParkImage))

theorem coreEvents (s : State) (c : CoreId) : EventsKeep (coreEvents s c) :=
  (bankEvents s c .shadow).append (bankEvents s c .active)
    |>.append (ite nil (cons (·.execShadowBankStart) (one (·.execActiveBankResume))))
    |>.append (ite nil (one (·.execGangBankHold)))
    |>.append (ite nil (cons (·.execShadowSwap) (one (·.execTaskDispatch))))
    |>.append (ite nil (one (·.execCadenceCapApply)))

theorem ownEvents (s : State) : EventsKeep (ownEvents s) :=
  (cons (·.execCurveActivate) <| cons (·.execCurveExpire) <| cons (·.execPeriodBoundary) <| cons (·.execDrainWindowStart) <|
    cons (·.execLevelChange) <| cons (·.execRefresh) <| cons (·.execSlotEnd) <| cons (·.execShedEnd) <| cons (·.heartbeat) <|
    cons (·.execHeartbeatTimeout) <| cons (·.mailboxesDone) <| cons (·.evictWithdrawn) <| cons (·.strandOne) <|
    cons (·.nodesDone) <| one (·.kernelsDone))
    |>.append (flatMap (linkEvents s)) |>.append (flatMap (ringEvents s)) |>.append (memEvents s)
    |>.append (flatMap (dieEvents s)) |>.append (flatMap (ctxEvents s)) |>.append (one (·.execGangReserve))
    |>.append (ite nil (map fun _ h => h.execTileQueueFill)) |>.append (flatMap (coreEvents s))
    |>.append (map fun _ h => h.execOverrunComplete)

theorem lateEvents (s : State) : EventsKeep (lateEvents s) :=
  map fun _ h => h.execRedspArrival

end EventsKeep

namespace Keeps

theorem ownTurn (h : Keeps s₀ s) : Keeps s₀ (ownTurn s) := by
  unfold Machine.ownTurn
  split
  · next e =>
    obtain ⟨a, ha, e1⟩ := List.exists_of_findSome?_eq_some e
    exact h.eventNow (EventsKeep.ownEvents s a ha _) e1
  · split
    · next e =>
      obtain ⟨i, _, e1⟩ := List.exists_of_findSome?_eq_some e
      exact h.streamNow e1
    · split
      · next e =>
        obtain ⟨a, ha, e1⟩ := List.exists_of_findSome?_eq_some e
        exact (h.eventNow (EventsKeep.lateEvents s a ha _) e1).frame
      · exact h.tickTurn

theorem bindHandle {x : CtxId} {h : Handle} (k : Keeps s₀ s) : Keeps s₀ (bindHandle s x h) := by
  unfold Machine.bindHandle
  split
  · exact k
  · exact k.modCaux

theorem hostStore {cells : List Host.Cell} (h : Keeps s₀ s) : Keeps s₀ (hostStore s cells) := by
  unfold Machine.hostStore
  split
  · exact h
  · exact h.enterView

theorem setFloor {power grade : Nat} (h : Keeps s₀ s) : Keeps s₀ (setFloor s power grade) := by
  unfold Machine.setFloor
  split
  · exact h
  · exact h.sumTarget.frame.noteStep

theorem nextTurn (h : Keeps s₀ s) : OutKeeps s₀ (nextTurn s) := by
  unfold Machine.nextTurn
  split
  · exact h.frame.wordTurn
  · exact h.frame.exec
  · exact h.frame.tickTurn
  · exact h.frame.bindHandle
  · exact h.frame.hostStore
  · exact h.frame.takeCurve
  · exact h.frame.setFloor
  · exact h.frame.modMs
  · exact h.trans ⟨id, id, Nat.le_refl _⟩
  · exact h.trans ⟨id, id, Nat.le_refl _⟩
  · exact h.ownTurn

/-! ### One step of the machine -/

theorem step (h : Keeps s₀ s) : OutKeeps s₀ (step s) := h.nextTurn

end Keeps

end Sys2Proof.Machine
end

section
/-! Every step keeps the canonical form of the memories (log 1), and no leaf signs twice (R386). -/

namespace Sys2Proof.Package

open Sys2Proof Sys2Proof.Machine

/-- Settles O56: a step keeps the memories' form, as every function that it applies does (Keeps.step). -/
theorem memoryStaysCanonical : Obligations.MemoryStaysCanonical :=
  fun s _ hs h => ((Keeps.refl s).step.next h).mem hs

/-- Settles O57: only a report uses a leaf, one that is left (Keeps.makeReport), and no other function changes their count. -/
theorem leavesSignOnce : Obligations.LeavesSignOnce := by
  intro s t hs h
  have hk : Keeps s t := (Keeps.refl s).step.next h
  exact ⟨hk.leaves hs, hk.leaf⟩

end Sys2Proof.Package
end
